-- ==== Sys2Proof/Word.lean ====
section
/-! DEFINITION. The word types of the FY-840 and their plainest arithmetic. -/

namespace Sys2Proof

/-- One octet. -/
abbrev Byte := BitVec 8

/-- A 40-bit fabric word (R177). -/
abbrev W40 := BitVec 40

/-- A token payload or a match-entry word (R26, R57). -/
abbrev W128 := BitVec 128

/-- A sparse table: (key, value) pairs with strictly rising keys; an absent key has the table's default. -/
abbrev Tab (α : Type) := List (Nat × α)

end Sys2Proof
end

