-- ==== Sys2Proof/Terms.lean ====
section
/-! DEFINITION. The names the spec fixes and that commands and state both use: the two configurations, the
opcodes of the node encoding with their classes, execution sites, roles, and the shapes of command operands. -/

namespace Sys2Proof

/-- The two configurations of R1. -/
inductive Part where
  | x   -- FY-840X
  | s   -- FY-840S
  deriving DecidableEq, Repr

/-- The mnemonics of R154 and R155 (attachment calls carry their number separately). -/
inductive Op where
  | pass | steer | merge | sync | const | sel | swap | gate | feat | time | ctxid | raise
  | add | adc | sub | sbb | neg | abs | inc | dec | mul | mulh | mulhu | div | divu | mac | min | max
  | and | or | xor | not | andn | orn | xnor | msub | minu | maxu
  | shl | shr | sar | rol | ror | clz | ctz | popc | bext | bextu | bins | bperm | sext | zext
  | ceq | cne | clt | cle | cltu | cleu | ctst | cbit
  | ceqb | cneb | cltb | cleb | cltub | cleub | ctstb | cbitb
  | ld | ldb | ldbu | ldh | ldhu | ldw | ldwu | st | stb | sth | stw | ird | iwr | iclr
  | aadd | aand | aor | axor | axchg | acas | amin | amax | lock | unlock | trylock
  | bld | bst | btas | btac | bflip | blts | band | bor | bxor | bnot
  | flgr | flgw | flgtas | setbank | getbank | settrap | setsub | setrnd | getmode
  | i2fx | fx2i | fx2f | f2fx | i2f | f2i | f2iu
  | fadd | fsub | fmul | fdiv | fsqrt | fma | fmin | fmax | fneg | fabs | fceq | fclt | fcle | fcun | frint | fclass
  | bcd2i | i2bcd | dec2i | i2dec | eb2as | as2eb | bswap | brev
  | nop | halt | ret | wfi
  | jmp | bz | bnz | jal | jr | trapret | csrr | csrw
  | hash | crc32c | pdep | pext
  | att
  deriving DecidableEq, Repr

/-- The instruction classes of R156. -/
inductive Cls where
  | D | A | L | S | C | M | Y | K | B | Q | V | F | T | G
  deriving DecidableEq, Repr

/-- Where a node instruction executes: the firing that a cell of a cluster position holds, or the Glolet core. -/
inductive Site where
  | cell (pos cell : Nat)
  | glolet
  deriving DecidableEq, Repr

/-- The four roles of R7. -/
inductive Role where
  | O | P | K | W
  deriving DecidableEq, Repr

/-- The four reset causes that reset the main domain (R422) are told apart in Machine/Reset; power rails of R446. -/
inductive Rail where
  | vddFab | vddHub | vddSer09 | vddSer12 | vddHbm | vddIo | aux
  deriving DecidableEq, Repr

/-- A spill queue by name: a cluster's ready queue, an ingress or egress ring, a parking queue. -/
inductive QId where
  | ready (pos pri : Nat)
  | ingress (ring : Nat)
  | egress (ring : Nat)
  | park (k : Nat)
  deriving DecidableEq, Repr

/-- What a TLS record turns out to be: application data that authenticated, an authenticated close_notify, an
authenticated KeyUpdate, or a record that fails authentication. -/
inductive TlsRec where
  | data (plain : List Byte)
  | closeNotify
  | keyUpdate
  | bad
  deriving DecidableEq, Repr

/-- What a handshake has brought from the peer when it comes to its end (R247): whether it speaks TLS 1.3; the suites, groups
and signatures it allows, as bits of the profile's fields; the age in s of a ticket whose PSK it resumes with psk_dhe_ke; the
depth of its certificate chain and the anchor set the chain verifies under; whether everything else verified. -/
structure HsIn where
  tls13  : Bool
  suites : Nat
  groups : Nat
  sigs   : Nat
  ticket : Option Nat
  chain  : Option (Nat × Nat)
  proved : Bool
  deriving DecidableEq, Repr

/-- A TCP segment from a peer (R246). Addresses are 16-octet values laid out as `SES_REMOTE_ADDR`, octet 0 least
significant; options absent are `none` or empty. -/
structure SegIn where
  v6    : Bool
  addr  : Nat
  sport : Nat
  dport : Nat
  seq   : Nat
  ack   : Nat
  syn   : Bool
  ackF  : Bool
  fin   : Bool
  rst   : Bool
  wnd   : Nat
  mss   : Option Nat
  scale : Option Nat
  sackOk : Bool
  sacks : List (Nat × Nat)
  data  : List Byte
  deriving DecidableEq, Repr

/-- A dictionary request of an open session (R374): session 0–15, or 0x40 + PCIe queue pair; frame `SEQ`; the payload's
fields; the `MAC` octets. -/
structure DReq where
  sess : Nat
  seq  : Nat
  op   : Nat
  idx  : Nat
  sub  : Nat
  off  : Nat
  data : List Byte
  mac  : List Byte
  deriving DecidableEq, Repr

/-- A PTP message (R316): message type of IEEE 1588, sequence, domain, transport as `PTP_TRANSPORT` codes it, origin or
receive timestamp, correction, two-step flag, the announced ordering data with the grandmaster's identity and the steps
removed, the sender's identity, and the receipt timestamp. Times count 1/256 ns (R309). -/
structure PtpMsg where
  typ    : Nat
  seq    : Nat
  domain : Nat
  transp : Nat
  stamp  : Nat
  corr   : Int
  twoStep : Bool
  prio1  : Nat
  cls    : Nat
  acc    : Nat
  var    : Nat
  prio2  : Nat
  gm     : Nat
  steps  : Nat
  ident  : Nat
  rx     : Nat
  deriving DecidableEq, Repr

/-- The registers of a PCIe queue pair in BAR0, and the MSI-X vectors masked, as the host has set them (R354–R356). -/
structure QpRegs where
  subLen : Nat
  cplLen : Nat
  masked : List Nat
  deriving DecidableEq, Repr

/-- A ring frame (R367). -/
structure RFrame where
  typ   : Nat
  flags : Nat
  hops  : Nat
  seq   : Nat
  src   : List Byte
  dst   : List Byte
  pl    : List Byte
  deriving DecidableEq, Repr

/-- What follows a ring frame (R367): its CRC-32C, and whether K29.7 ended it. -/
structure RTail where
  crc   : Nat
  ended : Bool
  deriving DecidableEq, Repr

/-- A link word of `WTYPE` 0 as received (R342): the flit's header and payload, the routing fields, its sequence number and
its CRC, and whether FEC reported it uncorrectable. -/
structure WordIn where
  hdr  : BitVec 32
  pl   : W128
  ddev : Nat
  odev : Nat
  hops : Nat
  seq  : Nat
  crc  : Nat
  fec  : Bool
  deriving DecidableEq, Repr

end Sys2Proof
end

