-- ==== Sys2Proof/Syntax.lean ====
section
/-! DEFINITION. The commands of the block: one constructor per row of spec/opcode_table.json: first the rows with an
operand of their own, then those of a firing or a Glolet instruction, then those without an operand, each in the table's
order. An operand names the instance a row acts on (a session, a ring, a context, a cluster position) or carries what comes
from outside (a segment, a frame, a dictionary request, a reading). -/

namespace Sys2Proof

/-- A command, by the row of the table that it is. -/
inductive Instr where
  /-- TLS_RECORD_RECEIVE (R249). -/
  | tlsRecordReceive (ses wire : Nat) (rec : TlsRec)
  /-- SHARED_RING_MESSAGE_WRITE (R249). -/
  | sharedRingMessageWrite (ring : Nat)
  /-- TCP_SEGMENT_RECEIVE (R246). -/
  | tcpSegmentReceive (port : Nat) (seg : SegIn)
  /-- TCP_RETRANSMIT_TIMEOUT (R246). -/
  | tcpRetransmitTimeout (ses : Nat)
  /-- KEEPALIVE_TIMER (R246). -/
  | keepaliveTimer (ses : Nat)
  /-- SES_ENABLE (R245). -/
  | sesEnable (r : DReq)
  /-- SES_OPERATOR_CLOSE (R245). -/
  | sesOperatorClose (r : DReq)
  /-- SES_DISABLE (R245). -/
  | sesDisable (r : DReq)
  /-- CONNECT_TIMEOUT (R245). -/
  | connectTimeout (ses : Nat)
  /-- HANDSHAKE_START (R248). -/
  | handshakeStart (ses : Nat)
  /-- HANDSHAKE_COMPLETE (R245). -/
  | handshakeComplete (ses : Nat) (peer : HsIn)
  /-- HANDSHAKE_TIMEOUT (R245). -/
  | handshakeTimeout (ses : Nat)
  /-- CLOSING_TIMEOUT (R245). -/
  | closingTimeout (ses : Nat)
  /-- BACKOFF_EXPIRY (R245). -/
  | backoffExpiry (ses : Nat)
  /-- EGRESS_RECORD_SEND (R254). -/
  | egressRecordSend (ring : Nat)
  /-- PFC_RENEW (R252). -/
  | pfcRenew (port : Nat)
  /-- INGRESS_ENABLE_WRITE (R253). -/
  | ingressEnableWrite (r : DReq)
  /-- RING_ENABLE (R92). -/
  | ringEnable (r : DReq)
  /-- RING_DISABLE (R92). -/
  | ringDisable (r : DReq)
  /-- OVERRUN_CLEAR (R93). -/
  | overrunClear (r : DReq)
  /-- WATERMARK_WRITE (R95). -/
  | watermarkWrite (r : DReq)
  /-- LEX_RECORD (R262). -/
  | lexRecord (ring : Nat)
  /-- DUE_TIME_EXPIRY (R140). -/
  | dueTimeExpiry (ctx : Nat)
  /-- FALLBACK_POINT_EXPIRY (R20). -/
  | fallbackPointExpiry (ctx : Nat)
  /-- DEADLINE_PURGE_EXPIRY (R23). -/
  | deadlinePurgeExpiry (ctx : Nat)
  /-- PACE_WINDOW_END (R102). -/
  | paceWindowEnd (readings : List (Nat × Nat))
  /-- FORCE_STANDIN (R125). -/
  | forceStandin (r : DReq)
  /-- RESPONSE_LAST_BYTE (R266). -/
  | responseLastByte (ctx : Nat)
  /-- RECLAIM_DONE (R123). -/
  | reclaimDone (ctx : Nat)
  /-- JOURNAL_APPEND (R298). -/
  | journalAppend (lane : Nat)
  /-- CKPT_REQUEST (R303). -/
  | ckptRequest (r : DReq)
  /-- JNL_EXPORT_ACK (R302). -/
  | jnlExportAck (n : Nat)
  /-- ROUTER_HOP (R326). -/
  | routerHop (router inp vc : Nat)
  /-- VC2_ESCAPE (R112). -/
  | vc2Escape (router inp vc : Nat)
  /-- MATCH_ARRIVAL (R59). -/
  | matchArrival (pos vc : Nat)
  /-- OVERFLOW_PROBE_DONE (R66). -/
  | overflowProbeDone (pos key : Nat)
  /-- MATCH_SWEEP_TICK (R61). -/
  | matchSweepTick (pos key : Nat)
  /-- WRITEBACK_LINK (R65). -/
  | writebackLink (pos : Nat)
  /-- SPILL_BURST_DONE (R91). -/
  | spillBurstDone (q : QId)
  /-- SPILL_REFILL_DONE (R91). -/
  | spillRefillDone (q : QId)
  /-- DISPATCH (R86). -/
  | dispatch (pos : Nat)
  /-- FRAME_FETCH_DONE (R44). -/
  | frameFetchDone (pos ctx : Nat)
  /-- CODE_RELOAD_DONE (R89). -/
  | codeReloadDone (pos : Nat)
  /-- FABRIC_STALL_DETECT (R122). -/
  | fabricStallDetect (die : Nat)
  /-- SLOT_TICK (R413). -/
  | slotTick (pos : Nat)
  /-- ORPHAN_BREAK (R239). -/
  | orphanBreak (r : DReq)
  /-- CRYPTO_SLOT_START (R273). -/
  | cryptoSlotStart (slot : Nat)
  /-- CRYPTO_CALL_COMPLETE (R272). -/
  | cryptoCallComplete (slot : Nat)
  /-- MASTER_KEY_CMD (R281). -/
  | masterKeyCmd (r : DReq)
  /-- KEY_DELETE (R285). -/
  | keyDelete (r : DReq)
  /-- IMPORT_CMD (R284). -/
  | importCmd (r : DReq)
  /-- EXPORT_CMD (R284). -/
  | exportCmd (r : DReq)
  /-- COMPONENT (R284). -/
  | component (r : DReq)
  /-- GEN_CMD (R284). -/
  | genCmd (r : DReq)
  /-- ZEROIZE (R293). -/
  | zeroize (r : DReq)
  /-- MESH_COMPARE (R291). -/
  | meshCompare (ret : Nat)
  /-- DRBG_RESEED (R290). -/
  | drbgReseed (inst : Nat)
  /-- DRBG_RESTART (R290). -/
  | drbgRestart (r : DReq)
  /-- PPS_IN_EDGE (R310). -/
  | ppsInEdge (frac : Nat)
  /-- TAI_SET (R312). -/
  | taiSet (r : DReq)
  /-- TAI_SLEW_NS (R312). -/
  | taiSlewNs (r : DReq)
  /-- TB_SOURCE_WRITE (R310). -/
  | tbSourceWrite (r : DReq)
  /-- PTP_MESSAGE_RECEIVE (R316). -/
  | ptpMessageReceive (port : Nat) (m : PtpMsg)
  /-- PTP_SYNC_SEND (R316). -/
  | ptpSyncSend (port : Nat)
  /-- RING_FRAME_FORWARD (R369). -/
  | ringFrameForward (port : Nat) (f : RFrame) (tail : RTail)
  /-- RING_TIME_FRAME_RECEIVE (R370). -/
  | ringTimeFrameReceive (port : Nat) (f : RFrame) (ps : Nat)
  /-- RING_FAULT_FRAME_RECEIVE (R398). -/
  | ringFaultFrameReceive (f : RFrame)
  /-- RING_CLAIM_RECEIVE (R371). -/
  | ringClaimReceive (f : RFrame)
  /-- RING_BREAK_DETECT (R369). -/
  | ringBreakDetect (port : Nat)
  /-- HINGE_CLOSE (R372). -/
  | hingeClose (port : Nat)
  /-- HINGE_OPEN (R372). -/
  | hingeOpen (port : Nat)
  /-- DICT_READ (R374). -/
  | dictRead (r : DReq)
  /-- OBJECT_WRITE (R374). -/
  | objectWrite (r : DReq)
  /-- TRANSFER_BEGIN (R374). -/
  | transferBegin (r : DReq)
  /-- SEGMENT_WRITE (R374). -/
  | segmentWrite (r : DReq)
  /-- SEGMENT_READ (R374). -/
  | segmentRead (r : DReq)
  /-- TRANSFER_END (R374). -/
  | transferEnd (r : DReq)
  /-- SESSION_OPEN (R375). -/
  | sessionOpen (chan : Nat) (station : List Byte) (role : Nat) (nonce : List Byte)
  /-- SESSION_PROOF (R375). -/
  | sessionProof (sess : Nat) (proof : List Byte)
  /-- SESSION_IDLE_TIMEOUT (R375). -/
  | sessionIdleTimeout (sess : Nat)
  /-- LOCKOUT_EXPIRY (R376). -/
  | lockoutExpiry (station : List Byte)
  /-- PCIE_DOORBELL (R355). -/
  | pcieDoorbell (qp : Nat) (regs : QpRegs) (index octets : Nat) (aligned : Bool) (frame : RFrame)
  /-- JOURNAL_ACK_DOORBELL (R355). -/
  | journalAckDoorbell (n : Nat)
  /-- WARD_RESTART (R360). -/
  | wardRestart (r : DReq)
  /-- SENSOR_SAMPLE (R361). -/
  | sensorSample (tj tjHbm : List Int) (rails : List Nat)
  /-- FW_COMMAND (R365). -/
  | fwCommand (r : DReq)
  /-- STORE (R378). -/
  | store (r : DReq)
  /-- RESTORE (R378). -/
  | restore (r : DReq)
  /-- STORE_ERASE (R386). -/
  | storeErase (r : DReq)
  /-- IMG_VERIFY_DONE (R380). -/
  | imgVerifyDone (idx : Nat)
  /-- IMG_ACTIVATE (R381). -/
  | imgActivate (r : DReq)
  /-- IMG_INSTALL_DONE (R381). -/
  | imgInstallDone (idx : Nat)
  /-- IMG_DEACTIVATE (R383). -/
  | imgDeactivate (r : DReq)
  /-- IMG_DRAIN_DONE (R383). -/
  | imgDrainDone (idx : Nat)
  /-- IMG_ERASE (R380). -/
  | imgErase (r : DReq)
  /-- ROUTE_SWAP (R334). -/
  | routeSwap (r : DReq)
  /-- SWAP_VC_DRAINED (R334). -/
  | swapVcDrained (vc : Nat)
  /-- DOMAIN_POWER_DOWN (R338). -/
  | domainPowerDown (r : DReq)
  /-- DOMAIN_POWER_UP (R338). -/
  | domainPowerUp (r : DReq)
  /-- PARK_REPLAY_DONE (R338). -/
  | parkReplayDone (k : Nat)
  /-- LINK_ENABLE_SET (R341). -/
  | linkEnableSet (r : DReq)
  /-- LINK_ENABLE_CLEAR (R341). -/
  | linkEnableClear (r : DReq)
  /-- LINK_TRAINED (R341). -/
  | linkTrained (l neighbour flight : Nat)
  /-- LINK_ALIGNMENT_LOST (R341). -/
  | linkAlignmentLost (l : Nat)
  /-- LINK_RETRAIN_TIMEOUT (R341). -/
  | linkRetrainTimeout (l : Nat)
  /-- LINK_DOWN_EXPIRY (R341). -/
  | linkDownExpiry (l : Nat)
  /-- LINK_WORD_RECEIVE (R342). -/
  | linkWordReceive (l : Nat) (w : WordIn)
  /-- LINK_CREDIT_WORD (R343). -/
  | linkCreditWord (l : Nat) (returns : List Nat) (seq : Nat)
  /-- LINK_RETRY_REQUEST (R344). -/
  | linkRetryRequest (l seq : Nat)
  /-- LINK_TOKEN_SEND (R349). -/
  | linkTokenSend (l : Nat)
  /-- DEVICE_ID_WRITE (R345). -/
  | deviceIdWrite (r : DReq)
  /-- ETH_FRAME_RECEIVE (R353). -/
  | ethFrameReceive (port : Nat) (frame : List Byte)
  /-- ETH_SPLIT (R352). -/
  | ethSplit (r : DReq)
  /-- GRACE_EXPIRY (R391). -/
  | graceExpiry (src : Nat)
  /-- RELATCH_EXPIRY (R395). -/
  | relatchExpiry (src : Nat)
  /-- FAULT_ACK (R394). -/
  | faultAck (r : DReq)
  /-- FAULT_CLEAR (R395). -/
  | faultClear (r : DReq)
  /-- FAULT_SUBWINDOW_TICK (R389). -/
  | faultSubwindowTick (src : Nat)
  /-- HISTORY_CLOSE_EXPIRY (R396). -/
  | historyCloseExpiry (entry : Nat)
  /-- CLUSTER_FAILURE (R399). -/
  | clusterFailure (pos : Nat) (router : Bool)
  /-- ROLL_TEST_DONE (R403). -/
  | rollTestDone (pass : Bool)
  /-- BIST_CMD (R404). -/
  | bistCmd (r : DReq)
  /-- BIST_DONE (R404). -/
  | bistDone (failed : List Nat)
  /-- INJ_ARM (R406). -/
  | injArm (r : DReq)
  /-- CNT_CONFIG (R419). -/
  | cntConfig (r : DReq)
  /-- CNT_VALUE_WRITE (R419). -/
  | cntValueWrite (r : DReq)
  /-- CNT_VALUE_READ (R418). -/
  | cntValueRead (r : DReq)
  /-- OVF_POP (R417). -/
  | ovfPop (r : DReq)
  /-- MAIN_POWER_LOSS (R422). -/
  | mainPowerLoss (rail : Rail)
  /-- RESET_N_ASSERT (R449). -/
  | resetNAssert (lowNs : Nat)
  /-- SYS_RESET_CMD (R426). -/
  | sysResetCmd (r : DReq)
  /-- CORE_RESET_CMD (R425). -/
  | coreResetCmd (r : DReq)
  /-- SR_RING (R427). -/
  | srRing (r : DReq)
  /-- SR_CRYPTO (R427). -/
  | srCrypto (r : DReq)
  /-- SR_PCIE (R427). -/
  | srPcie (r : DReq)
  /-- SR_LINKS (R427). -/
  | srLinks (r : DReq)
  /-- SR_ETH (R427). -/
  | srEth (r : DReq)
  /-- SR_HASP (R427). -/
  | srHasp (r : DReq)
  /-- SR_KEYWAY (R427). -/
  | srKeyway (r : DReq)
  /-- SR_FABRIC (R427). -/
  | srFabric (r : DReq)
  /-- FULL_SOFT_RESET (R428). -/
  | fullSoftReset (r : DReq)
  /-- PLL_LOCK (R429). -/
  | pllLock (block : Nat)
  /-- PLL_LOCK_LOST (R429). -/
  | pllLockLost (block : Nat)
  /-- AVS_STATUS_POLL (R434). -/
  | avsStatusPoll (answered fault : Bool)
  /-- BOOST_ENABLE (R435). -/
  | boostEnable (r : DReq)
  /-- RAIL_OUT_OF_RANGE (R439). -/
  | railOutOfRange (rail : Rail)
  /-- LINK_REALIGNED (R341). -/
  | linkRealigned (l : Nat)
  /-- RING_SYNC_ACQUIRED (R369). -/
  | ringSyncAcquired (port : Nat)
  /-- PCIE_LINK_UP (R354). -/
  | pcieLinkUp (width rate : Nat)
  /-- PPS_OUT_WIDTH_END (R314). -/
  | ppsOutWidthEnd (pin : Nat)
  /-- HBM_PERIODIC_CALIBRATION (R225). -/
  | hbmPeriodicCalibration (stack : Nat)
  /-- TAP_TCK_EDGE (R443). -/
  | tapTckEdge (rising tms tdi : Bool) (pins : List Bool)
  /-- PTP_ANNOUNCE_SEND (R316). -/
  | ptpAnnounceSend (port : Nat)
  /-- PTP_DELAY_REQUEST_SEND (R316). -/
  | ptpDelayRequestSend (port : Nat)
  /-- RESPOND (R263). -/
  | respond (site : Site)
  /-- FORWARD (R263). -/
  | forward (site : Site)
  /-- SESSION_OF (R263). -/
  | sessionOf (site : Site)
  /-- PASS (R181). -/
  | pass (site : Site)
  /-- STEER (R181). -/
  | steer (site : Site)
  /-- MERGE (R181). -/
  | merge (site : Site)
  /-- SYNC (R181). -/
  | sync (site : Site)
  /-- CONST (R181). -/
  | const (site : Site)
  /-- SEL (R181). -/
  | sel (site : Site)
  /-- SWAP (R181). -/
  | swap (site : Site)
  /-- GATE (R181). -/
  | gate (site : Site)
  /-- FEAT (R172). -/
  | feat (site : Site)
  /-- TIME (R181). -/
  | time (site : Site)
  /-- CTXID (R181). -/
  | ctxid (site : Site)
  /-- RAISE (R181). -/
  | raise (site : Site)
  /-- ADD (R182). -/
  | add (site : Site)
  /-- ADC (R182). -/
  | adc (site : Site)
  /-- SUB (R182). -/
  | sub (site : Site)
  /-- SBB (R182). -/
  | sbb (site : Site)
  /-- NEG (R182). -/
  | neg (site : Site)
  /-- ABS (R182). -/
  | abs (site : Site)
  /-- INC (R182). -/
  | inc (site : Site)
  /-- DEC (R182). -/
  | dec (site : Site)
  /-- MUL (R182). -/
  | mul (site : Site)
  /-- MULH (R182). -/
  | mulh (site : Site)
  /-- MULHU (R182). -/
  | mulhu (site : Site)
  /-- DIV (R182). -/
  | div (site : Site)
  /-- DIVU (R182). -/
  | divu (site : Site)
  /-- MAC (R182). -/
  | mac (site : Site)
  /-- MSUB (R182). -/
  | msub (site : Site)
  /-- MIN (R182). -/
  | min (site : Site)
  /-- MAX (R182). -/
  | max (site : Site)
  /-- MINU (R182). -/
  | minu (site : Site)
  /-- MAXU (R182). -/
  | maxu (site : Site)
  /-- AND (R184). -/
  | and (site : Site)
  /-- OR (R184). -/
  | or (site : Site)
  /-- XOR (R184). -/
  | xor (site : Site)
  /-- NOT (R184). -/
  | not (site : Site)
  /-- ANDN (R184). -/
  | andn (site : Site)
  /-- ORN (R184). -/
  | orn (site : Site)
  /-- XNOR (R184). -/
  | xnor (site : Site)
  /-- BAND (R184). -/
  | band (site : Site)
  /-- BOR (R184). -/
  | bor (site : Site)
  /-- BXOR (R184). -/
  | bxor (site : Site)
  /-- BNOT (R184). -/
  | bnot (site : Site)
  /-- SHL (R185). -/
  | shl (site : Site)
  /-- SHR (R185). -/
  | shr (site : Site)
  /-- SAR (R185). -/
  | sar (site : Site)
  /-- ROL (R185). -/
  | rol (site : Site)
  /-- ROR (R185). -/
  | ror (site : Site)
  /-- CLZ (R186). -/
  | clz (site : Site)
  /-- CTZ (R186). -/
  | ctz (site : Site)
  /-- POPC (R186). -/
  | popc (site : Site)
  /-- BEXT (R186). -/
  | bext (site : Site)
  /-- BEXTU (R186). -/
  | bextu (site : Site)
  /-- BINS (R186). -/
  | bins (site : Site)
  /-- BPERM (R186). -/
  | bperm (site : Site)
  /-- SEXT (R186). -/
  | sext (site : Site)
  /-- ZEXT (R186). -/
  | zext (site : Site)
  /-- PDEP (R186). -/
  | pdep (site : Site)
  /-- PEXT (R186). -/
  | pext (site : Site)
  /-- HASH (R187). -/
  | hash (site : Site)
  /-- CRC32C (R188). -/
  | crc32c (site : Site)
  /-- CEQ (R190). -/
  | ceq (site : Site)
  /-- CNE (R190). -/
  | cne (site : Site)
  /-- CLT (R190). -/
  | clt (site : Site)
  /-- CLE (R190). -/
  | cle (site : Site)
  /-- CLTU (R190). -/
  | cltu (site : Site)
  /-- CLEU (R190). -/
  | cleu (site : Site)
  /-- CTST (R190). -/
  | ctst (site : Site)
  /-- CBIT (R191). -/
  | cbit (site : Site)
  /-- CEQB (R190). -/
  | ceqb (site : Site)
  /-- CNEB (R190). -/
  | cneb (site : Site)
  /-- CLTB (R190). -/
  | cltb (site : Site)
  /-- CLEB (R190). -/
  | cleb (site : Site)
  /-- CLTUB (R190). -/
  | cltub (site : Site)
  /-- CLEUB (R190). -/
  | cleub (site : Site)
  /-- CTSTB (R190). -/
  | ctstb (site : Site)
  /-- CBITB (R191). -/
  | cbitb (site : Site)
  /-- FLGR (R193). -/
  | flgr (site : Site)
  /-- FLGW (R193). -/
  | flgw (site : Site)
  /-- FLGTAS (R193). -/
  | flgtas (site : Site)
  /-- SETBANK (R193). -/
  | setbank (site : Site)
  /-- GETBANK (R193). -/
  | getbank (site : Site)
  /-- SETTRAP (R193). -/
  | settrap (site : Site)
  /-- SETSUB (R193). -/
  | setsub (site : Site)
  /-- SETRND (R193). -/
  | setrnd (site : Site)
  /-- GETMODE (R193). -/
  | getmode (site : Site)
  /-- I2FX (R206). -/
  | i2fx (site : Site)
  /-- FX2I (R206). -/
  | fx2i (site : Site)
  /-- FX2F (R206). -/
  | fx2f (site : Site)
  /-- F2FX (R206). -/
  | f2fx (site : Site)
  /-- I2F (R206). -/
  | i2f (site : Site)
  /-- F2I (R206). -/
  | f2i (site : Site)
  /-- F2IU (R206). -/
  | f2iu (site : Site)
  /-- BCD2I (R189). -/
  | bcd2i (site : Site)
  /-- I2BCD (R189). -/
  | i2bcd (site : Site)
  /-- DEC2I (R189). -/
  | dec2i (site : Site)
  /-- I2DEC (R189). -/
  | i2dec (site : Site)
  /-- EB2AS (R189). -/
  | eb2as (site : Site)
  /-- AS2EB (R189). -/
  | as2eb (site : Site)
  /-- BSWAP (R189). -/
  | bswap (site : Site)
  /-- BREV (R189). -/
  | brev (site : Site)
  /-- FADD (R210). -/
  | fadd (site : Site)
  /-- FSUB (R210). -/
  | fsub (site : Site)
  /-- FMUL (R210). -/
  | fmul (site : Site)
  /-- FDIV (R210). -/
  | fdiv (site : Site)
  /-- FSQRT (R210). -/
  | fsqrt (site : Site)
  /-- FMA (R210). -/
  | fma (site : Site)
  /-- FMIN (R210). -/
  | fmin (site : Site)
  /-- FMAX (R210). -/
  | fmax (site : Site)
  /-- FNEG (R210). -/
  | fneg (site : Site)
  /-- FABS (R210). -/
  | fabs (site : Site)
  /-- FCEQ (R210). -/
  | fceq (site : Site)
  /-- FCLT (R210). -/
  | fclt (site : Site)
  /-- FCLE (R210). -/
  | fcle (site : Site)
  /-- FCUN (R210). -/
  | fcun (site : Site)
  /-- FRINT (R210). -/
  | frint (site : Site)
  /-- FCLASS (R210). -/
  | fclass (site : Site)
  /-- LD (R195). -/
  | ld (site : Site)
  /-- LDB (R195). -/
  | ldb (site : Site)
  /-- LDBU (R195). -/
  | ldbu (site : Site)
  /-- LDH (R195). -/
  | ldh (site : Site)
  /-- LDHU (R195). -/
  | ldhu (site : Site)
  /-- LDW (R195). -/
  | ldw (site : Site)
  /-- LDWU (R195). -/
  | ldwu (site : Site)
  /-- ST (R195). -/
  | st (site : Site)
  /-- STB (R195). -/
  | stb (site : Site)
  /-- STH (R195). -/
  | sth (site : Site)
  /-- STW (R195). -/
  | stw (site : Site)
  /-- IRD (R195). -/
  | ird (site : Site)
  /-- IWR (R195). -/
  | iwr (site : Site)
  /-- ICLR (R195). -/
  | iclr (site : Site)
  /-- AADD (R196). -/
  | aadd (site : Site)
  /-- AAND (R196). -/
  | aand (site : Site)
  /-- AOR (R196). -/
  | aor (site : Site)
  /-- AXOR (R196). -/
  | axor (site : Site)
  /-- AXCHG (R196). -/
  | axchg (site : Site)
  /-- ACAS (R196). -/
  | acas (site : Site)
  /-- AMIN (R196). -/
  | amin (site : Site)
  /-- AMAX (R196). -/
  | amax (site : Site)
  /-- LOCK (R233). -/
  | lock (site : Site)
  /-- TRYLOCK (R233). -/
  | trylock (site : Site)
  /-- UNLOCK (R235). -/
  | unlock (site : Site)
  /-- BLD (R200). -/
  | bld (site : Site)
  /-- BST (R200). -/
  | bst (site : Site)
  /-- BTAS (R200). -/
  | btas (site : Site)
  /-- BTAC (R200). -/
  | btac (site : Site)
  /-- BFLIP (R200). -/
  | bflip (site : Site)
  /-- BLTS (R200). -/
  | blts (site : Site)
  /-- SIG_SIGN (R274). -/
  | sigSign (site : Site)
  /-- SIG_VERIFY (R274). -/
  | sigVerify (site : Site)
  /-- SIG_VERIFY_V15 (R274). -/
  | sigVerifyV15 (site : Site)
  /-- GCM_SEAL (R277). -/
  | gcmSeal (site : Site)
  /-- GCM_OPEN (R277). -/
  | gcmOpen (site : Site)
  /-- CMAC_GEN (R277). -/
  | cmacGen (site : Site)
  /-- CMAC_VERIFY (R277). -/
  | cmacVerify (site : Site)
  /-- HMAC_GEN (R277). -/
  | hmacGen (site : Site)
  /-- HMAC_VERIFY (R277). -/
  | hmacVerify (site : Site)
  /-- DIGEST (R277). -/
  | digest (site : Site)
  /-- PIN_XLATE (R286). -/
  | pinXlate (site : Site)
  /-- PIN_XLATE_DUKPT (R289). -/
  | pinXlateDukpt (site : Site)
  /-- RANDOM (R277). -/
  | random (site : Site)
  /-- CUSTOMER_LOGIC_CALL (R157). -/
  | customerLogicCall (site : Site)
  /-- KEYWAY_TAKE_SIGNAL (R131). -/
  | keywayTakeSignal
  /-- REJECT_LANE_WRITE (R135). -/
  | rejectLaneWrite
  /-- DRAIN_TICK (R137). -/
  | drainTick
  /-- CKPT_INTERVAL_EXPIRY (R303). -/
  | ckptIntervalExpiry
  /-- CKPT_SIGN_DONE (R303). -/
  | ckptSignDone
  /-- PI_SIGNAL (R87). -/
  | piSignal
  /-- DEFERRAL_SWEEP_TICK (R228). -/
  | deferralSweepTick
  /-- GLITCH_DETECT (R292). -/
  | glitchDetect
  /-- ZEROIZE_SEAL_DONE (R293). -/
  | zeroizeSealDone
  /-- ENTROPY_TEST_FAIL (R290). -/
  | entropyTestFail
  /-- TAI_STEP_APPLY (R312). -/
  | taiStepApply
  /-- SOURCE_LOSS_TIMEOUT (R311). -/
  | sourceLossTimeout
  /-- REFCLK_LOCK_LOST (R311). -/
  | refclkLockLost
  /-- REFCLK_LOCK_REGAINED (R311). -/
  | refclkLockRegained
  /-- PPS_OUT_PULSE (R314). -/
  | ppsOutPulse
  /-- RING_TIME_SEND (R317). -/
  | ringTimeSend
  /-- CLAIM_TIMER (R371). -/
  | claimTimer
  /-- TIME_FRAME_ABSENCE (R371). -/
  | timeFrameAbsence
  /-- BECOME_MASTER (R371). -/
  | becomeMaster
  /-- PCIE_LINK_RESET (R442). -/
  | pcieLinkReset
  /-- WATCHDOG_EXPIRY (R360). -/
  | watchdogExpiry
  /-- GLOLET_INTERRUPT (R359). -/
  | gloletInterrupt
  /-- JMP (R175). -/
  | jmp
  /-- BZ (R175). -/
  | bz
  /-- BNZ (R175). -/
  | bnz
  /-- JAL (R175). -/
  | jal
  /-- JR (R175). -/
  | jr
  /-- RET (R175). -/
  | ret
  /-- TRAPRET (R175). -/
  | trapret
  /-- HALT (R175). -/
  | halt
  /-- WFI (R175). -/
  | wfi
  /-- NOP (R175). -/
  | nop
  /-- CSRR (R359). -/
  | csrr
  /-- CSRW (R359). -/
  | csrw
  /-- FW_VERIFY_DONE (R365). -/
  | fwVerifyDone
  /-- FW_TRIAL_CONFIRM (R365). -/
  | fwTrialConfirm
  /-- FW_TRIAL_TIMEOUT (R365). -/
  | fwTrialTimeout
  /-- DOMAIN_DRAIN_END (R338). -/
  | domainDrainEnd
  /-- DOMAIN_RAILS_UP (R338). -/
  | domainRailsUp
  /-- PARK_RECEIVE (R337). -/
  | parkReceive
  /-- PROXY_ADMISSION (R348). -/
  | proxyAdmission
  /-- FAULT_EVENT (R391). -/
  | faultEvent
  /-- DEADBOLT_CORE_RESET (R393). -/
  | deadboltCoreReset
  /-- TAKEOVER_CODE_LOADED (R400). -/
  | takeoverCodeLoaded
  /-- TAKEOVER_COMPLETE (R400). -/
  | takeoverComplete
  /-- ROLL_TEST_START (R403). -/
  | rollTestStart
  /-- DUMP_TICK (R415). -/
  | dumpTick
  /-- AUX_POWER_LOSS (R422). -/
  | auxPowerLoss
  /-- AUX_POWER_GOOD (R430). -/
  | auxPowerGood
  /-- MAIN_POWER_GOOD (R430). -/
  | mainPowerGood
  /-- RESET_N_RELEASE (R430). -/
  | resetNRelease
  /-- POWERON_INIT_DONE (R430). -/
  | poweronInitDone
  /-- CORE_RESET_WALK_DONE (R425). -/
  | coreResetWalkDone
  /-- CORE_RESET_REINIT_DONE (R425). -/
  | coreResetReinitDone
  /-- GOVERNOR_TICK (R433). -/
  | governorTick
  /-- BOOST_CHARGE_TICK (R436). -/
  | boostChargeTick
  /-- THERMAL_TRIP (R438). -/
  | thermalTrip
  /-- TRST_N_ASSERT (R443). -/
  | trstNAssert
  deriving DecidableEq, Repr

end Sys2Proof
end

