-- ==== Sys2Proof/Decode.lean ====
section
/-! DEFINITION. Decoding of table words. No row of spec/opcode_table.json gives bits: a command comes from outside or
from time, and none is spelled by a word. -/

namespace Sys2Proof

/-- The command that a word spells by the table's bits: none, since the table gives no bits for any row. -/
def decodeTableWord (_nbits _w : Nat) : Option Instr := none

end Sys2Proof
end

