-- ==== Sys2Proof/Machine/Tab.lean ====
section
/-! DEFINITION. Operations of the sparse tables and of byte memories, and small list helpers. -/

namespace Sys2Proof.Machine

/-- The entry at key `k`, if the table lists one. -/
def tget? {α : Type} (t : Tab α) (k : Nat) : Option α := (t.find? (fun e => e.1 == k)).map (·.2)

/-- The entry at key `k`, or the table's default. -/
def tget {α : Type} (d : α) (t : Tab α) (k : Nat) : α := (tget? t k).getD d

/-- The table with key `k` set to `v`, in place and in order. -/
def tset {α : Type} (t : Tab α) (k : Nat) (v : α) : Tab α :=
  match t with
  | [] => [(k, v)]
  | (j, w) :: r => if k < j then (k, v) :: (j, w) :: r else if k = j then (k, v) :: r else (j, w) :: tset r k v

/-- The table without key `k`. -/
def terase {α : Type} (t : Tab α) (k : Nat) : Tab α := t.filter (fun e => e.1 != k)

/-- Set key `k` to `v`, dropping the entry where `v` is the default (the canonical form). -/
def tput {α : Type} [DecidableEq α] (d : α) (t : Tab α) (k : Nat) (v : α) : Tab α :=
  if v = d then terase t k else tset t k v

/-- Change the entry at key `k` (read as the default where absent). -/
def tmod {α : Type} (d : α) (t : Tab α) (k : Nat) (f : α → α) : Tab α := tset t k (f (tget d t k))

/-- What a byte of memory that nothing has written reads as. DESIGN CHOICE (log 2): zero. -/
def unwritten : Byte := 0

/-- One byte of a byte memory. -/
def memByte (m : List (Nat × Byte)) (a : Nat) : Byte := tget unwritten m a

/-- One byte written; a byte equal to what an unlisted address reads as leaves no entry. -/
def memPut (m : List (Nat × Byte)) (a : Nat) (b : Byte) : List (Nat × Byte) := tput unwritten m a b

/-- `n` octets from address `a`, lowest address first. -/
def memOctets (m : List (Nat × Byte)) (a : Nat) : Nat → List Byte
  | 0 => []
  | n + 1 => memByte m a :: memOctets m (a + 1) n

/-- Octets written from address `a` upwards. -/
def memWrite (m : List (Nat × Byte)) (a : Nat) : List Byte → List (Nat × Byte)
  | [] => m
  | b :: r => memWrite (memPut m a b) (a + 1) r

/-- The canonical form of a byte memory: strictly rising addresses, no entry equal to the unlisted value. -/
def memWf : List (Nat × Byte) → Bool
  | [] => true
  | [(_, v)] => v != unwritten
  | (a, v) :: (b, w) :: r => (v != unwritten) && decide (a < b) && memWf ((b, w) :: r)

/-- Little-endian value of octets (R11: least significant octet first). -/
def leNat : List Byte → Nat
  | [] => 0
  | b :: r => b.toNat + 256 * leNat r

/-- Big-endian value of octets. -/
def beNat (l : List Byte) : Nat := l.foldl (fun a b => 256 * a + b.toNat) 0

/-- `n` little-endian octets of a number. -/
def leOctets : Nat → Nat → List Byte
  | 0, _ => []
  | n + 1, v => BitVec.ofNat 8 v :: leOctets n (v / 256)

/-- `n` big-endian octets of a number. -/
def beOctets (n v : Nat) : List Byte := (leOctets n v).reverse

/-- Replace element `i` of a list (no effect past the end). -/
def lset {α : Type} : List α → Nat → α → List α
  | [], _, _ => []
  | _ :: r, 0, v => v :: r
  | x :: r, i + 1, v => x :: lset r i v

/-- Remove the element at index `i`. -/
def ldel {α : Type} : List α → Nat → List α
  | [], _ => []
  | _ :: r, 0 => r
  | x :: r, i + 1 => x :: ldel r i

/-- The first element that satisfies `p` and the list without it. -/
def takeFirst {α : Type} (p : α → Bool) : List α → Option (α × List α)
  | [] => none
  | x :: r => if p x then some (x, r) else (takeFirst p r).map (fun q => (q.1, x :: q.2))

/-- The index of the first element that satisfies `p`. -/
def indexOf? {α : Type} (p : α → Bool) : List α → Option Nat
  | [] => none
  | x :: r => if p x then some 0 else (indexOf? p r).map (· + 1)

/-- The element with the least value of `f`, the earliest one on ties. -/
def minBy {α : Type} (f : α → Nat) : List α → Option α
  | [] => none
  | x :: r => match minBy f r with
    | none => some x
    | some y => if f y < f x then some y else some x

/-- Sum of a list of numbers. -/
def lsum (l : List Nat) : Nat := l.foldl (· + ·) 0

/-- The numbers `a`, `a + 1`, … (`n` of them). -/
def upFrom (a n : Nat) : List Nat := (List.range n).map (· + a)

/-- Bits [hi:lo] of a number. -/
def bits (v hi lo : Nat) : Nat := (v / 2 ^ lo) % 2 ^ (hi + 1 - lo)

/-- Bit `i` of a number. -/
def bit (v i : Nat) : Bool := v.testBit i

/-- One as a number where the condition holds. -/
def b2n (b : Bool) : Nat := if b then 1 else 0

end Sys2Proof.Machine
end

