-- ==== Sys2Proof/Machine/Hash.lean ====
section
/-! DEFINITION. The hash functions the spec names (R271, R274, R277, R299): SHA-256, SHA-384 and SHA-512 of FIPS 180-4,
SHA3-256, SHA3-384 and SHA3-512 of FIPS 202, HMAC of FIPS 198-1, and the CRC-32C of octets. Words are natural numbers. -/

namespace Sys2Proof.Machine

/-- FIPS 180-4: constants of SHA-256. -/
def k256 : List Nat := [
  0x428A2F98, 0x71374491, 0xB5C0FBCF, 0xE9B5DBA5, 0x3956C25B, 0x59F111F1, 0x923F82A4, 0xAB1C5ED5,
  0xD807AA98, 0x12835B01, 0x243185BE, 0x550C7DC3, 0x72BE5D74, 0x80DEB1FE, 0x9BDC06A7, 0xC19BF174,
  0xE49B69C1, 0xEFBE4786, 0xFC19DC6, 0x240CA1CC, 0x2DE92C6F, 0x4A7484AA, 0x5CB0A9DC, 0x76F988DA,
  0x983E5152, 0xA831C66D, 0xB00327C8, 0xBF597FC7, 0xC6E00BF3, 0xD5A79147, 0x6CA6351, 0x14292967,
  0x27B70A85, 0x2E1B2138, 0x4D2C6DFC, 0x53380D13, 0x650A7354, 0x766A0ABB, 0x81C2C92E, 0x92722C85,
  0xA2BFE8A1, 0xA81A664B, 0xC24B8B70, 0xC76C51A3, 0xD192E819, 0xD6990624, 0xF40E3585, 0x106AA070,
  0x19A4C116, 0x1E376C08, 0x2748774C, 0x34B0BCB5, 0x391C0CB3, 0x4ED8AA4A, 0x5B9CCA4F, 0x682E6FF3,
  0x748F82EE, 0x78A5636F, 0x84C87814, 0x8CC70208, 0x90BEFFFA, 0xA4506CEB, 0xBEF9A3F7, 0xC67178F2
  ]

/-- FIPS 180-4: initial value of SHA-256. -/
def h256 : List Nat := [
  0x6A09E667, 0xBB67AE85, 0x3C6EF372, 0xA54FF53A, 0x510E527F, 0x9B05688C, 0x1F83D9AB, 0x5BE0CD19
  ]

/-- FIPS 180-4: constants of SHA-384 and SHA-512. -/
def k512 : List Nat := [
  0x428A2F98D728AE22, 0x7137449123EF65CD, 0xB5C0FBCFEC4D3B2F, 0xE9B5DBA58189DBBC,
  0x3956C25BF348B538, 0x59F111F1B605D019, 0x923F82A4AF194F9B, 0xAB1C5ED5DA6D8118,
  0xD807AA98A3030242, 0x12835B0145706FBE, 0x243185BE4EE4B28C, 0x550C7DC3D5FFB4E2,
  0x72BE5D74F27B896F, 0x80DEB1FE3B1696B1, 0x9BDC06A725C71235, 0xC19BF174CF692694,
  0xE49B69C19EF14AD2, 0xEFBE4786384F25E3, 0xFC19DC68B8CD5B5, 0x240CA1CC77AC9C65,
  0x2DE92C6F592B0275, 0x4A7484AA6EA6E483, 0x5CB0A9DCBD41FBD4, 0x76F988DA831153B5,
  0x983E5152EE66DFAB, 0xA831C66D2DB43210, 0xB00327C898FB213F, 0xBF597FC7BEEF0EE4,
  0xC6E00BF33DA88FC2, 0xD5A79147930AA725, 0x6CA6351E003826F, 0x142929670A0E6E70,
  0x27B70A8546D22FFC, 0x2E1B21385C26C926, 0x4D2C6DFC5AC42AED, 0x53380D139D95B3DF,
  0x650A73548BAF63DE, 0x766A0ABB3C77B2A8, 0x81C2C92E47EDAEE6, 0x92722C851482353B,
  0xA2BFE8A14CF10364, 0xA81A664BBC423001, 0xC24B8B70D0F89791, 0xC76C51A30654BE30,
  0xD192E819D6EF5218, 0xD69906245565A910, 0xF40E35855771202A, 0x106AA07032BBD1B8,
  0x19A4C116B8D2D0C8, 0x1E376C085141AB53, 0x2748774CDF8EEB99, 0x34B0BCB5E19B48A8,
  0x391C0CB3C5C95A63, 0x4ED8AA4AE3418ACB, 0x5B9CCA4F7763E373, 0x682E6FF3D6B2B8A3,
  0x748F82EE5DEFB2FC, 0x78A5636F43172F60, 0x84C87814A1F0AB72, 0x8CC702081A6439EC,
  0x90BEFFFA23631E28, 0xA4506CEBDE82BDE9, 0xBEF9A3F7B2C67915, 0xC67178F2E372532B,
  0xCA273ECEEA26619C, 0xD186B8C721C0C207, 0xEADA7DD6CDE0EB1E, 0xF57D4F7FEE6ED178,
  0x6F067AA72176FBA, 0xA637DC5A2C898A6, 0x113F9804BEF90DAE, 0x1B710B35131C471B,
  0x28DB77F523047D84, 0x32CAAB7B40C72493, 0x3C9EBE0A15C9BEBC, 0x431D67C49C100D4C,
  0x4CC5D4BECB3E42B6, 0x597F299CFC657E2A, 0x5FCB6FAB3AD6FAEC, 0x6C44198C4A475817
  ]

/-- FIPS 180-4: initial value of SHA-512. -/
def h512 : List Nat := [
  0x6A09E667F3BCC908, 0xBB67AE8584CAA73B, 0x3C6EF372FE94F82B, 0xA54FF53A5F1D36F1,
  0x510E527FADE682D1, 0x9B05688C2B3E6C1F, 0x1F83D9ABFB41BD6B, 0x5BE0CD19137E2179
  ]

/-- FIPS 180-4: initial value of SHA-384. -/
def h384 : List Nat := [
  0xCBBB9D5DC1059ED8, 0x629A292A367CD507, 0x9159015A3070DD17, 0x152FECD8F70E5939,
  0x67332667FFC00B31, 0x8EB44A8768581511, 0xDB0C2E0D64F98FA7, 0x47B5481DBEFA4FA4
  ]

/-- Rotate a `w`-bit word right. -/
def rotr (w x n : Nat) : Nat := (x >>> n) ||| ((x <<< (w - n)) % 2 ^ w)

/-- The shift amounts of a SHA-2 function: Σ0, Σ1, σ0, σ1. -/
structure ShaP where
  w  : Nat
  s0 : Nat × Nat × Nat
  s1 : Nat × Nat × Nat
  t0 : Nat × Nat × Nat
  t1 : Nat × Nat × Nat
  deriving DecidableEq, Repr

def sha256P : ShaP := ⟨32, (2, 13, 22), (6, 11, 25), (7, 18, 3), (17, 19, 10)⟩
def sha512P : ShaP := ⟨64, (28, 34, 39), (14, 18, 41), (1, 8, 7), (19, 61, 6)⟩

/-- Σ: three rotations. -/
def shaSum (w : Nat) (a : Nat × Nat × Nat) (x : Nat) : Nat := rotr w x a.1 ^^^ rotr w x a.2.1 ^^^ rotr w x a.2.2

/-- σ: two rotations and a shift. -/
def shaSig (w : Nat) (a : Nat × Nat × Nat) (x : Nat) : Nat := rotr w x a.1 ^^^ rotr w x a.2.1 ^^^ (x >>> a.2.2)

/-- The sixteen newest schedule words, oldest first, moved on by one. -/
def shaNext (p : ShaP) (ws : List Nat) : List Nat :=
  match ws with
  | w0 :: w1 :: r =>
    let w9 := r.getD 7 0
    let w14 := r.getD 12 0
    (w1 :: r) ++ [(shaSig p.w p.t1 w14 + w9 + shaSig p.w p.t0 w1 + w0) % 2 ^ p.w]
  | l => l

/-- The working variables of SHA-2. -/
structure ShaV where
  a : Nat
  b : Nat
  c : Nat
  d : Nat
  e : Nat
  f : Nat
  g : Nat
  h : Nat
  deriving DecidableEq, Repr

/-- One round. -/
def shaRound (p : ShaP) (v : ShaV) (k w : Nat) : ShaV :=
  let m := 2 ^ p.w
  let ch := (v.e &&& v.f) ^^^ ((m - 1 - v.e) &&& v.g)
  let t1 := v.h + shaSum p.w p.s1 v.e + ch + k + w
  let maj := (v.a &&& v.b) ^^^ (v.a &&& v.c) ^^^ (v.b &&& v.c)
  let t2 := shaSum p.w p.s0 v.a + maj
  ⟨(t1 + t2) % m, v.a, v.b, v.c, (v.d + t1) % m, v.e, v.f, v.g⟩

/-- All rounds over a block's schedule. -/
def shaRounds (p : ShaP) : List Nat → List Nat → ShaV → ShaV
  | [], _, v => v
  | k :: ks, ws, v => shaRounds p ks (shaNext p ws) (shaRound p v k (ws.headD 0))

/-- The compression of one block of sixteen words into the chaining value. -/
def shaBlock (p : ShaP) (ks h ws : List Nat) : List Nat :=
  let g (i : Nat) := h.getD i 0
  let v := shaRounds p ks ws ⟨g 0, g 1, g 2, g 3, g 4, g 5, g 6, g 7⟩
  let m := 2 ^ p.w
  [(g 0 + v.a) % m, (g 1 + v.b) % m, (g 2 + v.c) % m, (g 3 + v.d) % m, (g 4 + v.e) % m, (g 5 + v.f) % m,
   (g 6 + v.g) % m, (g 7 + v.h) % m]

/-- Cut octets into pieces of `n` octets; `fuel` bounds the number of pieces. -/
def pieces (n : Nat) : Nat → List Byte → List (List Byte)
  | 0, _ => []
  | _ + 1, [] => []
  | f + 1, l => l.take n :: pieces n f (l.drop n)

/-- Padding of FIPS 180-4: one bit, zeros, and the length in bits in `lenOct` octets, to blocks of `blk` octets. -/
def shaPad (blk lenOct : Nat) (m : List Byte) : List Byte :=
  let z := (blk - (m.length + 1 + lenOct) % blk) % blk
  m ++ 0x80 :: List.replicate z 0 ++ beOctets lenOct (8 * m.length)

/-- A SHA-2 digest, all words. -/
def sha2 (p : ShaP) (ks h0 : List Nat) (m : List Byte) : List Byte :=
  let wo := p.w / 8
  let padded := shaPad (16 * wo) (2 * wo) m
  let blocks := pieces (16 * wo) padded.length padded
  let h := blocks.foldl (fun h b => shaBlock p ks h ((pieces wo 16 b).map beNat)) h0
  h.flatMap (beOctets wo)

def sha256 (m : List Byte) : List Byte := sha2 sha256P k256 h256 m
def sha384 (m : List Byte) : List Byte := (sha2 sha512P k512 h384 m).take 48
def sha512 (m : List Byte) : List Byte := sha2 sha512P k512 h512 m

/-- FIPS 202: round constants of Keccak-f[1600]. -/
def keccakRc : List Nat := [
  0x1, 0x8082, 0x800000000000808A, 0x8000000080008000,
  0x808B, 0x80000001, 0x8000000080008081, 0x8000000000008009,
  0x8A, 0x88, 0x80008009, 0x8000000A,
  0x8000808B, 0x800000000000008B, 0x8000000000008089, 0x8000000000008003,
  0x8000000000008002, 0x8000000000000080, 0x800A, 0x800000008000000A,
  0x8000000080008081, 0x8000000000008080, 0x80000001, 0x8000000080008008
  ]

/-- FIPS 202: rotation offsets of ρ, lane x + 5y. -/
def keccakRot : List Nat := [0, 1, 62, 28, 27, 36, 44, 6, 55, 20, 3, 10, 43, 25, 39, 41, 45, 15, 21, 8, 18, 2, 61, 56, 14]

/-- Rotate a 64-bit lane left. -/
def rotl64 (x n : Nat) : Nat := ((x <<< n) % 2 ^ 64) ||| (x >>> (64 - n))

/-- One round of Keccak-f[1600] on 25 lanes. -/
def keccakRound (a : List Nat) (rc : Nat) : List Nat :=
  let g (i : Nat) := a.getD i 0
  let c := (List.range 5).map (fun x => g x ^^^ g (x + 5) ^^^ g (x + 10) ^^^ g (x + 15) ^^^ g (x + 20))
  let dd := (List.range 5).map (fun x => c.getD ((x + 4) % 5) 0 ^^^ rotl64 (c.getD ((x + 1) % 5) 0) 1)
  let t := (List.range 25).map (fun i => g i ^^^ dd.getD (i % 5) 0)
  -- ρ and π: lane (x, y) moves to (y, 2x + 3y); the lane that reaches (x', y') is the one at ((x' + 3y') mod 5, x')
  let b := (List.range 25).map (fun i =>
    let x := (i % 5 + 3 * (i / 5)) % 5
    let j := x + 5 * (i % 5)
    rotl64 (t.getD j 0) (keccakRot.getD j 0))
  let e := (List.range 25).map (fun i =>
    let r := i / 5 * 5
    b.getD i 0 ^^^ ((2 ^ 64 - 1 - b.getD (r + (i + 1) % 5 + 0) 0) &&& b.getD (r + (i + 2) % 5) 0))
  match e with
  | l0 :: r => (l0 ^^^ rc) :: r
  | [] => []

/-- Keccak-f[1600]. -/
def keccakF (a : List Nat) : List Nat := keccakRc.foldl keccakRound a

/-- SHA3 with a rate of `rate` octets and a digest of `n` octets. -/
def sha3 (rate n : Nat) (m : List Byte) : List Byte :=
  let z := rate - m.length % rate
  let pad : List Byte := if z = 1 then [0x86] else 0x06 :: List.replicate (z - 2) 0 ++ [0x80]
  let blocks := pieces rate (m.length + 1) (m ++ pad)
  let st := blocks.foldl (fun a b =>
    let ls := (pieces 8 25 b).map leNat
    keccakF ((List.range 25).map (fun i => a.getD i 0 ^^^ ls.getD i 0))) (List.replicate 25 0)
  (st.flatMap (leOctets 8)).take n

def sha3_256 (m : List Byte) : List Byte := sha3 136 32 m
def sha3_384 (m : List Byte) : List Byte := sha3 104 48 m
def sha3_512 (m : List Byte) : List Byte := sha3 72 64 m

/-- The hashes of `VARIANT` (R270), by code 1–6. -/
def hashBy (v : Nat) (m : List Byte) : List Byte :=
  match v with
  | 1 => sha256 m | 2 => sha384 m | 3 => sha512 m | 4 => sha3_256 m | 5 => sha3_384 m | _ => sha3_512 m

/-- Digest length of a hash, and its block size in octets. -/
def hashLen (v : Nat) : Nat := match v with | 1 => 32 | 2 => 48 | 3 => 64 | 4 => 32 | 5 => 48 | _ => 64
def hashBlock (v : Nat) : Nat := match v with | 1 => 64 | 2 => 128 | 3 => 128 | 4 => 136 | 5 => 104 | _ => 72

/-- XOR of octet strings, over the shorter. -/
def xorOct (a b : List Byte) : List Byte := List.zipWith (· ^^^ ·) a b

/-- HMAC (FIPS 198-1). -/
def hmacBy (v : Nat) (key m : List Byte) : List Byte :=
  let bl := hashBlock v
  let k := if key.length > bl then hashBy v key else key
  let k := k ++ List.replicate (bl - k.length) 0
  let ip := k.map (· ^^^ 0x36)
  let op := k.map (· ^^^ 0x5C)
  hashBy v (op ++ hashBy v (ip ++ m))

/-- HMAC-SHA-256, the code of dictionary sessions (R375, R376). -/
def hmac256 (key m : List Byte) : List Byte := hmacBy 1 key m

end Sys2Proof.Machine
end

