-- ==== Sys2Proof/Machine/Cipher.lean ====
section
/-! DEFINITION. The block ciphers the spec names (R277, R282, R286): AES of FIPS 197, its CMAC (SP 800-38B) and GCM with
96-bit IVs (SP 800-38D), and two-key and three-key TDEA. Tables are packed into numbers, octet `i` at bits 8i. -/

namespace Sys2Proof.Machine

/-- FIPS 197: the S-box, octet `i` at bits [8i + 7 : 8i]. -/
def sboxN : Nat := 0x16BB54B00F2D99416842E6BF0D89A18CDF2855CEE9871E9B948ED9691198F8E19E1DC186B95735610EF6034866B53E708A8BBD4B1F74DDE8C6B4A61C2E2578BA08AE7A65EAF4566CA94ED58D6D37C8E779E4959162ACD3C25C2406490A3A32E0DB0B5EDE14B8EE4688902A22DC4F816073195D643D7EA7C41744975FEC130CCDD2F3FF1021DAB6BCF5389D928F40A351A89F3C507F02F94585334D43FBAAEFD0CF584C4A39BECB6A5BB1FC20ED00D153842FE329B3D63B52A05A6E1B1A2C830975B227EBE28012079A059618C323C7041531D871F1E5A534CCF73F362693FDB7C072A49CAFA2D4ADF04759FA7DC982CA76ABD7FE2B670130C56F6BF27B777C63

/-- FIPS 197: the inverse S-box. -/
def isboxN : Nat := 0x7D0C2155631469E126D677BA7E042B17619953833CBBEBC8B0F52AAE4D3BE0A0EF9CC9939F7AE52D0D4AB519A97F51605FEC8027591012B131C7078833A8DD1FF45ACD78FEC0DB9A2079D2C64B3E56FC1BBE18AA0E62B76F89C5291D711AF1476EDF751CE837F9E28535ADE72274AC9673E6B4F0CECFF297EADC674F4111913A6B8A130103BDAFC1020F3FCA8F1E2CD00645B3B80558E4F70AD3BC8C00ABD890849D8DA75746155EDAB9EDFD5048706C92B6655DCC5CA4D41698688664F6F87225D18B6D49A25B76B224D92866A12E084EC3FA420B954CEE3D23C2A632947B54CBE9DEC444438E3487FF2F9B8239E37CFBD7F3819EA340BF38A53630D56A0952

def tabOct (t : Nat) (b : Byte) : Byte := BitVec.ofNat 8 (t >>> (8 * b.toNat))

/-- Multiplication by x in the AES field. -/
def xtime (b : Byte) : Byte := if b.msb then (b <<< 1) ^^^ 0x1B else b <<< 1

/-- Multiplication by a small constant in the AES field. -/
def gmulB (b : Byte) (c : Nat) : Byte :=
  let x2 := xtime b
  let x4 := xtime x2
  let x8 := xtime x4
  (if bit c 0 then b else 0) ^^^ (if bit c 1 then x2 else 0) ^^^ (if bit c 2 then x4 else 0)
    ^^^ (if bit c 3 then x8 else 0)

/-- The key schedule: further words of the expanded key, newest first in `ws`; `nk` words of key. -/
def aesExpand (nk : Nat) : Nat → Nat → Byte → List (List Byte) → List (List Byte)
  | 0, _, _, ws => ws
  | f + 1, i, rc, ws =>
    let prev := ws.headD []
    let back := ws.getD (nk - 1) []
    if i % nk = 0 then
      let r := (prev.drop 1 ++ prev.take 1).map (tabOct sboxN)
      let t := match r with | a :: q => (a ^^^ rc) :: q | [] => []
      aesExpand nk f (i + 1) (xtime rc) (xorOct back t :: ws)
    else if nk > 6 && i % nk = 4 then
      aesExpand nk f (i + 1) rc (xorOct back (prev.map (tabOct sboxN)) :: ws)
    else aesExpand nk f (i + 1) rc (xorOct back prev :: ws)

/-- The round keys, 16 octets each. -/
def aesKeys (key : List Byte) : List (List Byte) :=
  let nk := key.length / 4
  let ws0 := (pieces 4 nk key).reverse
  let ws := (aesExpand nk (4 * (nk + 7) - nk) nk 1 ws0).reverse
  pieces 16 (nk + 7) ws.flatten

/-- ShiftRows and its inverse on a state held column by column. -/
def shiftRows (s : List Byte) : List Byte := (List.range 16).map (fun i => s.getD ((i + 4 * (i % 4)) % 16) 0)
def unshiftRows (s : List Byte) : List Byte := (List.range 16).map (fun i => s.getD ((i + 12 * (i % 4)) % 16) 0)

/-- MixColumns with the row of coefficients `c`. -/
def mixCols (c : List Nat) (s : List Byte) : List Byte :=
  (List.range 16).map (fun i =>
    let col := i / 4 * 4
    (List.range 4).foldl (fun acc j => acc ^^^ gmulB (s.getD (col + j) 0) (c.getD ((j + 4 - i % 4) % 4) 0)) 0)

/-- AES encryption of a block under expanded round keys. -/
def aesEncK (ks : List (List Byte)) (b : List Byte) : List Byte :=
  match ks with
  | [] => b
  | k0 :: r =>
    let s := r.dropLast.foldl (fun s k => xorOct (mixCols [2, 3, 1, 1] (shiftRows (s.map (tabOct sboxN)))) k) (xorOct b k0)
    xorOct (shiftRows (s.map (tabOct sboxN))) (r.getLastD [])

/-- AES decryption of a block. -/
def aesDecK (ks : List (List Byte)) (b : List Byte) : List Byte :=
  match ks.reverse with
  | [] => b
  | kn :: r =>
    let s := r.dropLast.foldl (fun s k => mixCols [14, 11, 13, 9] (xorOct ((unshiftRows s).map (tabOct isboxN)) k))
      (xorOct b kn)
    xorOct ((unshiftRows s).map (tabOct isboxN)) (r.getLastD [])

def aesEnc (key b : List Byte) : List Byte := aesEncK (aesKeys key) b
def aesDec (key b : List Byte) : List Byte := aesDecK (aesKeys key) b

/-- Doubling in the field of CMAC. -/
def cmacDbl (l : List Byte) : List Byte :=
  let n := beNat l
  beOctets 16 ((2 * n) % 2 ^ 128 ^^^ (if n.testBit 127 then 0x87 else 0))

/-- AES-CMAC (SP 800-38B). -/
def cmac (key m : List Byte) : List Byte :=
  let ks := aesKeys key
  let k1 := cmacDbl (aesEncK ks (List.replicate 16 0))
  let k2 := cmacDbl k1
  let blocks := pieces 16 (m.length + 1) m
  let last := blocks.getLastD []
  let fin := if last.length = 16 then xorOct last k1
    else xorOct (last ++ 0x80 :: List.replicate (15 - last.length) 0) k2
  let c := blocks.dropLast.foldl (fun c b => aesEncK ks (xorOct c b)) (List.replicate 16 0)
  aesEncK ks (xorOct c fin)

/-- Multiplication in the field of GHASH; bit 127 of a number is the first bit of its block. -/
def gf128 : Nat → Nat → Nat → Nat → Nat
  | 0, _, _, z => z
  | i + 1, x, v, z =>
    gf128 i x ((v >>> 1) ^^^ (if v.testBit 0 then 0xE1 <<< 120 else 0)) (if x.testBit i then z ^^^ v else z)

/-- GHASH over octets already padded to whole blocks. -/
def ghash (h : Nat) (m : List Byte) : Nat :=
  (pieces 16 m.length m).foldl (fun y b => gf128 128 (y ^^^ beNat b) h 0) 0

def padTo16 (m : List Byte) : List Byte := m ++ List.replicate ((16 - m.length % 16) % 16) 0

/-- Counter mode of GCM: the key stream from counter `c` on, XORed onto octets. -/
def gctr (ks : List (List Byte)) (iv : List Byte) : Nat → List (List Byte) → List Byte
  | _, [] => []
  | c, b :: r => xorOct b (aesEncK ks (iv ++ beOctets 4 c)) ++ gctr ks iv (c + 1) r

/-- The GCM tag, 16 octets, over additional data and ciphertext. -/
def gcmTag (ks : List (List Byte)) (iv aad ct : List Byte) : List Byte :=
  let h := beNat (aesEncK ks (List.replicate 16 0))
  let s := ghash h (padTo16 aad ++ padTo16 ct ++ beOctets 8 (8 * aad.length) ++ beOctets 8 (8 * ct.length))
  xorOct (beOctets 16 s) (aesEncK ks (iv ++ [0, 0, 0, 1]))

/-- GCM sealing: ciphertext and the full tag. -/
def gcmSeal (key iv aad pt : List Byte) : List Byte × List Byte :=
  let ks := aesKeys key
  let ct := gctr ks iv 2 (pieces 16 pt.length pt)
  (ct, gcmTag ks iv aad ct)

/-- GCM opening: the plaintext, if the tag is right. -/
def gcmOpen (key iv aad ct tag : List Byte) : Option (List Byte) :=
  let ks := aesKeys key
  if (gcmTag ks iv aad ct).take tag.length = tag then some (gctr ks iv 2 (pieces 16 ct.length ct)) else none

/-! ### TDEA. Bit numbers of the tables count from 1 at the most significant bit, as FIPS 46-3 does. -/

def desIp : List Nat := [
   58, 50, 42, 34, 26, 18, 10, 2, 60, 52, 44, 36, 28, 20, 12, 4, 62, 54, 46, 38,
   30, 22, 14, 6, 64, 56, 48, 40, 32, 24, 16, 8, 57, 49, 41, 33, 25, 17, 9, 1,
   59, 51, 43, 35, 27, 19, 11, 3, 61, 53, 45, 37, 29, 21, 13, 5, 63, 55, 47, 39,
   31, 23, 15, 7]
def desE : List Nat := [
   32, 1, 2, 3, 4, 5, 4, 5, 6, 7, 8, 9, 8, 9, 10, 11, 12, 13, 12, 13,
   14, 15, 16, 17, 16, 17, 18, 19, 20, 21, 20, 21, 22, 23, 24, 25, 24, 25, 26, 27,
   28, 29, 28, 29, 30, 31, 32, 1]
def desP : List Nat := [
   16, 7, 20, 21, 29, 12, 28, 17, 1, 15, 23, 26, 5, 18, 31, 10, 2, 8, 24, 14,
   32, 27, 3, 9, 19, 13, 30, 6, 22, 11, 4, 25]
def desPc1 : List Nat := [
   57, 49, 41, 33, 25, 17, 9, 1, 58, 50, 42, 34, 26, 18, 10, 2, 59, 51, 43, 35,
   27, 19, 11, 3, 60, 52, 44, 36, 63, 55, 47, 39, 31, 23, 15, 7, 62, 54, 46, 38,
   30, 22, 14, 6, 61, 53, 45, 37, 29, 21, 13, 5, 28, 20, 12, 4]
def desPc2 : List Nat := [
   14, 17, 11, 24, 1, 5, 3, 28, 15, 6, 21, 10, 23, 19, 12, 4, 26, 8, 16, 7,
   27, 20, 13, 2, 41, 52, 31, 37, 47, 55, 30, 40, 51, 45, 33, 48, 44, 49, 39, 56,
   34, 53, 46, 42, 50, 36, 29, 32]

/-- The eight S-boxes, entry `16 × row + column` of box `i` at bits 4 × (64 i + entry). -/
def desS : Nat := 0xb65309cfd8a47e12853fda602ec914b729e0b65c473a8df17c05e39a1bf6482dc32ef0597a418db6295086fae73cdb4168f2c53ea1947b0d16a579c3d80fe2b4d80671ebaf59c2346bd1a4073c825fe983b0ed1659c724fab57e43d08629fa1c354a90f6d2e17c8be0365c9f87dab1246893af051d74c2be9e0df3586ba714c2e27cb5498d1a60f34825e31fd7bc096a9ea1c27430f65b8df4cb5821a9603ed7c25b3ef478960da17ea5c21b03f8946d1fbce582a643907d824b7cd15f36e90a9e50c76b24f31a8df2396c851d4ab7e05b96a10ce82f74d3a50cd27943b6e81fd60ae3b5719428cf05a379cfb26d8e148359bc6a1d2e47f07095c6a38bf21d4e

/-- Select bits of a `w`-bit word by a table. -/
def permute (w : Nat) (t : List Nat) (v : Nat) : Nat := t.foldl (fun a i => 2 * a + b2n (bit v (w - i))) 0

/-- The inverse of the initial permutation. -/
def desIpInv (v : Nat) : Nat := (desIp.zipIdx).foldl (fun a p => a + b2n (bit v (63 - p.2)) * 2 ^ (64 - p.1)) 0

/-- The function of a DES round. -/
def desF (r k : Nat) : Nat :=
  let x := permute 32 desE r ^^^ k
  let y := (List.range 8).foldl (fun a i =>
    let s := bits x (47 - 6 * i) (42 - 6 * i)
    let e := (2 * (s / 32) + s % 2) * 16 + s / 2 % 16
    16 * a + bits desS (4 * (64 * i + e) + 3) (4 * (64 * i + e))) 0
  permute 32 desP y

def rotl28 (v n : Nat) : Nat := (v * 2 ^ n) % 2 ^ 28 + v / 2 ^ (28 - n)

/-- The sixteen round keys of DES. -/
def desKeys (key : Nat) : List Nat :=
  let v := permute 64 desPc1 key
  ([1, 2, 4, 6, 8, 10, 12, 14, 15, 17, 19, 21, 23, 25, 27, 28].map (fun n =>
    permute 56 desPc2 (rotl28 (v / 2 ^ 28) n * 2 ^ 28 + rotl28 (v % 2 ^ 28) n)))

/-- DES over given round keys, in order for encryption and reversed for decryption. -/
def desRun (ks : List Nat) (b : Nat) : Nat :=
  let v := permute 64 desIp b
  let (l, r) := ks.foldl (fun (p : Nat × Nat) k => (p.2, p.1 ^^^ desF p.2 k)) (v / 2 ^ 32, v % 2 ^ 32)
  desIpInv (r * 2 ^ 32 + l)

/-- The three DES keys of a two-key or three-key TDEA key. -/
def tdeaParts (key : List Byte) : Nat × Nat × Nat :=
  let a := beNat (key.take 8)
  let b := beNat ((key.drop 8).take 8)
  (a, b, if key.length = 16 then a else beNat (key.drop 16))

def tdeaEnc (key b : List Byte) : List Byte :=
  let k := tdeaParts key
  beOctets 8 (desRun (desKeys k.2.2) (desRun (desKeys k.2.1).reverse (desRun (desKeys k.1) (beNat b))))
def tdeaDec (key b : List Byte) : List Byte :=
  let k := tdeaParts key
  beOctets 8 (desRun (desKeys k.1).reverse (desRun (desKeys k.2.1) (desRun (desKeys k.2.2).reverse (beNat b))))

end Sys2Proof.Machine
end

