-- ==== Sys2Proof/Machine/PubKey.lean ====
section
/-! DEFINITION. The public-key functions the spec names (R274): ECDSA of FIPS 186-5 over P-256 and P-384, Ed25519 of
RFC 8032, RSA-PSS and the EMSA-PKCS1-v1_5 check of RFC 8017. Points are Jacobian for the NIST curves and extended for
Ed25519. -/

namespace Sys2Proof.Machine

/-- `b ^ e mod m`, by the `n` low bits of `e`, most significant first. -/
def powMod (b m e : Nat) : Nat → Nat → Nat
  | 0, acc => acc
  | n + 1, acc => powMod b m e n (if e.testBit n then acc * acc % m * b % m else acc * acc % m)

/-- Modular exponentiation. -/
def modExp (b e m : Nat) : Nat := powMod (b % m) m e (Nat.log2 e + 1) (1 % m)

/-- Inverse modulo a prime. -/
def invP (p a : Nat) : Nat := modExp a (p - 2) p

/-- A short Weierstrass curve with a = −3. -/
structure Curve where
  p   : Nat
  b   : Nat
  n   : Nat
  gx  : Nat
  gy  : Nat
  len : Nat
  deriving DecidableEq, Repr

def p256 : Curve :=
  ⟨0xFFFFFFFF00000001000000000000000000000000FFFFFFFFFFFFFFFFFFFFFFFF,
   0x5AC635D8AA3A93E7B3EBBD55769886BC651D06B0CC53B0F63BCE3C3E27D2604B,
   0xFFFFFFFF00000000FFFFFFFFFFFFFFFFBCE6FAADA7179E84F3B9CAC2FC632551,
   0x6B17D1F2E12C4247F8BCE6E563A440F277037D812DEB33A0F4A13945D898C296,
   0x4FE342E2FE1A7F9B8EE7EB4A7C0F9E162BCE33576B315ECECBB6406837BF51F5, 32⟩

def p384 : Curve :=
  ⟨0xFFFFFFFFFFFFFFFFFFFFFFFFFFFFFFFFFFFFFFFFFFFFFFFFFFFFFFFFFFFFFFFEFFFFFFFF0000000000000000FFFFFFFF,
   0xB3312FA7E23EE7E4988E056BE3F82D19181D9C6EFE8141120314088F5013875AC656398D8A2ED19D2A85C8EDD3EC2AEF,
   0xFFFFFFFFFFFFFFFFFFFFFFFFFFFFFFFFFFFFFFFFFFFFFFFFC7634D81F4372DDF581A0DB248B0A77AECEC196ACCC52973,
   0xAA87CA22BE8B05378EB1C71EF320AD746E1D3B628BA79B9859F741E082542A385502F25DBF55296C3A545E3872760AB7,
   0x3617DE4A96262C6F5D9E98BF9292DC29F8F41DBD289A147CE9DA3113B5F0B8C00A60B1CE1D7E819D7A431D7C90EA0E5F, 48⟩

/-- A Jacobian point; `z` = 0 is the point at infinity. -/
structure JPt where
  x : Nat
  y : Nat
  z : Nat
  deriving DecidableEq, Repr

/-- Subtraction modulo p of reduced numbers. -/
def subM (p a b : Nat) : Nat := (a + (p - b % p)) % p

def jDouble (c : Curve) (a : JPt) : JPt :=
  let p := c.p
  if a.z = 0 || a.y = 0 then ⟨1, 1, 0⟩
  else
    let d := a.z * a.z % p
    let g := a.y * a.y % p
    let b := a.x * g % p
    let al := 3 * (subM p a.x d * ((a.x + d) % p)) % p
    let x3 := subM p (al * al % p) (8 * b % p)
    let z3 := subM p (subM p ((a.y + a.z) * (a.y + a.z) % p) g) d
    ⟨x3, subM p (al * subM p (4 * b % p) x3 % p) (8 * (g * g % p) % p), z3⟩

def jAdd (c : Curve) (a b : JPt) : JPt :=
  let p := c.p
  if a.z = 0 then b else if b.z = 0 then a
  else
    let z1 := a.z * a.z % p
    let z2 := b.z * b.z % p
    let u1 := a.x * z2 % p
    let u2 := b.x * z1 % p
    let s1 := a.y * b.z % p * z2 % p
    let s2 := b.y * a.z % p * z1 % p
    if u1 = u2 then (if s1 = s2 then jDouble c a else ⟨1, 1, 0⟩)
    else
      let h := subM p u2 u1
      let r := subM p s2 s1
      let h2 := h * h % p
      let h3 := h * h2 % p
      let v := u1 * h2 % p
      let x3 := subM p (subM p (r * r % p) h3) (2 * v % p)
      ⟨x3, subM p (r * subM p v x3 % p) (s1 * h3 % p), h * a.z % p * b.z % p⟩

/-- Scalar multiplication by the `n` low bits of `k`, most significant first. -/
def jMul (c : Curve) (k : Nat) (a : JPt) : Nat → JPt → JPt
  | 0, acc => acc
  | n + 1, acc =>
    let acc := jDouble c acc
    jMul c k a n (if k.testBit n then jAdd c acc a else acc)

def jScale (c : Curve) (k : Nat) (a : JPt) : JPt := jMul c k a (8 * c.len) ⟨1, 1, 0⟩

/-- Affine coordinates of a point that is not at infinity. -/
def jAffine (c : Curve) (a : JPt) : Nat × Nat :=
  let i := invP c.p a.z
  let i2 := i * i % c.p
  (a.x * i2 % c.p, a.y * i2 % c.p * i % c.p)

def Curve.g (c : Curve) : JPt := ⟨c.gx, c.gy, 1⟩

/-- An affine point lies on the curve. -/
def Curve.on (c : Curve) (x y : Nat) : Bool :=
  x < c.p && y < c.p && y * y % c.p == subM c.p ((x * x % c.p * x + c.b) % c.p) (3 * x % c.p)

/-- The leftmost bits of a digest as a number below 2^(8 len). -/
def hashInt (c : Curve) (h : List Byte) : Nat := beNat (h.take c.len)

/-- A public key as 0x04 ‖ x ‖ y. -/
def ecPub (c : Curve) (d : Nat) : List Byte :=
  let q := jAffine c (jScale c (d % c.n) c.g)
  0x04 :: (beOctets c.len q.1 ++ beOctets c.len q.2)

/-- ECDSA signature r ‖ s over a digest with a given nonce. -/
def ecdsaSign (c : Curve) (d k : Nat) (h : List Byte) : List Byte :=
  let r := (jAffine c (jScale c k c.g)).1 % c.n
  let s := invP c.n (k % c.n) * ((hashInt c h + r * d) % c.n) % c.n
  beOctets c.len r ++ beOctets c.len s

/-- ECDSA verification of r ‖ s over a digest under 0x04 ‖ x ‖ y. -/
def ecdsaVerify (c : Curve) (pub h sig : List Byte) : Bool :=
  let qx := beNat ((pub.drop 1).take c.len)
  let qy := beNat (pub.drop (1 + c.len))
  let r := beNat (sig.take c.len)
  let s := beNat (sig.drop c.len)
  if !(pub.length == 2 * c.len + 1 && pub.headD 0 == 4 && c.on qx qy) then false
  else if !(sig.length == 2 * c.len && 0 < r && r < c.n && 0 < s && s < c.n) then false
  else
    let w := invP c.n s
    let p := jAdd c (jScale c (hashInt c h * w % c.n) c.g) (jScale c (r * w % c.n) ⟨qx, qy, 1⟩)
    p.z != 0 && (jAffine c p).1 % c.n == r

/-! ### Ed25519 -/

def edP : Nat := 2 ^ 255 - 19
def edL : Nat := 2 ^ 252 + 27742317777372353535851937790883648493
def edD : Nat := 37095705934669439343138083508754565189542113879843219016388785533085940283555
def edI : Nat := 19681161376707505956807079304988542015446066515923890162744021073123829784752

/-- An extended Edwards point. -/
structure EPt where
  x : Nat
  y : Nat
  z : Nat
  t : Nat
  deriving DecidableEq, Repr

def edAdd (a b : EPt) : EPt :=
  let p := edP
  let aa := subM p a.y a.x * subM p b.y b.x % p
  let bb := (a.y + a.x) * (b.y + b.x) % p
  let cc := 2 * a.t % p * edD % p * b.t % p
  let dd := 2 * a.z * b.z % p
  let e := subM p bb aa
  let f := subM p dd cc
  let g := (dd + cc) % p
  let h := (bb + aa) % p
  ⟨e * f % p, g * h % p, f * g % p, e * h % p⟩

def edMul (k : Nat) (a : EPt) : Nat → EPt → EPt
  | 0, acc => acc
  | n + 1, acc =>
    let acc := edAdd acc acc
    edMul k a n (if k.testBit n then edAdd acc a else acc)

def edScale (k : Nat) (a : EPt) : EPt := edMul k a 256 ⟨0, 1, 1, 0⟩

/-- The x coordinate that belongs to `y` with the given low bit (RFC 8032, 5.1.3). -/
def edX (y : Nat) (odd : Bool) : Option Nat :=
  let p := edP
  let u := subM p (y * y % p) 1
  let v := (edD * (y * y % p) + 1) % p
  let v3 := v * v % p * v % p
  let c := u * v3 % p * modExp (u * (v3 * v3 % p * v % p) % p) ((p - 5) / 8) p % p
  let vx := v * (c * c % p) % p
  let x? := if vx = u then some c else if vx = (p - u) % p then some (c * edI % p) else none
  x?.bind (fun x => if x = 0 && odd then none else some (if (x % 2 == 1) == odd then x else (p - x) % p))

def edDecode (l : List Byte) : Option EPt :=
  let n := leNat l
  let y := n % 2 ^ 255
  if l.length != 32 || edP ≤ y then none
  else (edX y (n.testBit 255)).map (fun x => ⟨x, y, 1, x * y % edP⟩)

def edEncode (a : EPt) : List Byte :=
  let i := invP edP a.z
  let x := a.x * i % edP
  let y := a.y * i % edP
  leOctets 32 (y + x % 2 * 2 ^ 255)

/-- The base point. -/
def edB : EPt :=
  let y := 4 * invP edP 5 % edP
  let x := (edX y false).getD 0
  ⟨x, y, 1, x * y % edP⟩

/-- The secret scalar of a 32-octet seed. -/
def edClamp (h : List Byte) : Nat := leNat (h.take 32) % 2 ^ 254 / 8 * 8 + 2 ^ 254

def edPub (seed : List Byte) : List Byte := edEncode (edScale (edClamp (sha512 seed)) edB)

def edSign (seed m : List Byte) : List Byte :=
  let h := sha512 seed
  let a := edClamp h
  let pub := edEncode (edScale a edB)
  let r := leNat (sha512 (h.drop 32 ++ m)) % edL
  let rr := edEncode (edScale r edB)
  let k := leNat (sha512 (rr ++ pub ++ m)) % edL
  rr ++ leOctets 32 ((r + k * a) % edL)

def edVerify (pub m sig : List Byte) : Bool :=
  let s := leNat (sig.drop 32)
  if sig.length != 64 || edL ≤ s then false
  else match edDecode pub, edDecode (sig.take 32) with
    | some a, some r =>
      let k := leNat (sha512 (sig.take 32 ++ pub ++ m)) % edL
      let l := edScale s edB
      let q := edAdd r (edScale k a)
      l.x * q.z % edP == q.x * l.z % edP && l.y * q.z % edP == q.y * l.z % edP
    | _, _ => false

/-! ### RSA -/

/-- MGF1 under a hash of `VARIANT`'s codes. -/
def mgf1 (v : Nat) (seed : List Byte) (n : Nat) : List Byte :=
  ((List.range (n / hashLen v + 1)).flatMap (fun i => hashBy v (seed ++ beOctets 4 i))).take n

/-- EMSA-PSS encoding with a given salt, for a modulus of `bits` bits. -/
def pssEncode (v bits : Nat) (m salt : List Byte) : List Byte :=
  let emBits := bits - 1
  let emLen := (emBits + 7) / 8
  let hl := hashLen v
  let h := hashBy v (List.replicate 8 0 ++ hashBy v m ++ salt)
  let db := List.replicate (emLen - salt.length - hl - 2) 0 ++ 0x01 :: salt
  let md := xorOct db (mgf1 v h (emLen - hl - 1))
  let clear := 8 * emLen - emBits
  let md := match md with | a :: r => BitVec.ofNat 8 (a.toNat % 2 ^ (8 - clear)) :: r | [] => []
  md ++ h ++ [0xBC]

/-- EMSA-PSS verification with a salt as long as the hash. -/
def pssVerify (v bits : Nat) (m em : List Byte) : Bool :=
  let emBits := bits - 1
  let emLen := (emBits + 7) / 8
  let hl := hashLen v
  let clear := 8 * emLen - emBits
  let h := (em.drop (emLen - hl - 1)).take hl
  let md := em.take (emLen - hl - 1)
  let db := xorOct md (mgf1 v h (emLen - hl - 1))
  let db := match db with | a :: r => BitVec.ofNat 8 (a.toNat % 2 ^ (8 - clear)) :: r | [] => []
  let ps := emLen - hl - hl - 2
  em.length == emLen && em.getLastD 0 == 0xBC && (md.headD 0).toNat < 2 ^ (8 - clear)
    && db.take ps == List.replicate ps 0 && (db.drop ps).headD 0 == 0x01
    && hashBy v (List.replicate 8 0 ++ hashBy v m ++ db.drop (ps + 1)) == h

/-- The DigestInfo prefixes of RFC 8017 for the six hashes. -/
def digestInfo (v : Nat) : List Byte :=
  let o : Byte := match v with | 1 => 1 | 2 => 2 | 3 => 3 | 4 => 8 | 5 => 9 | _ => 10
  let n := hashLen v
  [0x30, BitVec.ofNat 8 (n + 17), 0x30, 0x0D, 0x06, 0x09, 0x60, 0x86, 0x48, 0x01, 0x65, 0x03, 0x04, 0x02, o, 0x05,
   0x00, 0x04, BitVec.ofNat 8 n]

/-- EMSA-PKCS1-v1_5 encoding. -/
def v15Encode (v len : Nat) (m : List Byte) : List Byte :=
  let t := digestInfo v ++ hashBy v m
  [0x00, 0x01] ++ List.replicate (len - t.length - 3) 0xFF ++ 0x00 :: t

/-- RSA public operation to an encoding of `len` octets. -/
def rsaPub (n e len : Nat) (sig : List Byte) : List Byte := beOctets len (modExp (beNat sig) e n)

end Sys2Proof.Machine
end

