-- ==== Sys2Proof/Config.lean ====
section
/-! DEFINITION. What an implementation fixes and the spec leaves open: constants without a body. Nothing in this package
can evaluate them or prove a value of them; a claim about a machine holds whatever they are. -/

namespace Sys2Proof

/-- Free octets: random draws, unspecified contents. Applied to the state's counter of free values. -/
opaque Config.freeOctet : Nat → Byte

/-- Free numbers: results the spec does not state. Applied to the state's counter of free values. -/
opaque Config.freeNat : Nat → Nat

/-- The contents of the mask ROM (R358), by address. -/
opaque Config.maskRom : Nat → Byte

/-- The firmware verification public key in the mask ROM (R364), P-384, *X* then *Y*, by octet. -/
opaque Config.fwKey : Nat → Byte

/-- The version of the firmware image that the device leaves the factory with. -/
opaque Config.fwFactory : Nat

/-- The 9-bit `CHECK` of a lock entry (R231), by the entry's other 151 bits: the spec gives no code. -/
opaque Config.lockCheck : Nat → Nat

/-- What a customer logic function answers (R157): by function number, first operand and the counter of free values. -/
opaque Config.customerLogic : Nat → Nat → Nat → Nat

/-- The TAP instruction of an instruction register code (R443): 0 BYPASS, 1 SAMPLE/PRELOAD, 2 EXTEST, 3 IDCODE. -/
opaque Config.tapCode : Nat → Nat

/-- The manufacturer code of the TAP's IDCODE (R443). -/
opaque Config.jedecCode : Nat

end Sys2Proof
end

