-- ==== Sys2Proof/Machine/Dict.lean ====
section
/-! DEFINITION. The object dictionary's tables (R52, R77, R104, R126, R146, R241, R268, R294, R318, R339, R357, R386,
R407, R421, R441): every object with its indices, sub-indices, type (R377's codes), width, access rights and default,
one line per table row, taken from those tables. Also the lookups by index and sub-index. -/

namespace Sys2Proof.Machine

/-- One row of an object table. Indices `lo`, `lo + step`, … up to `hiX` on FY-840X and `hiS` on FY-840S; sub-indices
`slo` to `shiX` or `shiS`; type code of R377; width in bits; rights as in R377's `DIR_DESC` [7:0]; the two defaults. -/
structure ORow where
  lo    : Nat
  hiX   : Nat
  hiS   : Nat
  step  : Nat
  slo   : Nat
  shiX  : Nat
  shiS  : Nat
  kind  : Nat
  width : Nat
  acc   : Nat
  dx    : Nat
  ds    : Nat
  deriving DecidableEq, Repr

/-- Objects of range 0x1nnn. -/
def rows1a : List ORow := [
  ⟨0x1000, 0x1000, 0x1000, 1, 0x01, 0x01, 0x01, 1, 8, 0xAA, 0, 0⟩, -- CONFIG (R386)
  ⟨0x1000, 0x1000, 0x1000, 1, 0x02, 0x02, 0x02, 1, 8, 0xAA, 0, 0⟩, -- GRADE (R386)
  ⟨0x1000, 0x1000, 0x1000, 1, 0x03, 0x03, 0x03, 2, 16, 0xAA, 0, 0⟩, -- SILICON_REV (R386)
  ⟨0x1000, 0x1000, 0x1000, 1, 0x04, 0x04, 0x04, 9, 128, 0xAA, 0, 0⟩, -- SERIAL (R386)
  ⟨0x1000, 0x1000, 0x1000, 1, 0x05, 0x05, 0x05, 9, 48, 0xAA, 0, 0⟩, -- MAC_BASE (R386)
  ⟨0x1000, 0x1000, 0x1000, 1, 0x06, 0x06, 0x06, 3, 32, 0xAA, 0, 0⟩, -- FW_VERSION (R386)
  ⟨0x1000, 0x1000, 0x1000, 1, 0x07, 0x07, 0x07, 2, 16, 0xAA, 0, 0⟩, -- ROLLBACK_COUNTER (R386)
  ⟨0x1010, 0x1010, 0x1010, 1, 0x01, 0x01, 0x01, 1, 8, 0x15, 0, 0⟩, -- STORE_CMD (R386)
  ⟨0x1010, 0x1010, 0x1010, 1, 0x02, 0x02, 0x02, 1, 8, 0xAA, 0, 0⟩, -- STORE_STATUS (R386)
  ⟨0x1010, 0x1010, 0x1010, 1, 0x03, 0x03, 0x03, 7, 8, 0xBF, 0, 0⟩, -- RESTORE_AT_RESET (R386)
  ⟨0x1100, 0x1100, 0x1100, 1, 0x01, 0x01, 0x01, 8, 8, 0xAA, 0, 0⟩, -- RING_STATE (R386)
  ⟨0x1100, 0x1100, 0x1100, 1, 0x02, 0x02, 0x02, 1, 8, 0xBB, 128, 128⟩, -- MASTER_PRIORITY (R386)
  ⟨0x1100, 0x1100, 0x1100, 1, 0x03, 0x03, 0x03, 9, 64, 0xAA, 0, 0⟩, -- MASTER_ID (R386)
  ⟨0x1100, 0x1100, 0x1100, 1, 0x04, 0x04, 0x04, 6, 64, 0xAA, 0, 0⟩, -- RING_FRAMES (R386)
  ⟨0x1100, 0x1100, 0x1100, 1, 0x05, 0x05, 0x05, 6, 64, 0xAA, 0, 0⟩, -- RING_CRC_ERRORS (R386)
  ⟨0x1100, 0x1100, 0x1100, 1, 0x06, 0x06, 0x06, 6, 64, 0xAA, 0, 0⟩, -- RING_DUPLICATES (R386)
  ⟨0x1100, 0x1100, 0x1100, 1, 0x07, 0x07, 0x07, 6, 64, 0xAA, 0, 0⟩, -- RING_BREAKS (R386)
  ⟨0x1100, 0x1100, 0x1100, 1, 0x08, 0x08, 0x08, 6, 64, 0xAA, 0, 0⟩, -- ELECTIONS (R386)
  ⟨0x1200, 0x1200, 0x1200, 1, 0x01, 0x01, 0x01, 1, 8, 0xAA, 0, 0⟩, -- SESSIONS_OPEN (R386)
  ⟨0x1200, 0x1200, 0x1200, 1, 0x02, 0x02, 0x02, 6, 64, 0xAA, 0, 0⟩, -- PROOF_FAILURES (R386)
  ⟨0x1200, 0x1200, 0x1200, 1, 0x03, 0x03, 0x03, 6, 64, 0xAA, 0, 0⟩, -- MAC_DISCARDS (R386)
  ⟨0x1200, 0x1200, 0x1200, 1, 0x04, 0x04, 0x04, 6, 64, 0xAA, 0, 0⟩, -- LOCKOUTS (R386)
  ⟨0x1F00, 0x1F00, 0x1F00, 1, 0x01, 0x01, 0x01, 2, 16, 0xFF, 0, 0⟩, -- DIR_INDEX (R386)
  ⟨0x1F00, 0x1F00, 0x1F00, 1, 0x02, 0x02, 0x02, 1, 8, 0xFF, 0, 0⟩, -- DIR_SUB (R386)
  ⟨0x1F00, 0x1F00, 0x1F00, 1, 0x03, 0x03, 0x03, 1, 8, 0xAA, 0, 0⟩, -- DIR_SUBS (R386)
  ⟨0x1F00, 0x1F00, 0x1F00, 1, 0x04, 0x04, 0x04, 8, 64, 0xAA, 0, 0⟩ -- DIR_DESC (R386)
  ]

/-- Objects of range 0x2nnn. -/
def rows2a : List ORow := [
  ⟨0x2000, 0x2000, 0x2000, 1, 0x01, 0x01, 0x01, 3, 32, 0xAA, 0x2000000, 0x800000⟩, -- OVF_CAPACITY (R77)
  ⟨0x2000, 0x2000, 0x2000, 1, 0x02, 0x02, 0x02, 3, 32, 0xAA, 0, 0⟩, -- OVF_RESERVED (R77)
  ⟨0x2000, 0x2000, 0x2000, 1, 0x03, 0x03, 0x03, 3, 32, 0xAA, 0, 0⟩, -- OVF_IN_USE (R77)
  ⟨0x2000, 0x2000, 0x2000, 1, 0x04, 0x04, 0x04, 3, 32, 0xAA, 0, 0⟩, -- OVF_LEAKED (R77)
  ⟨0x2000, 0x2000, 0x2000, 1, 0x05, 0x05, 0x05, 3, 32, 0xBB, 0x200000, 0x80000⟩, -- LOW_WATERMARK (R77)
  ⟨0x2000, 0x2000, 0x2000, 1, 0x06, 0x06, 0x06, 3, 32, 0xBB, 0x400000, 0x100000⟩, -- HIGH_WATERMARK (R77)
  ⟨0x2000, 0x2000, 0x2000, 1, 0x07, 0x07, 0x07, 7, 8, 0xAA, 0, 0⟩, -- MATCH_OPEN (R77)
  ⟨0x2000, 0x2000, 0x2000, 1, 0x08, 0x08, 0x08, 6, 64, 0xAA, 0, 0⟩, -- MATCH_CLOSURES (R77)
  ⟨0x2001, 0x2001, 0x2001, 1, 0x01, 0x01, 0x01, 3, 32, 0xBB, 40, 40⟩, -- COLD_AGE_US (R77)
  ⟨0x2001, 0x2001, 0x2001, 1, 0x02, 0x02, 0x02, 1, 8, 0xAA, 16, 16⟩, -- PROBES_MAX (R77)
  ⟨0x2001, 0x2001, 0x2001, 1, 0x03, 0x03, 0x03, 3, 32, 0xBB, 0x10000, 16384⟩, -- LEAK_FAULT_LEVEL (R77)
  ⟨0x2002, 0x2002, 0x2002, 1, 0x01, 0x01, 0x01, 6, 64, 0xAA, 0, 0⟩, -- ONDIE_JOINS (R77)
  ⟨0x2002, 0x2002, 0x2002, 1, 0x02, 0x02, 0x02, 6, 64, 0xAA, 0, 0⟩, -- ONDIE_COMPLETIONS (R77)
  ⟨0x2002, 0x2002, 0x2002, 1, 0x03, 0x03, 0x03, 6, 64, 0xAA, 0, 0⟩, -- ONDIE_CREATES (R77)
  ⟨0x2002, 0x2002, 0x2002, 1, 0x04, 0x04, 0x04, 6, 64, 0xAA, 0, 0⟩, -- OVF_PROBES (R77)
  ⟨0x2002, 0x2002, 0x2002, 1, 0x05, 0x05, 0x05, 6, 64, 0xAA, 0, 0⟩, -- OVF_HITS (R77)
  ⟨0x2002, 0x2002, 0x2002, 1, 0x06, 0x06, 0x06, 6, 64, 0xAA, 0, 0⟩, -- WRITEBACKS (R77)
  ⟨0x2002, 0x2002, 0x2002, 1, 0x07, 0x07, 0x07, 6, 64, 0xAA, 0, 0⟩, -- COLD_WRITEBACKS (R77)
  ⟨0x2002, 0x2002, 0x2002, 1, 0x08, 0x08, 0x08, 6, 64, 0xAA, 0, 0⟩, -- DUPLICATE_ARRIVALS (R77)
  ⟨0x2002, 0x2002, 0x2002, 1, 0x09, 0x09, 0x09, 6, 64, 0xAA, 0, 0⟩, -- STALE_ENTRIES_FREED (R77)
  ⟨0x2002, 0x2002, 0x2002, 1, 0x0A, 0x0A, 0x0A, 6, 64, 0xAA, 0, 0⟩, -- ENTRY_CORRECTED (R77)
  ⟨0x2002, 0x2002, 0x2002, 1, 0x0B, 0x0B, 0x0B, 6, 64, 0xAA, 0, 0⟩, -- ENTRY_UNCORRECTABLE (R77)
  ⟨0x2002, 0x2002, 0x2002, 1, 0x0C, 0x0C, 0x0C, 6, 64, 0xAA, 0, 0⟩, -- RECLAIMED (R77)
  ⟨0x2002, 0x2002, 0x2002, 1, 0x0D, 0x0D, 0x0D, 6, 64, 0xAA, 0, 0⟩, -- LINK_REFUSED (R77)
  ⟨0x2002, 0x2002, 0x2002, 1, 0x0E, 0x0E, 0x0E, 6, 64, 0xAA, 0, 0⟩, -- PARTITION_BORROWS (R77)
  ⟨0x2002, 0x2002, 0x2002, 1, 0x0F, 0x0F, 0x0F, 6, 64, 0xAA, 0, 0⟩, -- PROBE_WAITS (R77)
  ⟨0x2003, 0x2003, 0x2003, 1, 0x01, 0x04, 0x01, 3, 32, 0xAA, 0x800000, 0x800000⟩, -- PARTITION_FREE (R77)
  ⟨0x2100, 0x2100, 0x2100, 1, 0x01, 0x01, 0x01, 6, 64, 0xAA, 0, 0⟩, -- POOL_EXHAUSTED_DROPS (R126)
  ⟨0x2101, 0x2101, 0x2101, 1, 0x01, 0x01, 0x01, 6, 64, 0xAA, 0, 0⟩, -- NOC_ESCAPES (R126)
  ⟨0x2101, 0x2101, 0x2101, 1, 0x02, 0x02, 0x02, 3, 32, 0xAA, 2000, 2000⟩, -- NOC_ESCAPE_NS (R126)
  ⟨0x2101, 0x2101, 0x2101, 1, 0x03, 0x03, 0x03, 6, 64, 0xAA, 0, 0⟩, -- NOC_ESCAPES_LINK (R126)
  ⟨0x2102, 0x2102, 0x2102, 1, 0x01, 0x01, 0x01, 6, 64, 0xAA, 0, 0⟩, -- LOCK_WAITS (R126)
  ⟨0x2102, 0x2102, 0x2102, 1, 0x02, 0x02, 0x02, 6, 64, 0xAA, 0, 0⟩, -- LOCK_CYCLES (R126)
  ⟨0x2102, 0x2102, 0x2102, 1, 0x03, 0x03, 0x03, 6, 64, 0xAA, 0, 0⟩, -- LOCK_VICTIMS (R126)
  ⟨0x2102, 0x2102, 0x2102, 1, 0x04, 0x04, 0x04, 6, 64, 0xAA, 0, 0⟩, -- LOCK_DEEP_REFUSALS (R126)
  ⟨0x2102, 0x2102, 0x2102, 1, 0x05, 0x05, 0x05, 6, 64, 0xAA, 0, 0⟩, -- LOCK_NO_SLOT (R126)
  ⟨0x2102, 0x2102, 0x2102, 1, 0x06, 0x06, 0x06, 2, 16, 0xBB, 64, 64⟩, -- WFG_WALK_LIMIT (R126)
  ⟨0x2102, 0x2102, 0x2102, 1, 0x07, 0x07, 0x07, 2, 16, 0xAA, 0, 0⟩, -- WFG_LONGEST_WALK (R126)
  ⟨0x2102, 0x2102, 0x2102, 1, 0x08, 0x08, 0x08, 6, 64, 0xAA, 0, 0⟩, -- LOCK_SECOND_REQUEST (R126)
  ⟨0x2103, 0x2103, 0x2103, 1, 0x01, 0x01, 0x01, 6, 64, 0xAA, 0, 0⟩, -- PI_RAISES (R126)
  ⟨0x2103, 0x2103, 0x2103, 1, 0x02, 0x02, 0x02, 6, 64, 0xAA, 0, 0⟩, -- PI_LOWERINGS (R126)
  ⟨0x2104, 0x2104, 0x2104, 1, 0x01, 0x01, 0x01, 3, 32, 0xAA, 2000, 2000⟩, -- STALL_WINDOW_NS (R126)
  ⟨0x2104, 0x2104, 0x2104, 1, 0x02, 0x02, 0x02, 6, 64, 0xAA, 0, 0⟩, -- FABRIC_STALLS (R126)
  ⟨0x2105, 0x2105, 0x2105, 1, 0x01, 0x04, 0x01, 8, 34, 0xAA, 0, 0⟩, -- STALL_CLUSTERS (R126)
  ⟨0x2106, 0x2106, 0x2106, 1, 0x01, 0x01, 0x01, 6, 64, 0xAA, 0, 0⟩, -- PURGES (R126)
  ⟨0x2106, 0x2106, 0x2106, 1, 0x02, 0x02, 0x02, 6, 64, 0xAA, 0, 0⟩, -- PURGES_AT_FALLBACK (R126)
  ⟨0x2106, 0x2106, 0x2106, 1, 0x03, 0x03, 0x03, 6, 64, 0xAA, 0, 0⟩, -- PURGES_ORPHANING (R126)
  ⟨0x2106, 0x2106, 0x2106, 1, 0x04, 0x04, 0x04, 6, 64, 0xAA, 0, 0⟩, -- LOCKS_ORPHANED (R126)
  ⟨0x2107, 0x2107, 0x2107, 1, 0x01, 0x01, 0x01, 6, 64, 0xAA, 0, 0⟩, -- LOOPB_HOLDS (R126)
  ⟨0x2120, 0x2120, 0x2120, 1, 0x01, 0x01, 0x01, 3, 32, 0x11, 0, 0⟩, -- FORCE_STANDIN (R126)
  ⟨0x2120, 0x2120, 0x2120, 1, 0x02, 0x02, 0x02, 6, 64, 0xAA, 0, 0⟩, -- FORCED_STANDINS (R126)
  ⟨0x2120, 0x2120, 0x2120, 1, 0x03, 0x03, 0x03, 6, 64, 0xAA, 0, 0⟩, -- FORCE_IGNORED (R126)
  ⟨0x2200, 0x2200, 0x2200, 1, 0x01, 0x01, 0x01, 6, 64, 0xAA, 0, 0⟩, -- FIRINGS (R104)
  ⟨0x2200, 0x2200, 0x2200, 1, 0x02, 0x02, 0x02, 2, 16, 0xAA, 2048, 512⟩, -- CELLS_IN_SERVICE (R104)
  ⟨0x2201, 0x2201, 0x2201, 1, 0x01, 0x88, 0x22, 6, 64, 0xAA, 0, 0⟩, -- CLUSTER_FIRINGS (R104)
  ⟨0x2202, 0x2202, 0x2202, 1, 0x01, 0x01, 0x01, 6, 64, 0xAA, 0, 0⟩, -- UNMAPPED_NODE_TOKENS (R104)
  ⟨0x2202, 0x2202, 0x2202, 1, 0x02, 0x02, 0x02, 6, 64, 0xAA, 0, 0⟩, -- PI_SIGNALS (R104)
  ⟨0x2202, 0x2202, 0x2202, 1, 0x03, 0x03, 0x03, 6, 64, 0xAA, 0, 0⟩, -- PI_PROMOTED (R104)
  ⟨0x2202, 0x2202, 0x2202, 1, 0x04, 0x04, 0x04, 6, 64, 0xAA, 0, 0⟩, -- PI_IN_MIDDLE (R104)
  ⟨0x2202, 0x2202, 0x2202, 1, 0x05, 0x05, 0x05, 6, 64, 0xAA, 0, 0⟩ -- CODE_RELOADS (R104)
  ]

/-- Objects of range 0x2nnn. -/
def rows2b : List ORow := [
  ⟨0x2202, 0x2202, 0x2202, 1, 0x06, 0x06, 0x06, 6, 64, 0xAA, 0, 0⟩, -- FRAME_WAITS (R104)
  ⟨0x2300, 0x2300, 0x2300, 1, 0x01, 0x01, 0x01, 4, 40, 0xAA, 0x7ff000000, 0x1ffc00000⟩, -- SPILL_CAPACITY (R104)
  ⟨0x2300, 0x2300, 0x2300, 1, 0x02, 0x02, 0x02, 4, 40, 0xAA, 0, 0⟩, -- SPILL_RESERVED (R104)
  ⟨0x2300, 0x2300, 0x2300, 1, 0x03, 0x03, 0x03, 4, 40, 0xAA, 0, 0⟩, -- SPILL_IN_USE (R104)
  ⟨0x2300, 0x2300, 0x2300, 1, 0x04, 0x04, 0x04, 4, 40, 0xBB, 0x80000000, 0x20000000⟩, -- SPILL_LOW_WATERMARK (R104)
  ⟨0x2300, 0x2300, 0x2300, 1, 0x05, 0x05, 0x05, 4, 40, 0xBB, 0x100000000, 0x40000000⟩, -- SPILL_HIGH_WATERMARK (R104)
  ⟨0x2300, 0x2300, 0x2300, 1, 0x06, 0x06, 0x06, 7, 8, 0xAA, 0, 0⟩, -- SPILL_OPEN (R104)
  ⟨0x2301, 0x2301, 0x2301, 1, 0x01, 0x01, 0x01, 3, 32, 0xBB, 4096, 4096⟩, -- RQ_HIGH_WATERMARK (R104)
  ⟨0x2301, 0x2301, 0x2301, 1, 0x02, 0x02, 0x02, 3, 32, 0xBB, 1024, 1024⟩, -- RQ_LOW_WATERMARK (R104)
  ⟨0x2301, 0x2301, 0x2301, 1, 0x03, 0x03, 0x03, 6, 64, 0xAA, 0, 0⟩, -- RQ_WATERMARK_CLOSURES (R104)
  ⟨0x2301, 0x2301, 0x2301, 1, 0x04, 0x04, 0x04, 6, 64, 0xAA, 0, 0⟩, -- RQ_FIRINGS_LOST (R104)
  ⟨0x2310, 0x2317, 0x2317, 1, 0x01, 0x88, 0x22, 3, 32, 0xAA, 0, 0⟩, -- RQ_FILL (R104)
  ⟨0x2318, 0x2318, 0x2318, 1, 0x01, 0x88, 0x22, 8, 16, 0xBB, 0, 0⟩, -- RQ_STATUS (R104)
  ⟨0x2400, 0x2400, 0x2400, 1, 0x01, 0x88, 0x22, 2, 16, 0xAA, 0, 0⟩, -- PACE_MEASURED (R104)
  ⟨0x2401, 0x2401, 0x2401, 1, 0x01, 0x01, 0x01, 6, 64, 0xAA, 0, 0⟩, -- PACE_SHORTFALLS (R104)
  ⟨0x2401, 0x2401, 0x2401, 1, 0x02, 0x02, 0x02, 2, 16, 0xAA, 65535, 65535⟩, -- PACE_LOWEST (R104)
  ⟨0x2500, 0x2500, 0x2500, 1, 0x01, 0x01, 0x01, 2, 16, 0xAA, 2048, 2048⟩, -- CODE_LINES (R104)
  ⟨0x2501, 0x2501, 0x2501, 1, 0x01, 0x88, 0x22, 2, 16, 0xAA, 0, 0⟩, -- CODE_LINES_USED (R104)
  ⟨0x2800, 0x2800, 0x2800, 1, 0x01, 0x01, 0x01, 6, 64, 0xAA, 0, 0⟩, -- CTX_ALLOCATED (R52)
  ⟨0x2800, 0x2800, 0x2800, 1, 0x02, 0x02, 0x02, 3, 32, 0xAA, 0, 0⟩, -- CTX_ACTIVE (R52)
  ⟨0x2800, 0x2800, 0x2800, 1, 0x03, 0x03, 0x03, 3, 32, 0xAA, 0, 0⟩, -- CTX_PARKED (R52)
  ⟨0x2800, 0x2800, 0x2800, 1, 0x04, 0x04, 0x04, 3, 32, 0xAA, 0x1000000, 0x1000000⟩, -- FREE_QUEUE_LEN (R52)
  ⟨0x2801, 0x2801, 0x2801, 1, 0x01, 0x01, 0x01, 6, 64, 0xAA, 0, 0⟩, -- STALE_AT_ROUTER (R52)
  ⟨0x2801, 0x2801, 0x2801, 1, 0x02, 0x02, 0x02, 6, 64, 0xAA, 0, 0⟩, -- STALE_AT_MATCH (R52)
  ⟨0x2801, 0x2801, 0x2801, 1, 0x03, 0x03, 0x03, 6, 64, 0xAA, 0, 0⟩, -- STALE_AT_CELL (R52)
  ⟨0x2801, 0x2801, 0x2801, 1, 0x04, 0x04, 0x04, 6, 64, 0xAA, 0, 0⟩, -- STALE_FRAME_WRITES (R52)
  ⟨0x2801, 0x2801, 0x2801, 1, 0x05, 0x05, 0x05, 6, 64, 0xAA, 0, 0⟩, -- MALFORMED_TOKENS (R52)
  ⟨0x2802, 0x2802, 0x2802, 1, 0x01, 0x01, 0x01, 6, 64, 0xAA, 0, 0⟩, -- CHECK_CORRECTED (R52)
  ⟨0x2802, 0x2802, 0x2802, 1, 0x02, 0x02, 0x02, 6, 64, 0xAA, 0, 0⟩, -- CHECK_UNCORRECTABLE (R52)
  ⟨0x2802, 0x2802, 0x2802, 1, 0x03, 0x03, 0x03, 6, 64, 0xAA, 0, 0⟩, -- EXC_UNHANDLED (R52)
  ⟨0x2803, 0x2803, 0x2803, 1, 0x01, 0x01, 0x01, 2, 16, 0xBB, 256, 256⟩, -- FRAME_RESUME_LINES (R52)
  ⟨0x2803, 0x2803, 0x2803, 1, 0x02, 0x02, 0x02, 6, 64, 0xAA, 0, 0⟩, -- FRAME_WRITEBACKS (R52)
  ⟨0x2803, 0x2803, 0x2803, 1, 0x03, 0x03, 0x03, 6, 64, 0xAA, 0, 0⟩ -- FRAME_FETCHES (R52)
  ]

/-- Objects of range 0x3nnn. -/
def rows3a : List ORow := [
  ⟨0x3000, 0x3000, 0x3000, 1, 0x01, 0x01, 0x01, 7, 8, 0xBB, 0, 0⟩, -- KEYWAY_ENABLE (R146)
  ⟨0x3000, 0x3000, 0x3000, 1, 0x02, 0x02, 0x02, 6, 64, 0xAA, 0, 0⟩, -- ACCEPTED (R146)
  ⟨0x3000, 0x3000, 0x3000, 1, 0x03, 0x03, 0x03, 6, 64, 0xAA, 0, 0⟩, -- REJECTED (R146)
  ⟨0x3000, 0x3000, 0x3000, 1, 0x04, 0x04, 0x04, 6, 64, 0xAA, 0, 0⟩, -- REPLIES_ROUTED (R146)
  ⟨0x3000, 0x3000, 0x3000, 1, 0x05, 0x05, 0x05, 6, 64, 0xAA, 0, 0⟩, -- LATE_DECISIONS (R146)
  ⟨0x3000, 0x3000, 0x3000, 1, 0x06, 0x06, 0x06, 3, 32, 0xAA, 0, 0⟩, -- MAX_LATENESS_NS (R146)
  ⟨0x3000, 0x3000, 0x3000, 1, 0x07, 0x07, 0x07, 6, 64, 0xAA, 0, 0⟩, -- REJECTS_UNDELIVERABLE (R146)
  ⟨0x3001, 0x3001, 0x3001, 1, 0x01, 0x01, 0x01, 2, 16, 0xAA, 1000, 1000⟩, -- GUARANTEED_PACE (R146)
  ⟨0x3001, 0x3001, 0x3001, 1, 0x02, 0x02, 0x02, 2, 16, 0xAA, 850, 850⟩, -- DERATING_GUARD (R146)
  ⟨0x3002, 0x3002, 0x3002, 1, 0x01, 0x01, 0x01, 2, 16, 0xBB, 1024, 256⟩, -- SYM_BUDGET (R146)
  ⟨0x3002, 0x3002, 0x3002, 1, 0x02, 0x02, 0x02, 2, 16, 0xBB, 512, 128⟩, -- TUMBLER_BUDGET (R146)
  ⟨0x3002, 0x3002, 0x3002, 1, 0x03, 0x03, 0x03, 3, 32, 0xBB, 0x10000, 16384⟩, -- LOCK_BUDGET (R146)
  ⟨0x3002, 0x3002, 0x3002, 1, 0x04, 0x06, 0x06, 3, 32, 0xAA, 0, 0⟩, -- COMMITTED (R146)
  ⟨0x3010, 0x3010, 0x3010, 1, 0x01, 0x10, 0x10, 6, 64, 0xAA, 0, 0⟩, -- REJECTS_BY_REASON (R146)
  ⟨0x3020, 0x3020, 0x3020, 1, 0x01, 0x88, 0x22, 2, 16, 0xAA, 0, 0⟩, -- CREDITED_PACE (R146)
  ⟨0x3030, 0x3037, 0x3037, 1, 0x01, 0x88, 0x22, 4, 40, 0xAA, 0, 0⟩, -- BACKLOG (R146)
  ⟨0x3040, 0x3040, 0x3040, 1, 0x01, 0x01, 0x01, 3, 32, 0xAA, 0, 0⟩, -- TIMERS_ARMED (R146)
  ⟨0x3040, 0x3040, 0x3040, 1, 0x02, 0x02, 0x02, 6, 64, 0xAA, 0, 0⟩, -- DEADLINE_MOVES (R146)
  ⟨0x3040, 0x3040, 0x3040, 1, 0x03, 0x03, 0x03, 6, 64, 0xAA, 0, 0⟩, -- DEADLINE_TOKENS (R146)
  ⟨0x3040, 0x3040, 0x3040, 1, 0x04, 0x04, 0x04, 6, 64, 0xAA, 0, 0⟩, -- FALLBACKS (R146)
  ⟨0x3040, 0x3040, 0x3040, 1, 0x05, 0x05, 0x05, 2, 16, 0xAA, 448, 448⟩, -- BUCKET_CAPACITY (R146)
  ⟨0x3040, 0x3040, 0x3040, 1, 0x06, 0x06, 0x06, 6, 64, 0xAA, 0, 0⟩, -- FORWARD_REFUSED (R146)
  ⟨0x3100, 0x31FF, 0x31FF, 1, 0x01, 0x01, 0x01, 9, 512, 0xAA, 0, 0⟩, -- TPL_RECORD (R146)
  ⟨0x3100, 0x31FF, 0x31FF, 1, 0x02, 0x02, 0x02, 7, 8, 0xAA, 0, 0⟩, -- TPL_USABLE (R146)
  ⟨0x3100, 0x31FF, 0x31FF, 1, 0x03, 0x03, 0x03, 4, 40, 0xAA, 0, 0⟩, -- TPL_CHARGE (R146)
  ⟨0x3100, 0x31FF, 0x31FF, 1, 0x04, 0x04, 0x04, 3, 32, 0xAA, 0, 0⟩, -- TPL_ALLOWANCE_NS (R146)
  ⟨0x3100, 0x31FF, 0x31FF, 1, 0x05, 0x05, 0x05, 7, 8, 0xBB, 1, 1⟩, -- TPL_ENABLE (R146)
  ⟨0x3100, 0x31FF, 0x31FF, 1, 0x06, 0x06, 0x06, 6, 64, 0xAA, 0, 0⟩, -- TPL_ACCEPTED (R146)
  ⟨0x3100, 0x31FF, 0x31FF, 1, 0x07, 0x07, 0x07, 6, 64, 0xAA, 0, 0⟩, -- TPL_REJECTED (R146)
  ⟨0x3300, 0x3300, 0x3300, 1, 0x01, 0x01, 0x01, 2, 16, 0xBB, 0, 0⟩, -- SEL_PARTNER (R146)
  ⟨0x3300, 0x3300, 0x3300, 1, 0x02, 0x41, 0x41, 8, 64, 0xBB, 0, 0⟩ -- SEL_ENTRY (R146)
  ]

/-- Objects of range 0x4nnn. -/
def rows4a : List ORow := [
  ⟨0x4000, 0x4000, 0x4000, 1, 0x01, 0x01, 0x01, 3, 32, 0xAA, 0, 0⟩, -- SESSIONS_OPEN (R268)
  ⟨0x4000, 0x4000, 0x4000, 1, 0x02, 0x02, 0x02, 6, 64, 0xAA, 0, 0⟩, -- HANDSHAKES (R268)
  ⟨0x4000, 0x4000, 0x4000, 1, 0x03, 0x03, 0x03, 6, 64, 0xAA, 0, 0⟩, -- HANDSHAKE_FAILURES (R268)
  ⟨0x4000, 0x4000, 0x4000, 1, 0x04, 0x04, 0x04, 3, 32, 0xAA, 20000, 5000⟩, -- HS_RATE (R268)
  ⟨0x4000, 0x4000, 0x4000, 1, 0x05, 0x05, 0x05, 2, 16, 0xAA, 0, 0⟩, -- HS_QUEUED (R268)
  ⟨0x4000, 0x4000, 0x4000, 1, 0x06, 0x06, 0x06, 6, 64, 0xAA, 0, 0⟩, -- HS_REFUSED (R268)
  ⟨0x4000, 0x4000, 0x4000, 1, 0x07, 0x07, 0x07, 3, 32, 0xBB, 1000, 1000⟩, -- SES_RETRY_MS (R268)
  ⟨0x4000, 0x4000, 0x4000, 1, 0x08, 0x08, 0x08, 2, 16, 0xBB, 0, 0⟩, -- KEEPALIVE_S (R268)
  ⟨0x4001, 0x4001, 0x4001, 1, 0x01, 0x01, 0x01, 2, 16, 0xBB, 0, 0⟩, -- SES_SELECT (R268)
  ⟨0x4001, 0x4001, 0x4001, 1, 0x02, 0x02, 0x02, 8, 64, 0xBB, 0, 0⟩, -- SES_CONFIG (R268)
  ⟨0x4001, 0x4001, 0x4001, 1, 0x03, 0x03, 0x03, 9, 128, 0xBB, 0, 0⟩, -- SES_REMOTE_ADDR (R268)
  ⟨0x4001, 0x4001, 0x4001, 1, 0x04, 0x04, 0x04, 1, 8, 0xAA, 0, 0⟩, -- SES_STATE (R268)
  ⟨0x4001, 0x4001, 0x4001, 1, 0x05, 0x05, 0x05, 1, 8, 0x11, 0, 0⟩, -- SES_CONTROL (R268)
  ⟨0x4001, 0x4001, 0x4001, 1, 0x06, 0x06, 0x06, 6, 64, 0xAA, 0, 0⟩, -- SES_RX_MSGS (R268)
  ⟨0x4001, 0x4001, 0x4001, 1, 0x07, 0x07, 0x07, 6, 64, 0xAA, 0, 0⟩, -- SES_TX_MSGS (R268)
  ⟨0x4001, 0x4001, 0x4001, 1, 0x08, 0x08, 0x08, 6, 64, 0xAA, 0, 0⟩, -- SES_DISCARDS (R268)
  ⟨0x4001, 0x4001, 0x4001, 1, 0x09, 0x09, 0x09, 6, 64, 0xAA, 0, 0⟩, -- SES_HEARTBEATS (R268)
  ⟨0x4001, 0x4001, 0x4001, 1, 0x0A, 0x0A, 0x0A, 6, 64, 0xAA, 0, 0⟩, -- SES_INGRESS_LOST (R268)
  ⟨0x4002, 0x4002, 0x4002, 1, 0x01, 0x01, 0x01, 2, 16, 0xBB, 0, 0⟩, -- PTR_SELECT (R268)
  ⟨0x4002, 0x4002, 0x4002, 1, 0x02, 0x02, 0x02, 8, 64, 0xBB, 0, 0⟩, -- PTR_CONFIG (R268)
  ⟨0x4010, 0x401F, 0x401F, 1, 0x01, 0x01, 0x01, 8, 64, 0xAF, 0x3fc7080000, 0x3fc7080000⟩, -- TLS_PROFILE (R268)
  ⟨0x4020, 0x4020, 0x4020, 1, 0x01, 0x01, 0x01, 7, 8, 0xBB, 0, 0⟩, -- INGRESS_ENABLE (R268)
  ⟨0x4020, 0x4020, 0x4020, 1, 0x02, 0x09, 0x05, 1, 8, 0xBB, 0, 0⟩, -- PORT_FC_MODE (R268)
  ⟨0x4100, 0x41FF, 0x41FF, 1, 0x01, 0x01, 0x01, 7, 8, 0xBB, 0, 0⟩, -- IN_ENABLE (R268)
  ⟨0x4100, 0x41FF, 0x41FF, 1, 0x02, 0x02, 0x02, 3, 32, 0xBB, 0x20000, 32768⟩, -- IN_MIDDLE_LIMIT (R268)
  ⟨0x4100, 0x41FF, 0x41FF, 1, 0x03, 0x03, 0x03, 3, 32, 0xBB, 0x18000, 24576⟩, -- IN_HIGH_WM (R268)
  ⟨0x4100, 0x41FF, 0x41FF, 1, 0x04, 0x04, 0x04, 3, 32, 0xBB, 32768, 8192⟩, -- IN_LOW_WM (R268)
  ⟨0x4100, 0x41FF, 0x41FF, 1, 0x05, 0x05, 0x05, 3, 32, 0xBB, 0x10000, 0x10000⟩, -- CUT_THROUGH (R268)
  ⟨0x4100, 0x41FF, 0x41FF, 1, 0x06, 0x06, 0x06, 1, 8, 0xBB, 3, 3⟩, -- PFC_PRI (R268)
  ⟨0x4100, 0x41FF, 0x41FF, 1, 0x07, 0x07, 0x07, 1, 8, 0xBB, 0, 0⟩, -- XOFF_GROUP (R268)
  ⟨0x4100, 0x41FF, 0x41FF, 1, 0x08, 0x08, 0x08, 3, 32, 0xAA, 0, 0⟩, -- IN_FILL (R268)
  ⟨0x4100, 0x41FF, 0x41FF, 1, 0x09, 0x09, 0x09, 8, 8, 0xBB, 0, 0⟩, -- IN_STATUS (R268)
  ⟨0x4100, 0x41FF, 0x41FF, 1, 0x0A, 0x0A, 0x0A, 6, 64, 0xAA, 0, 0⟩, -- IN_MARK_LOST (R268)
  ⟨0x4200, 0x42FF, 0x42FF, 1, 0x01, 0x01, 0x01, 7, 8, 0xBB, 0, 0⟩, -- EG_ENABLE (R268)
  ⟨0x4200, 0x42FF, 0x42FF, 1, 0x02, 0x02, 0x02, 3, 32, 0xBB, 0x20000, 32768⟩, -- EG_MIDDLE_LIMIT (R268)
  ⟨0x4200, 0x42FF, 0x42FF, 1, 0x03, 0x03, 0x03, 3, 32, 0xBB, 0x18000, 24576⟩, -- EG_HIGH_WM (R268)
  ⟨0x4200, 0x42FF, 0x42FF, 1, 0x04, 0x04, 0x04, 3, 32, 0xBB, 32768, 8192⟩, -- EG_LOW_WM (R268)
  ⟨0x4200, 0x42FF, 0x42FF, 1, 0x08, 0x08, 0x08, 3, 32, 0xAA, 0, 0⟩, -- EG_FILL (R268)
  ⟨0x4200, 0x42FF, 0x42FF, 1, 0x09, 0x09, 0x09, 8, 8, 0xBB, 0, 0⟩, -- EG_STATUS (R268)
  ⟨0x4300, 0x4300, 0x4300, 1, 0x01, 0x01, 0x01, 1, 8, 0xAA, 32, 8⟩, -- LEXERS (R268)
  ⟨0x4300, 0x4300, 0x4300, 1, 0x02, 0x02, 0x02, 6, 64, 0xAA, 0, 0⟩, -- FIELD_TOKENS (R268)
  ⟨0x4300, 0x4300, 0x4300, 1, 0x03, 0x07, 0x07, 6, 64, 0xAA, 0, 0⟩, -- INGRESS_ERRORS (R268)
  ⟨0x4400, 0x443F, 0x443F, 1, 0x01, 0x01, 0x01, 8, 64, 0xAA, 0, 0⟩, -- FMT_HEADER (R268)
  ⟨0x4400, 0x443F, 0x443F, 1, 0x02, 0x02, 0x02, 7, 8, 0xAA, 0, 0⟩, -- FMT_ACTIVE (R268)
  ⟨0x4500, 0x4500, 0x4500, 1, 0x01, 0x01, 0x01, 6, 64, 0xAA, 0, 0⟩, -- COMPOSED (R268)
  ⟨0x4500, 0x4500, 0x4500, 1, 0x02, 0x02, 0x02, 6, 64, 0xAA, 0, 0⟩, -- NOT_SENT (R268)
  ⟨0x4500, 0x4500, 0x4500, 1, 0x03, 0x03, 0x03, 6, 64, 0xAA, 0, 0⟩, -- UNDELIVERABLE (R268)
  ⟨0x4500, 0x4500, 0x4500, 1, 0x04, 0x04, 0x04, 6, 64, 0xAA, 0, 0⟩ -- COMPOSER_MACS (R268)
  ]

/-- Objects of range 0x5nnn. -/
def rows5a : List ORow := [
  ⟨0x5000, 0x5000, 0x5000, 1, 0x01, 0x01, 0x01, 1, 8, 0xAA, 0, 0⟩, -- KEYRING_STATE (R294)
  ⟨0x5000, 0x5000, 0x5000, 1, 0x02, 0x02, 0x02, 3, 32, 0xAA, 0, 0⟩, -- KEYS_INSTALLED (R294)
  ⟨0x5000, 0x5000, 0x5000, 1, 0x03, 0x03, 0x03, 6, 64, 0xAA, 0, 0⟩, -- KEY_CACHE_MISSES (R294)
  ⟨0x5000, 0x5000, 0x5000, 1, 0x04, 0x04, 0x04, 1, 8, 0x04, 0, 0⟩, -- MASTER_KEY_CMD (R294)
  ⟨0x5001, 0x5001, 0x5001, 1, 0x01, 0x01, 0x01, 2, 16, 0xBF, 1, 1⟩, -- KEY_SELECT (R294)
  ⟨0x5001, 0x5001, 0x5001, 1, 0x02, 0x02, 0x02, 8, 64, 0xAA, 0, 0⟩, -- KEY_ATTR (R294)
  ⟨0x5001, 0x5001, 0x5001, 1, 0x03, 0x03, 0x03, 9, 40, 0xAA, 0, 0⟩, -- KEY_CHECK (R294)
  ⟨0x5001, 0x5001, 0x5001, 1, 0x04, 0x04, 0x04, 9, 8192, 0xAA, 0, 0⟩, -- KEY_PUBLIC (R294)
  ⟨0x5001, 0x5001, 0x5001, 1, 0x05, 0x05, 0x05, 1, 8, 0x04, 0, 0⟩, -- KEY_DELETE (R294)
  ⟨0x5002, 0x5002, 0x5002, 1, 0x01, 0x01, 0x01, 9, 65536, 0x04, 0, 0⟩, -- IMPORT_BLOCK (R294)
  ⟨0x5002, 0x5002, 0x5002, 1, 0x02, 0x02, 0x02, 2, 16, 0x04, 0, 0⟩, -- IMPORT_HANDLE (R294)
  ⟨0x5002, 0x5002, 0x5002, 1, 0x03, 0x03, 0x03, 2, 16, 0x04, 0, 0⟩, -- IMPORT_KBPK (R294)
  ⟨0x5002, 0x5002, 0x5002, 1, 0x04, 0x04, 0x04, 1, 8, 0x0C, 0, 0⟩, -- IMPORT_CMD (R294)
  ⟨0x5003, 0x5003, 0x5003, 1, 0x01, 0x01, 0x01, 2, 16, 0x0C, 0, 0⟩, -- EXPORT_HANDLE (R294)
  ⟨0x5003, 0x5003, 0x5003, 1, 0x02, 0x02, 0x02, 2, 16, 0x0C, 0, 0⟩, -- EXPORT_KBPK (R294)
  ⟨0x5003, 0x5003, 0x5003, 1, 0x03, 0x03, 0x03, 1, 8, 0x0C, 0, 0⟩, -- EXPORT_CMD (R294)
  ⟨0x5003, 0x5003, 0x5003, 1, 0x04, 0x04, 0x04, 9, 65536, 0x0C, 0, 0⟩, -- EXPORT_BLOCK (R294)
  ⟨0x5004, 0x5004, 0x5004, 1, 0x01, 0x01, 0x01, 9, 256, 0x04, 0, 0⟩, -- COMPONENT (R294)
  ⟨0x5004, 0x5004, 0x5004, 1, 0x02, 0x02, 0x02, 9, 40, 0x08, 0, 0⟩, -- COMPONENT_CHECK (R294)
  ⟨0x5005, 0x5005, 0x5005, 1, 0x01, 0x01, 0x01, 8, 64, 0x0C, 0, 0⟩, -- GEN_ATTR (R294)
  ⟨0x5005, 0x5005, 0x5005, 1, 0x02, 0x02, 0x02, 2, 16, 0x0C, 0, 0⟩, -- GEN_HANDLE (R294)
  ⟨0x5005, 0x5005, 0x5005, 1, 0x03, 0x03, 0x03, 1, 8, 0x0C, 0, 0⟩, -- GEN_CMD (R294)
  ⟨0x5010, 0x5010, 0x5010, 1, 0x01, 0x01, 0x01, 7, 8, 0xAE, 0, 0⟩, -- MESH_ENABLE (R294)
  ⟨0x5010, 0x5010, 0x5010, 1, 0x02, 0x02, 0x02, 1, 8, 0x04, 0, 0⟩, -- ZEROIZE (R294)
  ⟨0x5010, 0x5010, 0x5010, 1, 0x03, 0x03, 0x03, 3, 32, 0xAA, 0, 0⟩, -- ZEROIZATIONS (R294)
  ⟨0x5010, 0x5010, 0x5010, 1, 0x04, 0x04, 0x04, 1, 8, 0xAA, 0, 0⟩, -- LAST_TRIGGER (R294)
  ⟨0x5020, 0x5020, 0x5020, 1, 0x01, 0x01, 0x01, 8, 8, 0xAA, 15, 15⟩, -- DRBG_STATE (R294)
  ⟨0x5020, 0x5020, 0x5020, 1, 0x02, 0x02, 0x02, 6, 64, 0xAA, 0, 0⟩, -- ENTROPY_FAILURES (R294)
  ⟨0x5020, 0x5020, 0x5020, 1, 0x03, 0x03, 0x03, 1, 8, 0x01, 0, 0⟩, -- DRBG_RESTART (R294)
  ⟨0x5030, 0x5030, 0x5030, 1, 0x01, 0x01, 0x01, 6, 64, 0xAA, 0, 0⟩, -- TUMBLER_CALLS (R294)
  ⟨0x5030, 0x5030, 0x5030, 1, 0x02, 0x02, 0x02, 6, 64, 0xAA, 0, 0⟩, -- TUMBLER_WAITS (R294)
  ⟨0x5031, 0x5031, 0x5031, 1, 0x01, 0x01, 0x01, 6, 64, 0xAA, 0, 0⟩, -- LANE_CALLS (R294)
  ⟨0x5031, 0x5031, 0x5031, 1, 0x02, 0x02, 0x02, 6, 64, 0xAA, 0, 0⟩, -- LANE_WAITS (R294)
  ⟨0x5031, 0x5031, 0x5031, 1, 0x03, 0x03, 0x03, 6, 64, 0xAA, 0, 0⟩, -- RECORD_OCTETS (R294)
  ⟨0x5032, 0x5032, 0x5032, 1, 0x01, 0x09, 0x09, 6, 64, 0xAA, 0, 0⟩, -- CALL_FAILURES (R294)
  ⟨0x5033, 0x5033, 0x5033, 1, 0x01, 0x01, 0x01, 6, 64, 0xAA, 0, 0⟩ -- VERIFY_FAILS (R294)
  ]

/-- Objects of range 0x6nnn. -/
def rows6a : List ORow := [
  ⟨0x6000, 0x6000, 0x6000, 1, 0x01, 0x01, 0x01, 3, 32, 0xAA, 0x30000, 49152⟩, -- HBM_MIB (R241)
  ⟨0x6000, 0x6000, 0x6000, 1, 0x02, 0x10, 0x10, 3, 32, 0xAA, 0, 0⟩, -- REGION_MIB (R241)
  ⟨0x6003, 0x6003, 0x6003, 1, 0x01, 0x01, 0x01, 3, 32, 0xAA, 0x1fc000, 0x58000⟩, -- STRUCT_BANKS (R241)
  ⟨0x6010, 0x6010, 0x6010, 1, 0x01, 0x01, 0x01, 6, 64, 0xAA, 0, 0⟩, -- MEM_ACCESSES (R241)
  ⟨0x6010, 0x6010, 0x6010, 1, 0x02, 0x02, 0x02, 6, 64, 0xAA, 0, 0⟩, -- MEM_CORRECTED (R241)
  ⟨0x6010, 0x6010, 0x6010, 1, 0x03, 0x03, 0x03, 6, 64, 0xAA, 0, 0⟩, -- MEM_POISONED (R241)
  ⟨0x6010, 0x6010, 0x6010, 1, 0x04, 0x04, 0x04, 6, 64, 0xAA, 0, 0⟩, -- MEM_POISON_HITS (R241)
  ⟨0x6011, 0x6011, 0x6011, 1, 0x01, 0x01, 0x01, 6, 64, 0xAA, 0, 0⟩, -- CAL_STALLS (R241)
  ⟨0x6020, 0x6020, 0x6020, 1, 0x01, 0x01, 0x01, 2, 16, 0xAA, 16384, 4096⟩, -- DEFER_ENTRIES (R241)
  ⟨0x6020, 0x6020, 0x6020, 1, 0x02, 0x02, 0x02, 2, 16, 0xAA, 0, 0⟩, -- DEFER_IN_USE (R241)
  ⟨0x6020, 0x6020, 0x6020, 1, 0x03, 0x03, 0x03, 6, 64, 0xAA, 0, 0⟩, -- DEFER_FULL (R241)
  ⟨0x6020, 0x6020, 0x6020, 1, 0x04, 0x04, 0x04, 6, 64, 0xAA, 0, 0⟩, -- DEFER_SWEPT (R241)
  ⟨0x6030, 0x6030, 0x6030, 1, 0x01, 0x01, 0x01, 6, 64, 0xAA, 0, 0⟩, -- BIT_CACHE_HITS (R241)
  ⟨0x6030, 0x6030, 0x6030, 1, 0x02, 0x02, 0x02, 6, 64, 0xAA, 0, 0⟩, -- BIT_CACHE_MISSES (R241)
  ⟨0x6100, 0x613F, 0x613F, 1, 0x01, 0x10, 0x10, 9, 128, 0xAA, 0, 0⟩, -- WINDOW (R241)
  ⟨0x6200, 0x623F, 0x623F, 1, 0x01, 0x04, 0x04, 6, 64, 0xAA, 0, 0⟩, -- VIOLATIONS (R241)
  ⟨0x6200, 0x623F, 0x623F, 1, 0x05, 0x05, 0x05, 6, 64, 0xAA, 0, 0⟩, -- attachment violations (R8, R158, log 84)
  ⟨0x6300, 0x6300, 0x6300, 1, 0x01, 0x01, 0x01, 3, 32, 0xAA, 0x100000, 0x40000⟩, -- LOCK_ENTRIES (R241)
  ⟨0x6300, 0x6300, 0x6300, 1, 0x02, 0x02, 0x02, 3, 32, 0xAA, 0, 0⟩, -- LOCK_ENTRIES_USED (R241)
  ⟨0x6300, 0x6300, 0x6300, 1, 0x03, 0x03, 0x03, 3, 32, 0xAA, 0x10000, 16384⟩, -- WAITER_SLOTS (R241)
  ⟨0x6300, 0x6300, 0x6300, 1, 0x04, 0x04, 0x04, 3, 32, 0xAA, 0, 0⟩, -- WAITER_SLOTS_USED (R241)
  ⟨0x6300, 0x6300, 0x6300, 1, 0x05, 0x05, 0x05, 3, 32, 0xAA, 0, 0⟩, -- REQUESTS_QUEUED (R241)
  ⟨0x6300, 0x6300, 0x6300, 1, 0x06, 0x06, 0x06, 6, 64, 0xAA, 0, 0⟩, -- GRANTS (R241)
  ⟨0x6300, 0x6300, 0x6300, 1, 0x07, 0x07, 0x07, 6, 64, 0xAA, 0, 0⟩, -- NO_ROOM (R241)
  ⟨0x6300, 0x6300, 0x6300, 1, 0x08, 0x08, 0x08, 3, 32, 0xAA, 0, 0⟩, -- LONGEST_SCAN (R241)
  ⟨0x6300, 0x6300, 0x6300, 1, 0x09, 0x09, 0x09, 6, 64, 0xAA, 0, 0⟩, -- LOCK_OPS (R241)
  ⟨0x6300, 0x6300, 0x6300, 1, 0x0A, 0x0A, 0x0A, 6, 64, 0xAA, 0, 0⟩, -- STALE_LOCK_REQUESTS (R241)
  ⟨0x6300, 0x6300, 0x6300, 1, 0x0B, 0x0B, 0x0B, 7, 8, 0xAA, 0, 0⟩, -- LOCK_TABLE_LOW (R241)
  ⟨0x6301, 0x6301, 0x6301, 1, 0x01, 0x01, 0x01, 3, 32, 0xAA, 0, 0⟩, -- ORPHANS (R241)
  ⟨0x6301, 0x6301, 0x6301, 1, 0x02, 0x02, 0x02, 3, 32, 0xBF, 0, 0⟩, -- ORPHAN_CURSOR (R241)
  ⟨0x6301, 0x6301, 0x6301, 1, 0x03, 0x03, 0x03, 9, 160, 0xAA, 0, 0⟩, -- ORPHAN_ENTRY (R241)
  ⟨0x6301, 0x6301, 0x6301, 1, 0x04, 0x04, 0x04, 6, 64, 0xAA, 0, 0⟩, -- ORPHANS_FROM_RESET (R241)
  ⟨0x6310, 0x6310, 0x6310, 1, 0x01, 0x01, 0x01, 4, 40, 0x04, 0, 0⟩, -- ORPHAN_BREAK (R241)
  ⟨0x6310, 0x6310, 0x6310, 1, 0x02, 0x02, 0x02, 6, 64, 0xAA, 0, 0⟩, -- BREAKS (R241)
  ⟨0x6310, 0x6310, 0x6310, 1, 0x03, 0x03, 0x03, 6, 64, 0xAA, 0, 0⟩ -- BREAKS_REFUSED (R241)
  ]

/-- Objects of range 0x7nnn. -/
def rows7a : List ORow := [
  ⟨0x7000, 0x7000, 0x7000, 1, 0x01, 0x01, 0x01, 6, 64, 0xAA, 0, 0⟩, -- JNL_RECORDS (R318)
  ⟨0x7000, 0x7000, 0x7000, 1, 0x02, 0x02, 0x02, 3, 32, 0xAA, 0x1000000, 0x400000⟩, -- JNL_CAPACITY (R318)
  ⟨0x7000, 0x7000, 0x7000, 1, 0x03, 0x03, 0x03, 3, 32, 0xAA, 0, 0⟩, -- JNL_UNEXPORTED (R318)
  ⟨0x7000, 0x7000, 0x7000, 1, 0x04, 0x04, 0x04, 3, 32, 0xBB, 0x100000, 0x40000⟩, -- JNL_MARGIN (R318)
  ⟨0x7000, 0x7000, 0x7000, 1, 0x05, 0x05, 0x05, 7, 8, 0xAA, 1, 1⟩, -- JNL_OPEN (R318)
  ⟨0x7000, 0x7000, 0x7000, 1, 0x06, 0x06, 0x06, 6, 64, 0xAA, 0, 0⟩, -- JNL_CLOSURES (R318)
  ⟨0x7000, 0x7000, 0x7000, 1, 0x07, 0x07, 0x07, 6, 64, 0xAA, 0, 0⟩, -- JNL_SUPPRESSED (R318)
  ⟨0x7000, 0x7000, 0x7000, 1, 0x08, 0x08, 0x08, 1, 8, 0xBB, 0, 0⟩, -- JNL_EXPORT_MODE (R318)
  ⟨0x7000, 0x7000, 0x7000, 1, 0x09, 0x09, 0x09, 2, 16, 0xBB, 0, 0⟩, -- JNL_SESSION (R318)
  ⟨0x7000, 0x7000, 0x7000, 1, 0x0A, 0x0A, 0x0A, 6, 64, 0xAA, 0, 0⟩, -- JNL_EPOCH (R318)
  ⟨0x7001, 0x7001, 0x7001, 1, 0x01, 0x10, 0x10, 6, 64, 0xAA, 0, 0⟩, -- LANE_SEQ (R318)
  ⟨0x7010, 0x7010, 0x7010, 1, 0x01, 0x01, 0x01, 6, 64, 0xAA, 0, 0⟩, -- CKPT_LAST (R318)
  ⟨0x7010, 0x7010, 0x7010, 1, 0x02, 0x02, 0x02, 3, 32, 0xBB, 1000, 1000⟩, -- CKPT_INTERVAL_MS (R318)
  ⟨0x7010, 0x7010, 0x7010, 1, 0x03, 0x03, 0x03, 1, 8, 0x11, 0, 0⟩, -- CKPT_REQUEST (R318)
  ⟨0x7010, 0x7010, 0x7010, 1, 0x04, 0x04, 0x04, 6, 64, 0xFF, 0, 0⟩, -- CKPT_SELECT (R318)
  ⟨0x7010, 0x7010, 0x7010, 1, 0x05, 0x05, 0x05, 9, 8704, 0xAA, 0, 0⟩, -- CKPT_DATA (R318)
  ⟨0x7020, 0x7020, 0x7020, 1, 0x01, 0x01, 0x01, 9, 776, 0xAA, 0, 0⟩, -- JNL_PUBKEY (R318)
  ⟨0x7020, 0x7020, 0x7020, 1, 0x02, 0x02, 0x02, 9, 16384, 0xAA, 0, 0⟩, -- JNL_CERT (R318)
  ⟨0x7100, 0x7100, 0x7100, 1, 0x01, 0x01, 0x01, 1, 8, 0xAA, 0, 0⟩, -- TB_QUALITY (R318)
  ⟨0x7100, 0x7100, 0x7100, 1, 0x02, 0x02, 0x02, 1, 8, 0xBB, 0, 0⟩, -- TB_SOURCE (R318)
  ⟨0x7100, 0x7100, 0x7100, 1, 0x03, 0x03, 0x03, 1, 8, 0xBB, 0, 0⟩, -- REFCLK_FREQ (R318)
  ⟨0x7100, 0x7100, 0x7100, 1, 0x04, 0x04, 0x04, 10, 80, 0xAA, 0, 0⟩, -- TAI_NOW (R318)
  ⟨0x7100, 0x7100, 0x7100, 1, 0x05, 0x05, 0x05, 6, 64, 0x11, 0, 0⟩, -- TAI_SET (R318)
  ⟨0x7100, 0x7100, 0x7100, 1, 0x06, 0x06, 0x06, 5, 40, 0x11, 0, 0⟩, -- TAI_SLEW_NS (R318)
  ⟨0x7100, 0x7100, 0x7100, 1, 0x07, 0x07, 0x07, 5, 40, 0xBB, 0, 0⟩, -- PPS_IN_OFFSET_NS (R318)
  ⟨0x7100, 0x7100, 0x7100, 1, 0x08, 0x08, 0x08, 8, 2, 0xBB, 3, 3⟩, -- PPS_OUT_ENABLE (R318)
  ⟨0x7100, 0x7100, 0x7100, 1, 0x09, 0x09, 0x09, 5, 40, 0xBB, 0, 0⟩, -- PPS_OUT_OFFSET_NS (R318)
  ⟨0x7100, 0x7100, 0x7100, 1, 0x0A, 0x0A, 0x0A, 3, 32, 0xBB, 100, 100⟩, -- PPS_OUT_WIDTH_US (R318)
  ⟨0x7100, 0x7100, 0x7100, 1, 0x0B, 0x0B, 0x0B, 7, 8, 0xBB, 1, 1⟩, -- PPS_HOLDOVER (R318)
  ⟨0x7100, 0x7100, 0x7100, 1, 0x0C, 0x0C, 0x0C, 5, 40, 0xAA, 0, 0⟩, -- PHASE_ERROR_PS (R318)
  ⟨0x7100, 0x7100, 0x7100, 1, 0x0D, 0x0D, 0x0D, 3, 32, 0xAA, 0, 0⟩, -- HOLDOVER_S (R318)
  ⟨0x7100, 0x7100, 0x7100, 1, 0x0E, 0x0E, 0x0E, 6, 64, 0xAA, 0, 0⟩, -- STEPS_REFUSED (R318)
  ⟨0x7200, 0x7200, 0x7200, 1, 0x01, 0x01, 0x01, 1, 8, 0xBB, 0, 0⟩, -- PTP_ROLE (R318)
  ⟨0x7200, 0x7200, 0x7200, 1, 0x02, 0x02, 0x02, 8, 8, 0xBB, 0, 0⟩, -- PTP_PORTS (R318)
  ⟨0x7200, 0x7200, 0x7200, 1, 0x03, 0x03, 0x03, 1, 8, 0xBB, 0, 0⟩, -- PTP_SLAVE_PORT (R318)
  ⟨0x7200, 0x7200, 0x7200, 1, 0x04, 0x04, 0x04, 8, 8, 0xBB, 0, 0⟩, -- PTP_P2P (R318)
  ⟨0x7200, 0x7200, 0x7200, 1, 0x05, 0x05, 0x05, 1, 8, 0xBB, 0, 0⟩, -- PTP_TRANSPORT (R318)
  ⟨0x7200, 0x7200, 0x7200, 1, 0x06, 0x06, 0x06, 1, 8, 0xBB, 0, 0⟩, -- PTP_DOMAIN (R318)
  ⟨0x7200, 0x7200, 0x7200, 1, 0x07, 0x07, 0x07, 1, 8, 0xBB, 128, 128⟩, -- PTP_PRIORITY1 (R318)
  ⟨0x7200, 0x7200, 0x7200, 1, 0x08, 0x08, 0x08, 1, 8, 0xBB, 128, 128⟩, -- PTP_PRIORITY2 (R318)
  ⟨0x7200, 0x7200, 0x7200, 1, 0x09, 0x09, 0x09, 1, 8, 0xBB, 4, 4⟩, -- PTP_SYNC_CODE (R318)
  ⟨0x7200, 0x7200, 0x7200, 1, 0x0A, 0x0A, 0x0A, 7, 8, 0xBB, 0, 0⟩, -- PTP_TWO_STEP (R318)
  ⟨0x7300, 0x7300, 0x7300, 1, 0x01, 0x01, 0x01, 7, 8, 0xAA, 0, 0⟩, -- RING_TIME_MASTER (R318)
  ⟨0x7300, 0x7300, 0x7300, 1, 0x02, 0x02, 0x02, 2, 16, 0xAA, 0, 0⟩, -- RING_HOPS (R318)
  ⟨0x7300, 0x7300, 0x7300, 1, 0x03, 0x03, 0x03, 3, 32, 0xAA, 1600, 1600⟩ -- RING_ERROR_BOUND_PS (R318)
  ]

/-- Objects of range 0x8nnn. -/
def rows8a : List ORow := [
  ⟨0x8000, 0x8000, 0x8000, 1, 0x01, 0x01, 0x01, 8, 4, 0xAA, 0, 0⟩, -- ROUTE_EPOCH (R339)
  ⟨0x8000, 0x8000, 0x8000, 1, 0x02, 0x02, 0x02, 1, 8, 0x11, 0, 0⟩, -- ROUTE_SWAP (R339)
  ⟨0x8000, 0x8000, 0x8000, 1, 0x03, 0x03, 0x03, 1, 8, 0xAA, 0, 0⟩, -- SWAP_STATE (R339)
  ⟨0x8000, 0x8000, 0x8000, 1, 0x04, 0x04, 0x04, 6, 64, 0xAA, 0, 0⟩, -- SWAPS (R339)
  ⟨0x8000, 0x8000, 0x8000, 1, 0x05, 0x05, 0x05, 6, 64, 0xAA, 0, 0⟩, -- SWAPS_REFUSED (R339)
  ⟨0x8000, 0x8000, 0x8000, 1, 0x06, 0x06, 0x06, 2, 16, 0xAA, 0, 0⟩, -- SWAP_CHANGED (R339)
  ⟨0x8000, 0x8000, 0x8000, 1, 0x07, 0x07, 0x07, 6, 64, 0xAA, 0, 0⟩, -- SWAP_HELD (R339)
  ⟨0x8001, 0x8001, 0x8001, 1, 0x01, 0x01, 0x01, 2, 16, 0xBB, 0, 0⟩, -- RT_ROUTER (R339)
  ⟨0x8001, 0x8001, 0x8001, 1, 0x02, 0x02, 0x02, 1, 8, 0xBB, 0, 0⟩, -- RT_INDEX (R339)
  ⟨0x8001, 0x8001, 0x8001, 1, 0x03, 0x03, 0x03, 8, 16, 0xBB, 65520, 65520⟩, -- RT_SHADOW (R339)
  ⟨0x8001, 0x8001, 0x8001, 1, 0x04, 0x04, 0x04, 8, 16, 0xAA, 65520, 65520⟩, -- RT_ACTIVE (R339)
  ⟨0x8002, 0x8002, 0x8002, 1, 0x01, 0x01, 0x01, 2, 16, 0xBB, 0, 0⟩, -- PLACE_INDEX (R339)
  ⟨0x8002, 0x8002, 0x8002, 1, 0x02, 0x02, 0x02, 8, 32, 0xAB, 0, 0⟩, -- PLACE_ENTRY (R339)
  ⟨0x8002, 0x8002, 0x8002, 1, 0x03, 0x03, 0x03, 3, 32, 0xBB, 0, 0⟩, -- HOME_CTX (R339)
  ⟨0x8002, 0x8002, 0x8002, 1, 0x04, 0x04, 0x04, 8, 8, 0xAA, 0, 0⟩, -- HOME_ENTRY (R339)
  ⟨0x8010, 0x8010, 0x8010, 1, 0x01, 0x88, 0x22, 8, 8, 0xAA, 0, 0⟩, -- POSITION_STATE (R339)
  ⟨0x8020, 0x8020, 0x8020, 1, 0x01, 0x01, 0x01, 2, 16, 0x11, 0, 0⟩, -- DOMAIN_CMD (R339)
  ⟨0x8020, 0x8020, 0x8020, 1, 0x02, 0x02, 0x02, 6, 64, 0xAA, 0, 0⟩, -- DOMAIN_REFUSED (R339)
  ⟨0x8020, 0x8020, 0x8020, 1, 0x03, 0x03, 0x03, 2, 16, 0xAA, 5, 5⟩, -- DOMAIN_DRAIN_US (R339)
  ⟨0x8030, 0x8030, 0x8030, 1, 0x01, 0x01, 0x01, 6, 64, 0xAA, 0, 0⟩, -- PARK_RECEIVED (R339)
  ⟨0x8030, 0x8030, 0x8030, 1, 0x02, 0x02, 0x02, 6, 64, 0xAA, 0, 0⟩, -- PARK_REPLAYED (R339)
  ⟨0x8030, 0x8030, 0x8030, 1, 0x03, 0x03, 0x03, 6, 64, 0xAA, 0, 0⟩, -- PARK_LOST (R339)
  ⟨0x8030, 0x8030, 0x8030, 1, 0x04, 0x04, 0x04, 4, 40, 0xAA, 0, 0⟩, -- PARK_IN_USE (R339)
  ⟨0x8030, 0x8030, 0x8030, 1, 0x05, 0x05, 0x05, 6, 64, 0xAA, 0, 0⟩, -- DRAIN_MOVES (R339)
  ⟨0x8040, 0x8040, 0x8040, 1, 0x01, 0x01, 0x01, 6, 64, 0xAA, 0, 0⟩, -- FLITS (R339)
  ⟨0x8040, 0x8040, 0x8040, 1, 0x02, 0x02, 0x02, 6, 64, 0xAA, 0, 0⟩, -- HEADER_CORRECTED (R339)
  ⟨0x8040, 0x8040, 0x8040, 1, 0x03, 0x03, 0x03, 6, 64, 0xAA, 0, 0⟩, -- HEADER_UNCORRECTABLE (R339)
  ⟨0x8040, 0x8040, 0x8040, 1, 0x04, 0x04, 0x04, 6, 64, 0xAA, 0, 0⟩, -- UNROUTABLE (R339)
  ⟨0x8040, 0x8040, 0x8040, 1, 0x05, 0x05, 0x05, 2, 16, 0xAA, 256, 256⟩, -- AGE_STEP_NS (R339)
  ⟨0x8100, 0x8100, 0x8100, 1, 0x01, 0x01, 0x01, 2, 16, 0xBB, 32768, 32768⟩, -- DEVICE_ID (R357)
  ⟨0x8101, 0x8151, 0x8111, 16, 0x01, 0x01, 0x01, 7, 8, 0xBB, 0, 0⟩, -- LINK_ENABLE (R357)
  ⟨0x8101, 0x8151, 0x8111, 16, 0x02, 0x02, 0x02, 1, 8, 0xAA, 0, 0⟩, -- LINK_STATE (R357)
  ⟨0x8101, 0x8151, 0x8111, 16, 0x03, 0x03, 0x03, 6, 64, 0xAA, 0, 0⟩, -- LINK_RETRIES (R357)
  ⟨0x8101, 0x8151, 0x8111, 16, 0x04, 0x04, 0x04, 6, 64, 0xAA, 0, 0⟩, -- LINK_DOWN_DROPS (R357)
  ⟨0x8101, 0x8151, 0x8111, 16, 0x05, 0x05, 0x05, 6, 64, 0xAA, 0, 0⟩, -- LINK_UNROUTABLE (R357)
  ⟨0x8101, 0x8151, 0x8111, 16, 0x06, 0x06, 0x06, 6, 64, 0xAA, 0, 0⟩, -- LINK_HOPS_DROPS (R357)
  ⟨0x8101, 0x8151, 0x8111, 16, 0x07, 0x07, 0x07, 1, 8, 0xBB, 0, 0⟩, -- LINK_RATE (R357)
  ⟨0x8101, 0x8151, 0x8111, 16, 0x08, 0x08, 0x08, 2, 16, 0xAA, 32768, 32768⟩, -- LINK_NEIGHBOUR (R357)
  ⟨0x8101, 0x8151, 0x8111, 16, 0x09, 0x09, 0x09, 2, 16, 0xAA, 0, 0⟩, -- LINK_FLIGHT_NS (R357)
  ⟨0x8102, 0x8102, 0x8102, 1, 0x04, 0x04, 0x04, 6, 64, 0xAA, 0, 0⟩, -- LINK_ORPHAN_TOKENS (R357)
  ⟨0x8110, 0x8110, 0x8110, 1, 0x01, 0x01, 0x01, 2, 16, 0xBB, 0, 0⟩, -- DR_INDEX (R357)
  ⟨0x8110, 0x8110, 0x8110, 1, 0x02, 0x02, 0x02, 8, 8, 0xBB, 255, 255⟩, -- DR_SHADOW (R357)
  ⟨0x8120, 0x8120, 0x8120, 1, 0x01, 0x01, 0x01, 3, 32, 0xAA, 0, 0⟩, -- PROXIES_ACTIVE (R357)
  ⟨0x8120, 0x8120, 0x8120, 1, 0x02, 0x02, 0x02, 6, 64, 0xAA, 0, 0⟩, -- PROXIES_CREATED (R357)
  ⟨0x8120, 0x8120, 0x8120, 1, 0x03, 0x03, 0x03, 6, 64, 0xAA, 0, 0⟩, -- REFUSALS_SENT (R357)
  ⟨0x8130, 0x8130, 0x8130, 1, 0x01, 0x80, 0x80, 8, 64, 0xBB, 0, 0⟩, -- LINK_SEL (R357)
  ⟨0x8138, 0x8138, 0x8138, 1, 0x01, 0x80, 0x80, 8, 64, 0xBB, 0, 0⟩, -- LINK_SEL_HIGH (R357)
  ⟨0x8200, 0x8206, 0x8202, 2, 0x01, 0x01, 0x01, 7, 8, 0xBB, 0, 0⟩, -- ETH_SPLIT (R357)
  ⟨0x8200, 0x8207, 0x8203, 1, 0x02, 0x02, 0x02, 2, 16, 0xBB, 1500, 1500⟩, -- ETH_MTU (R357)
  ⟨0x8200, 0x8207, 0x8203, 1, 0x03, 0x03, 0x03, 9, 48, 0xBB, 0, 0⟩, -- ETH_MAC (R357)
  ⟨0x8200, 0x8207, 0x8203, 1, 0x04, 0x04, 0x04, 9, 32, 0xBB, 0, 0⟩, -- ETH_IPV4 (R357)
  ⟨0x8200, 0x8207, 0x8203, 1, 0x05, 0x05, 0x05, 9, 128, 0xBB, 0, 0⟩, -- ETH_IPV6 (R357)
  ⟨0x8200, 0x8207, 0x8203, 1, 0x06, 0x06, 0x06, 9, 128, 0xBB, 0, 0⟩, -- ETH_GATEWAY (R357)
  ⟨0x8200, 0x8207, 0x8203, 1, 0x07, 0x07, 0x07, 2, 16, 0xBB, 0, 0⟩, -- ETH_VLAN (R357)
  ⟨0x8200, 0x8207, 0x8203, 1, 0x08, 0x08, 0x08, 6, 64, 0xAA, 0, 0⟩, -- ETH_RX_DROPPED (R357)
  ⟨0x8300, 0x8300, 0x8300, 1, 0x01, 0x01, 0x01, 8, 8, 0xAA, 0, 0⟩, -- PCIE_LINK (R357)
  ⟨0x8300, 0x8300, 0x8300, 1, 0x02, 0x02, 0x02, 6, 64, 0xAA, 0, 0⟩ -- PCIE_QP_ERRORS (R357)
  ]

/-- Objects of range 0x9nnn. -/
def rows9a : List ORow := [
  ⟨0x9000, 0x9000, 0x9000, 1, 0x01, 0x01, 0x01, 1, 8, 0xAA, 1, 1⟩, -- FAULTS_OPEN (R407)
  ⟨0x9000, 0x9000, 0x9000, 1, 0x02, 0x02, 0x02, 3, 32, 0xBB, 200, 200⟩, -- GRACE_US (R407)
  ⟨0x9000, 0x9000, 0x9000, 1, 0x03, 0x03, 0x03, 3, 32, 0xBB, 10000, 10000⟩, -- RELATCH_US (R407)
  ⟨0x9000, 0x9000, 0x9000, 1, 0x04, 0x04, 0x04, 1, 8, 0x15, 0, 0⟩, -- FAULT_ACK (R407)
  ⟨0x9000, 0x9000, 0x9000, 1, 0x05, 0x05, 0x05, 1, 8, 0x15, 0, 0⟩, -- FAULT_CLEAR (R407)
  ⟨0x9000, 0x9000, 0x9000, 1, 0x06, 0x06, 0x06, 6, 64, 0xAA, 0, 0⟩, -- HISTORY_OVERFLOWS (R407)
  ⟨0x9000, 0x9000, 0x9000, 1, 0x07, 0x07, 0x07, 6, 64, 0xAA, 0, 0⟩, -- DEADBOLTS (R407)
  ⟨0x9000, 0x9000, 0x9000, 1, 0x08, 0x08, 0x08, 6, 64, 0xAA, 0, 0⟩, -- REMOTE_FAULTS (R407)
  ⟨0x9000, 0x9000, 0x9000, 1, 0x09, 0x09, 0x09, 9, 160, 0xAA, 0, 0⟩, -- REMOTE_LAST (R407)
  ⟨0x9001, 0x9001, 0x9001, 1, 0x01, 0x10, 0x10, 9, 256, 0xAA, 0, 0⟩, -- HISTORY (R407)
  ⟨0x9101, 0x9101, 0x9101, 1, 0x01, 0x01, 0x01, 6, 64, 0xAA, 0, 0⟩, -- SRC_EVENTS (R407)
  ⟨0x9101, 0x9101, 0x9101, 1, 0x02, 0x02, 0x02, 1, 8, 0xAA, 0, 0⟩, -- SRC_STATE (R407)
  ⟨0x9101, 0x9101, 0x9101, 1, 0x03, 0x03, 0x03, 2, 16, 0xBB, 0, 0⟩, -- SRC_NC (R407)
  ⟨0x9101, 0x9101, 0x9101, 1, 0x04, 0x04, 0x04, 2, 16, 0xBB, 0, 0⟩, -- SRC_NF (R407)
  ⟨0x9101, 0x9101, 0x9101, 1, 0x05, 0x05, 0x05, 3, 32, 0xBB, 0, 0⟩, -- SRC_WINDOW_US (R407)
  ⟨0x9101, 0x9101, 0x9101, 1, 0x06, 0x06, 0x06, 1, 8, 0xBB, 0, 0⟩, -- SRC_DEADBOLT (R407)
  ⟨0x9101, 0x9101, 0x9101, 1, 0x07, 0x07, 0x07, 2, 16, 0xAA, 0, 0⟩, -- SRC_RELATCHES (R407)
  ⟨0x9101, 0x9101, 0x9101, 1, 0x08, 0x08, 0x08, 3, 32, 0xAA, 0, 0⟩, -- SRC_WINDOW_COUNT (R407)
  ⟨0x9110, 0x911E, 0x911E, 1, 0x01, 0x01, 0x01, 6, 64, 0xAA, 0, 0⟩, -- SRC_EVENTS (R407)
  ⟨0x9110, 0x911E, 0x911E, 1, 0x02, 0x02, 0x02, 1, 8, 0xAA, 0, 0⟩, -- SRC_STATE (R407)
  ⟨0x9110, 0x911E, 0x911E, 1, 0x03, 0x03, 0x03, 2, 16, 0xBB, 0, 0⟩, -- SRC_NC (R407)
  ⟨0x9110, 0x911E, 0x911E, 1, 0x04, 0x04, 0x04, 2, 16, 0xBB, 0, 0⟩, -- SRC_NF (R407)
  ⟨0x9110, 0x911E, 0x911E, 1, 0x05, 0x05, 0x05, 3, 32, 0xBB, 0, 0⟩, -- SRC_WINDOW_US (R407)
  ⟨0x9110, 0x911E, 0x911E, 1, 0x06, 0x06, 0x06, 1, 8, 0xBB, 0, 0⟩, -- SRC_DEADBOLT (R407)
  ⟨0x9110, 0x911E, 0x911E, 1, 0x07, 0x07, 0x07, 2, 16, 0xAA, 0, 0⟩, -- SRC_RELATCHES (R407)
  ⟨0x9110, 0x911E, 0x911E, 1, 0x08, 0x08, 0x08, 3, 32, 0xAA, 0, 0⟩, -- SRC_WINDOW_COUNT (R407)
  ⟨0x9130, 0x9134, 0x9134, 1, 0x01, 0x01, 0x01, 6, 64, 0xAA, 0, 0⟩, -- SRC_EVENTS (R407)
  ⟨0x9130, 0x9134, 0x9134, 1, 0x02, 0x02, 0x02, 1, 8, 0xAA, 0, 0⟩, -- SRC_STATE (R407)
  ⟨0x9130, 0x9134, 0x9134, 1, 0x03, 0x03, 0x03, 2, 16, 0xBB, 0, 0⟩, -- SRC_NC (R407)
  ⟨0x9130, 0x9134, 0x9134, 1, 0x04, 0x04, 0x04, 2, 16, 0xBB, 0, 0⟩, -- SRC_NF (R407)
  ⟨0x9130, 0x9134, 0x9134, 1, 0x05, 0x05, 0x05, 3, 32, 0xBB, 0, 0⟩, -- SRC_WINDOW_US (R407)
  ⟨0x9130, 0x9134, 0x9134, 1, 0x06, 0x06, 0x06, 1, 8, 0xBB, 0, 0⟩, -- SRC_DEADBOLT (R407)
  ⟨0x9130, 0x9134, 0x9134, 1, 0x07, 0x07, 0x07, 2, 16, 0xAA, 0, 0⟩, -- SRC_RELATCHES (R407)
  ⟨0x9130, 0x9134, 0x9134, 1, 0x08, 0x08, 0x08, 3, 32, 0xAA, 0, 0⟩, -- SRC_WINDOW_COUNT (R407)
  ⟨0x9140, 0x9142, 0x9142, 1, 0x01, 0x01, 0x01, 6, 64, 0xAA, 0, 0⟩, -- SRC_EVENTS (R407)
  ⟨0x9140, 0x9142, 0x9142, 1, 0x02, 0x02, 0x02, 1, 8, 0xAA, 0, 0⟩, -- SRC_STATE (R407)
  ⟨0x9140, 0x9142, 0x9142, 1, 0x03, 0x03, 0x03, 2, 16, 0xBB, 0, 0⟩, -- SRC_NC (R407)
  ⟨0x9140, 0x9142, 0x9142, 1, 0x04, 0x04, 0x04, 2, 16, 0xBB, 0, 0⟩, -- SRC_NF (R407)
  ⟨0x9140, 0x9142, 0x9142, 1, 0x05, 0x05, 0x05, 3, 32, 0xBB, 0, 0⟩, -- SRC_WINDOW_US (R407)
  ⟨0x9140, 0x9142, 0x9142, 1, 0x06, 0x06, 0x06, 1, 8, 0xBB, 0, 0⟩, -- SRC_DEADBOLT (R407)
  ⟨0x9140, 0x9142, 0x9142, 1, 0x07, 0x07, 0x07, 2, 16, 0xAA, 0, 0⟩, -- SRC_RELATCHES (R407)
  ⟨0x9140, 0x9142, 0x9142, 1, 0x08, 0x08, 0x08, 3, 32, 0xAA, 0, 0⟩, -- SRC_WINDOW_COUNT (R407)
  ⟨0x9150, 0x9153, 0x9153, 1, 0x01, 0x01, 0x01, 6, 64, 0xAA, 0, 0⟩, -- SRC_EVENTS (R407)
  ⟨0x9150, 0x9153, 0x9153, 1, 0x02, 0x02, 0x02, 1, 8, 0xAA, 0, 0⟩, -- SRC_STATE (R407)
  ⟨0x9150, 0x9153, 0x9153, 1, 0x03, 0x03, 0x03, 2, 16, 0xBB, 0, 0⟩, -- SRC_NC (R407)
  ⟨0x9150, 0x9153, 0x9153, 1, 0x04, 0x04, 0x04, 2, 16, 0xBB, 0, 0⟩, -- SRC_NF (R407)
  ⟨0x9150, 0x9153, 0x9153, 1, 0x05, 0x05, 0x05, 3, 32, 0xBB, 0, 0⟩, -- SRC_WINDOW_US (R407)
  ⟨0x9150, 0x9153, 0x9153, 1, 0x06, 0x06, 0x06, 1, 8, 0xBB, 0, 0⟩, -- SRC_DEADBOLT (R407)
  ⟨0x9150, 0x9153, 0x9153, 1, 0x07, 0x07, 0x07, 2, 16, 0xAA, 0, 0⟩, -- SRC_RELATCHES (R407)
  ⟨0x9150, 0x9153, 0x9153, 1, 0x08, 0x08, 0x08, 3, 32, 0xAA, 0, 0⟩, -- SRC_WINDOW_COUNT (R407)
  ⟨0x9160, 0x9161, 0x9161, 1, 0x01, 0x01, 0x01, 6, 64, 0xAA, 0, 0⟩, -- SRC_EVENTS (R407)
  ⟨0x9160, 0x9161, 0x9161, 1, 0x02, 0x02, 0x02, 1, 8, 0xAA, 0, 0⟩, -- SRC_STATE (R407)
  ⟨0x9160, 0x9161, 0x9161, 1, 0x03, 0x03, 0x03, 2, 16, 0xBB, 0, 0⟩, -- SRC_NC (R407)
  ⟨0x9160, 0x9161, 0x9161, 1, 0x04, 0x04, 0x04, 2, 16, 0xBB, 0, 0⟩, -- SRC_NF (R407)
  ⟨0x9160, 0x9161, 0x9161, 1, 0x05, 0x05, 0x05, 3, 32, 0xBB, 0, 0⟩, -- SRC_WINDOW_US (R407)
  ⟨0x9160, 0x9161, 0x9161, 1, 0x06, 0x06, 0x06, 1, 8, 0xBB, 0, 0⟩, -- SRC_DEADBOLT (R407)
  ⟨0x9160, 0x9161, 0x9161, 1, 0x07, 0x07, 0x07, 2, 16, 0xAA, 0, 0⟩, -- SRC_RELATCHES (R407)
  ⟨0x9160, 0x9161, 0x9161, 1, 0x08, 0x08, 0x08, 3, 32, 0xAA, 0, 0⟩, -- SRC_WINDOW_COUNT (R407)
  ⟨0x9170, 0x9174, 0x9174, 1, 0x01, 0x01, 0x01, 6, 64, 0xAA, 0, 0⟩, -- SRC_EVENTS (R407)
  ⟨0x9170, 0x9174, 0x9174, 1, 0x02, 0x02, 0x02, 1, 8, 0xAA, 0, 0⟩ -- SRC_STATE (R407)
  ]

/-- Objects of range 0x9nnn. -/
def rows9b : List ORow := [
  ⟨0x9170, 0x9174, 0x9174, 1, 0x03, 0x03, 0x03, 2, 16, 0xBB, 0, 0⟩, -- SRC_NC (R407)
  ⟨0x9170, 0x9174, 0x9174, 1, 0x04, 0x04, 0x04, 2, 16, 0xBB, 0, 0⟩, -- SRC_NF (R407)
  ⟨0x9170, 0x9174, 0x9174, 1, 0x05, 0x05, 0x05, 3, 32, 0xBB, 0, 0⟩, -- SRC_WINDOW_US (R407)
  ⟨0x9170, 0x9174, 0x9174, 1, 0x06, 0x06, 0x06, 1, 8, 0xBB, 0, 0⟩, -- SRC_DEADBOLT (R407)
  ⟨0x9170, 0x9174, 0x9174, 1, 0x07, 0x07, 0x07, 2, 16, 0xAA, 0, 0⟩, -- SRC_RELATCHES (R407)
  ⟨0x9170, 0x9174, 0x9174, 1, 0x08, 0x08, 0x08, 3, 32, 0xAA, 0, 0⟩, -- SRC_WINDOW_COUNT (R407)
  ⟨0x9200, 0x9200, 0x9200, 1, 0x01, 0x01, 0x01, 6, 64, 0xAA, 0, 0⟩, -- TAKEOVERS (R407)
  ⟨0x9200, 0x9200, 0x9200, 1, 0x02, 0x05, 0x02, 1, 8, 0xAA, 2, 2⟩, -- SPARES_LEFT (R407)
  ⟨0x9200, 0x9200, 0x9200, 1, 0x06, 0x06, 0x06, 3, 32, 0xAA, 0, 0⟩, -- LAST_TAKEOVER_NS (R407)
  ⟨0x9200, 0x9200, 0x9200, 1, 0x07, 0x07, 0x07, 6, 64, 0xAA, 0, 0⟩, -- AFFECTED_SIGNALLED (R407)
  ⟨0x9210, 0x9210, 0x9210, 1, 0x01, 0x01, 0x01, 3, 32, 0xBB, 3600, 3600⟩, -- ROLL_INTERVAL_S (R407)
  ⟨0x9210, 0x9210, 0x9210, 1, 0x02, 0x02, 0x02, 2, 16, 0xAA, 0, 0⟩, -- ROLL_POSITION (R407)
  ⟨0x9210, 0x9210, 0x9210, 1, 0x03, 0x03, 0x03, 6, 64, 0xAA, 0, 0⟩, -- ROLL_PASSES (R407)
  ⟨0x9210, 0x9210, 0x9210, 1, 0x04, 0x04, 0x04, 6, 64, 0xAA, 0, 0⟩, -- ROLL_FAILS (R407)
  ⟨0x9220, 0x9220, 0x9220, 1, 0x01, 0x01, 0x01, 1, 8, 0x15, 0, 0⟩, -- BIST_CMD (R407)
  ⟨0x9220, 0x9220, 0x9220, 1, 0x02, 0x02, 0x02, 1, 8, 0xAA, 0, 0⟩, -- BIST_STATUS (R407)
  ⟨0x9300, 0x9300, 0x9300, 1, 0x01, 0x01, 0x01, 1, 8, 0xAF, 0, 0⟩, -- INJ_CHECKER (R407)
  ⟨0x9300, 0x9300, 0x9300, 1, 0x02, 0x02, 0x02, 1, 8, 0xAF, 0, 0⟩, -- INJ_MODE (R407)
  ⟨0x9300, 0x9300, 0x9300, 1, 0x03, 0x03, 0x03, 2, 16, 0xAF, 0, 0⟩, -- INJ_BITS (R407)
  ⟨0x9300, 0x9300, 0x9300, 1, 0x04, 0x04, 0x04, 2, 16, 0xAF, 1, 1⟩, -- INJ_COUNT (R407)
  ⟨0x9300, 0x9300, 0x9300, 1, 0x05, 0x05, 0x05, 3, 32, 0xAF, 0, 0⟩, -- INJ_LOCATION (R407)
  ⟨0x9300, 0x9300, 0x9300, 1, 0x06, 0x06, 0x06, 1, 8, 0x05, 0, 0⟩, -- INJ_ARM (R407)
  ⟨0x9300, 0x9300, 0x9300, 1, 0x07, 0x07, 0x07, 2, 16, 0xAA, 0, 0⟩ -- INJ_REMAINING (R407)
  ]

/-- Objects of range 0xAnnn. -/
def rowsAa : List ORow := [
  ⟨0xA000, 0xA000, 0xA000, 1, 0x01, 0x01, 0x01, 3, 32, 0xBB, 0, 0⟩, -- DUMP_PERIOD_US (R421)
  ⟨0xA000, 0xA000, 0xA000, 1, 0x02, 0x02, 0x02, 8, 2, 0xBB, 0, 0⟩, -- DUMP_TARGET (R421)
  ⟨0xA000, 0xA000, 0xA000, 1, 0x03, 0x03, 0x03, 4, 40, 0xBB, 0, 0⟩, -- DUMP_EA (R421)
  ⟨0xA000, 0xA000, 0xA000, 1, 0x04, 0x04, 0x04, 3, 32, 0xBB, 0, 0⟩, -- DUMP_RECORDS (R421)
  ⟨0xA000, 0xA000, 0xA000, 1, 0x05, 0x05, 0x05, 3, 32, 0xAA, 0, 0⟩, -- DUMP_POSITION (R421)
  ⟨0xA000, 0xA000, 0xA000, 1, 0x06, 0x06, 0x06, 6, 64, 0xAA, 0, 0⟩, -- DUMP_SEQ (R421)
  ⟨0xA000, 0xA000, 0xA000, 1, 0x07, 0x07, 0x07, 6, 64, 0xAA, 0, 0⟩, -- DUMPS_SKIPPED (R421)
  ⟨0xA000, 0xA000, 0xA000, 1, 0x08, 0x08, 0x08, 6, 64, 0xAA, 0, 0⟩, -- DUMPS_DROPPED (R421)
  ⟨0xA000, 0xA000, 0xA000, 1, 0x09, 0x09, 0x09, 1, 8, 0xAA, 5, 2⟩, -- BLOCKS (R421)
  ⟨0xA000, 0xA000, 0xA000, 1, 0x0A, 0x0A, 0x0A, 8, 32, 0xAA, 0, 0⟩, -- OVF_HEAD (R421)
  ⟨0xA000, 0xA000, 0xA000, 1, 0x0B, 0x0B, 0x0B, 1, 8, 0x11, 0, 0⟩, -- OVF_POP (R421)
  ⟨0xA000, 0xA000, 0xA000, 1, 0x0C, 0x0C, 0x0C, 6, 64, 0xAA, 0, 0⟩, -- OVF_QUEUE_LOST (R421)
  ⟨0xA000, 0xA000, 0xA000, 1, 0x0D, 0x0D, 0x0D, 6, 64, 0xAA, 0, 0⟩, -- DISCARD_EXCESS (R421)
  ⟨0xA100, 0xA104, 0xA101, 1, 0x01, 0x01, 0x01, 6, 64, 0xAA, 0, 0⟩, -- TB_COUNT (R421)
  ⟨0xA100, 0xA104, 0xA101, 1, 0x02, 0x09, 0x09, 8, 64, 0xBB, 0, 0⟩, -- CNT_VALUE (R421)
  ⟨0xA100, 0xA104, 0xA101, 1, 0x0A, 0x11, 0x11, 8, 64, 0xBB, 0xfff00000000, 0xfff00000000⟩, -- CNT_CONFIG (R421)
  ⟨0xA100, 0xA104, 0xA101, 1, 0x12, 0x19, 0x19, 8, 64, 0xBB, 0, 0⟩, -- SAMPLE_DEST (R421)
  ⟨0xA200, 0xA200, 0xA200, 1, 0x01, 0x88, 0x22, 6, 64, 0xAA, 0, 0⟩, -- SLOTS (R421)
  ⟨0xA201, 0xA201, 0xA201, 1, 0x01, 0x88, 0x22, 6, 64, 0xAA, 0, 0⟩, -- SLOT_R (R421)
  ⟨0xA202, 0xA202, 0xA202, 1, 0x01, 0x88, 0x22, 6, 64, 0xAA, 0, 0⟩, -- SLOT_W (R421)
  ⟨0xA203, 0xA203, 0xA203, 1, 0x01, 0x88, 0x22, 6, 64, 0xAA, 0, 0⟩, -- SLOT_B (R421)
  ⟨0xA204, 0xA204, 0xA204, 1, 0x01, 0x88, 0x22, 6, 64, 0xAA, 0, 0⟩ -- SLOT_F (R421)
  ]

/-- Objects of range 0xBnnn. -/
def rowsBa : List ORow := [
  ⟨0xB000, 0xB000, 0xB000, 1, 0x01, 0x01, 0x01, 8, 16, 0xBF, 1, 1⟩, -- RESET_CAUSE (R441)
  ⟨0xB000, 0xB000, 0xB000, 1, 0x02, 0x02, 0x02, 6, 64, 0xAA, 0, 0⟩, -- CORE_RESETS (R441)
  ⟨0xB000, 0xB000, 0xB000, 1, 0x03, 0x03, 0x03, 6, 64, 0xAA, 0, 0⟩, -- SYSTEM_RESETS (R441)
  ⟨0xB001, 0xB001, 0xB001, 1, 0x01, 0x01, 0x00, 1, 8, 0x15, 0, 0⟩, -- CORE_RESET_CMD (R441)
  ⟨0xB001, 0xB001, 0xB001, 1, 0x02, 0x02, 0x01, 1, 8, 0x05, 0, 0⟩, -- SYS_RESET_CMD (R441)
  ⟨0xB001, 0xB001, 0xB001, 1, 0x03, 0x03, 0x03, 6, 64, 0xAA, 0, 0⟩, -- RESET_REFUSED (R441)
  ⟨0xB002, 0xB002, 0xB002, 1, 0x01, 0x00, 0x01, 8, 8, 0xBF, 0, 0⟩, -- SOFT_RESET (R441)
  ⟨0xB003, 0xB003, 0xB003, 1, 0x01, 0x01, 0x01, 1, 8, 0xAA, 0, 0⟩, -- BS_TIMEBASE (R441)
  ⟨0xB003, 0xB003, 0xB003, 1, 0x02, 0x09, 0x03, 1, 8, 0xAA, 0, 0⟩, -- BS_HBM (R441)
  ⟨0xB003, 0xB003, 0xB003, 1, 0x0A, 0x0D, 0x0B, 1, 8, 0xAA, 0, 0⟩, -- BS_ETH (R441)
  ⟨0xB003, 0xB003, 0xB003, 1, 0x0E, 0x13, 0x0F, 1, 8, 0xAA, 0, 0⟩, -- BS_LINK (R441)
  ⟨0xB003, 0xB003, 0xB003, 1, 0x14, 0x14, 0x14, 1, 8, 0xAA, 0, 0⟩, -- BS_PCIE (R441)
  ⟨0xB010, 0xB010, 0xB010, 1, 0x01, 0x01, 0x01, 2, 16, 0xBB, 1250, 1250⟩, -- GOV_TARGET (R441)
  ⟨0xB010, 0xB010, 0xB010, 1, 0x02, 0x02, 0x02, 2, 16, 0xAA, 750, 750⟩, -- VDD_FAB_SET_MV (R441)
  ⟨0xB010, 0xB010, 0xB010, 1, 0x03, 0x03, 0x03, 2, 16, 0xAA, 0, 0⟩, -- GOV_MIN_PACE (R441)
  ⟨0xB010, 0xB010, 0xB010, 1, 0x04, 0x04, 0x04, 6, 64, 0xAA, 0, 0⟩, -- GOV_AT_CEILING (R441)
  ⟨0xB011, 0xB011, 0xB011, 1, 0x01, 0x01, 0x01, 7, 8, 0xBB, 0, 0⟩, -- BOOST_ENABLE (R441)
  ⟨0xB011, 0xB011, 0xB011, 1, 0x02, 0x02, 0x02, 7, 8, 0xAA, 0, 0⟩, -- BOOST_ACTIVE (R441)
  ⟨0xB011, 0xB011, 0xB011, 1, 0x03, 0x03, 0x03, 4, 40, 0xAA, 0, 0⟩, -- BOOST_BALANCE_MS (R441)
  ⟨0xB011, 0xB011, 0xB011, 1, 0x04, 0x04, 0x04, 6, 64, 0xAA, 0, 0⟩, -- BOOST_USED_S (R441)
  ⟨0xB011, 0xB011, 0xB011, 1, 0x05, 0x05, 0x05, 6, 64, 0xAA, 0, 0⟩, -- BOOST_ENTRIES (R441)
  ⟨0xB020, 0xB020, 0xB020, 1, 0x01, 0x01, 0x01, 1, 8, 0xAA, 95, 95⟩, -- TJ_GOV_C (R441)
  ⟨0xB020, 0xB020, 0xB020, 1, 0x02, 0x02, 0x02, 1, 8, 0xAA, 105, 105⟩, -- TJ_TRIP_C (R441)
  ⟨0xB020, 0xB020, 0xB020, 1, 0x03, 0x03, 0x03, 6, 64, 0xAA, 0, 0⟩, -- TJ_GOV_EVENTS (R441)
  ⟨0xB020, 0xB020, 0xB020, 1, 0x04, 0x04, 0x04, 3, 32, 0xAA, 0, 0⟩, -- THERM_TRIPS (R441)
  ⟨0xB020, 0xB020, 0xB020, 1, 0x05, 0x05, 0x05, 5, 40, 0xAA, 0, 0⟩, -- TJ_MAX_SEEN (R441)
  ⟨0xB030, 0xB030, 0xB030, 1, 0x01, 0x01, 0x01, 3, 32, 0xAA, 0, 0⟩, -- POWERED_HOURS (R441)
  ⟨0xB030, 0xB030, 0xB030, 1, 0x02, 0x02, 0x02, 3, 32, 0xAA, 0, 0⟩, -- HOURS_ABOVE_95 (R441)
  ⟨0xB040, 0xB040, 0xB040, 1, 0x01, 0x04, 0x01, 8, 34, 0xAF, 0, 0⟩ -- REPAIR_MAP (R441)
  ]

/-- Objects of range 0xCnnn. -/
def rowsCa : List ORow := [
  ⟨0xC000, 0xC000, 0xC000, 1, 0x01, 0x01, 0x01, 1, 8, 0xAA, 0, 0⟩, -- WARD_STATE (R386)
  ⟨0xC000, 0xC000, 0xC000, 1, 0x02, 0x02, 0x02, 6, 64, 0xAA, 0, 0⟩, -- WARD_RESTARTS (R386)
  ⟨0xC000, 0xC000, 0xC000, 1, 0x03, 0x03, 0x03, 6, 64, 0xAA, 0, 0⟩, -- WATCHDOG_EXPIRIES (R386)
  ⟨0xC000, 0xC000, 0xC000, 1, 0x04, 0x04, 0x04, 1, 8, 0x04, 0, 0⟩, -- WARD_RESTART (R386)
  ⟨0xC010, 0xC010, 0xC010, 1, 0x01, 0x01, 0x01, 2, 16, 0xAE, 0, 0⟩, -- IMAGE_KEY (R386)
  ⟨0xC100, 0xC100, 0xC100, 1, 0x01, 0x01, 0x01, 5, 40, 0xAA, 0, 0⟩, -- TJ (R386)
  ⟨0xC100, 0xC100, 0xC100, 1, 0x02, 0x04, 0x01, 5, 40, 0xAA, 0, 0⟩, -- TJ (R386)
  ⟨0xC100, 0xC100, 0xC100, 1, 0x05, 0x05, 0x05, 5, 40, 0xAA, 0, 0⟩, -- TJ (R386)
  ⟨0xC100, 0xC100, 0xC100, 1, 0x06, 0x0D, 0x07, 5, 40, 0xAA, 0, 0⟩, -- TJ_HBM (R386)
  ⟨0xC100, 0xC100, 0xC100, 1, 0x10, 0x17, 0x17, 3, 32, 0xAA, 0, 0⟩, -- RAIL_MV (R386)
  ⟨0xC200, 0xC200, 0xC200, 1, 0x01, 0x01, 0x01, 9, 67108864, 0x14, 0, 0⟩, -- FW_DATA (R386)
  ⟨0xC200, 0xC200, 0xC200, 1, 0x02, 0x03, 0x03, 1, 8, 0xAA, 0, 0⟩, -- FW_SLOT_STATE (R386)
  ⟨0xC200, 0xC200, 0xC200, 1, 0x04, 0x04, 0x04, 1, 8, 0x04, 0, 0⟩, -- FW_COMMAND (R386)
  ⟨0xC300, 0xC300, 0xC300, 1, 0x01, 0x03, 0x03, 9, 256, 0x04, 0, 0⟩, -- ROLE_SECRET (R386)
  ⟨0xC400, 0xC400, 0xC400, 1, 0x01, 0x05, 0x05, 6, 64, 0xAA, 0, 0⟩, -- ROLE_VIOLATIONS (R386)
  ⟨0xC500, 0xC500, 0xC500, 1, 0x01, 0x01, 0x01, 6, 64, 0xAA, 0, 0⟩, -- LOG_COUNT (R386)
  ⟨0xC500, 0xC500, 0xC500, 1, 0x02, 0x02, 0x02, 6, 64, 0xFF, 0, 0⟩, -- LOG_SELECT (R386)
  ⟨0xC500, 0xC500, 0xC500, 1, 0x03, 0x03, 0x03, 9, 512, 0xAA, 0, 0⟩ -- LOG_ENTRY (R386)
  ]

/-- Objects of range 0xDnnn. -/
def rowsDa : List ORow := [
  ⟨0xD000, 0xD03F, 0xD03F, 1, 0x01, 0x01, 0x01, 9, 8388608, 0x11, 0, 0⟩, -- IMG_DATA (R386)
  ⟨0xD000, 0xD03F, 0xD03F, 1, 0x02, 0x02, 0x02, 1, 8, 0xAA, 0, 0⟩, -- IMG_STATE (R386)
  ⟨0xD000, 0xD03F, 0xD03F, 1, 0x03, 0x03, 0x03, 1, 8, 0x11, 0, 0⟩, -- IMG_COMMAND (R386)
  ⟨0xD000, 0xD03F, 0xD03F, 1, 0x04, 0x04, 0x04, 6, 64, 0xAA, 0, 0⟩, -- IMG_RESULT (R386)
  ⟨0xD000, 0xD03F, 0xD03F, 1, 0x05, 0x05, 0x05, 9, 2048, 0xAA, 0, 0⟩, -- IMG_HEADER (R386)
  ⟨0xD100, 0xD13F, 0xD13F, 1, 0x01, 0x01, 0x01, 9, 8388608, 0x11, 0, 0⟩, -- IMG_DATA (R386)
  ⟨0xD100, 0xD13F, 0xD13F, 1, 0x02, 0x02, 0x02, 1, 8, 0xAA, 0, 0⟩, -- IMG_STATE (R386)
  ⟨0xD100, 0xD13F, 0xD13F, 1, 0x03, 0x03, 0x03, 1, 8, 0x11, 0, 0⟩, -- IMG_COMMAND (R386)
  ⟨0xD100, 0xD13F, 0xD13F, 1, 0x04, 0x04, 0x04, 6, 64, 0xAA, 0, 0⟩, -- IMG_RESULT (R386)
  ⟨0xD100, 0xD13F, 0xD13F, 1, 0x05, 0x05, 0x05, 9, 2048, 0xAA, 0, 0⟩, -- IMG_HEADER (R386)
  ⟨0xD200, 0xD2FF, 0xD2FF, 1, 0x01, 0x01, 0x01, 9, 8388608, 0x11, 0, 0⟩, -- IMG_DATA (R386)
  ⟨0xD200, 0xD2FF, 0xD2FF, 1, 0x02, 0x02, 0x02, 1, 8, 0xAA, 0, 0⟩, -- IMG_STATE (R386)
  ⟨0xD200, 0xD2FF, 0xD2FF, 1, 0x03, 0x03, 0x03, 1, 8, 0x11, 0, 0⟩, -- IMG_COMMAND (R386)
  ⟨0xD200, 0xD2FF, 0xD2FF, 1, 0x04, 0x04, 0x04, 6, 64, 0xAA, 0, 0⟩, -- IMG_RESULT (R386)
  ⟨0xD200, 0xD2FF, 0xD2FF, 1, 0x05, 0x05, 0x05, 9, 2048, 0xAA, 0, 0⟩ -- IMG_HEADER (R386)
  ]

/-- Every row of every object table. -/
def dictRows : List ORow :=
  rows1a ++ rows2a ++ rows2b ++ rows3a ++ rows4a ++ rows5a ++ rows6a ++ rows7a ++ rows8a ++ rows9a ++ rows9b ++ rowsAa ++ rowsBa ++ rowsCa ++ rowsDa

/-- A row holds the object (`idx`, `sub`) of configuration `p`. -/
def ORow.has (r : ORow) (p : Part) (idx sub : Nat) : Bool :=
  let hi := if p = .x then r.hiX else r.hiS
  let shi := if p = .x then r.shiX else r.shiS
  decide (r.lo ≤ idx) && decide (idx ≤ hi) && decide ((idx - r.lo) % r.step = 0) && decide (r.slo ≤ sub)
    && decide (sub ≤ shi)

/-- The row of an object, `none` where no chapter defines it (R13). -/
def objRow (p : Part) (idx sub : Nat) : Option ORow := dictRows.find? (fun r => r.has p idx sub)

/-- The highest sub-index defined at an index, 0 for an undefined index (R377). -/
def dirSubs (p : Part) (idx : Nat) : Nat :=
  dictRows.foldl (fun m r =>
    let shi := if p = .x then r.shiX else r.shiS
    if r.has p idx shi && decide (m < shi) then shi else m) 0

/-- Octets of an object's value (R11, R374). -/
def ORow.octets (r : ORow) : Nat := (r.width + 7) / 8

/-- `DIR_DESC` (R377). -/
def ORow.desc (r : ORow) : Nat := r.kind * 2 ^ 56 + r.octets * 2 ^ 24 + r.acc

/-- The right letters of R386's access column: read and write, by role. -/
def ORow.mayRead (r : ORow) (ro : Role) : Bool :=
  r.acc.testBit (match ro with | .O => 7 | .P => 5 | .K => 3 | .W => 1)
def ORow.mayWrite (r : ORow) (ro : Role) : Bool :=
  r.acc.testBit (match ro with | .O => 6 | .P => 4 | .K => 2 | .W => 0)

/-- R387: fixed class of a fault source (0 corrected, 1 contained, 2 fatal). -/
def srcClass (s : Nat) : Nat :=
  if s == 0x10 || s == 0x16 || s == 0x52 || s == 0x53 || s == 0x73 then 0
  else if s == 0x1E || s == 0x33 || s == 0x71 || s == 0x72 then 2
  else 1

/-- R387: the fault sources there are. -/
def srcDefined (s : Nat) : Bool :=
  s == 1 || (0x10 ≤ s && s ≤ 0x1E) || (0x30 ≤ s && s ≤ 0x34) || (0x40 ≤ s && s ≤ 0x42)
    || (0x50 ≤ s && s ≤ 0x53) || s == 0x60 || s == 0x61 || (0x70 ≤ s && s ≤ 0x74)

/-- R387: default deadbolt actions that are not 0. -/
def srcDeadbolt (s : Nat) : Nat :=
  if s == 0x13 || s == 0x15 || s == 0x19 || s == 0x1D || s == 0x42 then 1
  else if s == 0x33 then 2
  else if s == 0x1A || s == 0x1E || s == 0x72 then 3
  else if s == 0x71 then 4
  else 0

/-- R389, R387: defaults of `SRC_NC`, `SRC_NF`, `SRC_WINDOW_US` and `SRC_DEADBOLT` of a source. -/
def srcDefault (s sub : Nat) : Nat :=
  if sub == 3 then (if srcClass s = 0 then 16 else 0)
  else if sub == 4 then (if srcClass s = 1 then 64 else 0)
  else if sub == 5 then (if srcClass s = 0 then 1000 else 10000)
  else if sub == 6 then srcDeadbolt s
  else 0

/-- R218: sizes in MiB of the HBM regions, in the order of `REGION_MIB` (sub-indices 0x02–0x10). -/
def regionSizes (p : Part) : List Nat :=
  match p with
  | .x => [2048, 256, 128, 32768, 16, 4096, 16384, 256, 64, 64, 2048, 128, 112, 8192, 130048]
  | .s => [512, 64, 32, 8192, 16, 4096, 4096, 64, 64, 64, 512, 128, 592, 8192, 22528]

/-- The listed default of an object. Objects whose tables give no number (identity, seal-store and live objects) have 0
here; the read function computes them. -/
def objDefault (p : Part) (idx sub : Nat) : Nat :=
  match objRow p idx sub with
  | none => 0
  | some r =>
    if r.lo / 256 == 0x91 && 3 ≤ sub && sub ≤ 6 then srcDefault (idx - 0x9100) sub
    else if r.lo == 0x6000 && 2 ≤ sub then (regionSizes p).getD (sub - 2) 0
    else if p = .x then r.dx else r.ds

/-- The key of an object in the object store. -/
def okey (idx sub : Nat) : Nat := idx * 256 + sub

end Sys2Proof.Machine
end

