-- ==== Sys2Proof/Machine/Bits.lean ====
section
/-! DEFINITION. The check codes: the token and entry code of R31 and the header code of R321. -/

namespace Sys2Proof.Machine

/-- The remainder of a polynomial of degree below `n + deg` divided by `g` (degree `deg`), over GF(2). -/
def polyMod (g deg : Nat) : Nat → Nat → Nat
  | 0, r => r
  | n + 1, r => polyMod g deg n (if r.testBit (n + deg) then r ^^^ (g <<< n) else r)

/-- Parity of the low `n` bits. -/
def parity : Nat → Nat → Bool
  | 0, _ => false
  | n + 1, v => xor (v.testBit n) (parity n v)

/-- The 14-bit remainder of R31 for the 112 message bits. -/
def bch (m : Nat) : Nat := polyMod 0x4377 14 112 (m <<< 14)

/-- A 128-bit word with message bits [127:16] `m` and the CHECK field of R31. -/
def withCheck (m : Nat) : W128 :=
  let w := m * 65536 + bch m * 4
  BitVec.ofNat 128 (w + 2 * b2n (parity 128 w))

/-- A word is a valid codeword of R31. -/
def checkOk (w : W128) : Bool := w == withCheck (w.toNat / 65536)

/-- Flip bit `i` of a word. -/
def flipBit (w : W128) (i : Nat) : W128 := w ^^^ BitVec.ofNat 128 (1 <<< i)

/-- The outcome of a check (R32, R74). -/
inductive Checked where
  | clean
  | corrected (w : W128)
  | uncorrectable
  deriving DecidableEq, Repr

/-- The check of R31: two errors are corrected, anything further is uncorrectable. -/
def checkWord (w : W128) : Checked :=
  if checkOk w then .clean
  else match (List.range 128).find? (fun i => checkOk (flipBit w i)) with
    | some i => .corrected (flipBit w i)
    | none =>
      match (List.range 128).findSome? (fun i =>
          ((List.range i).find? (fun j => checkOk (flipBit (flipBit w i) j))).map (fun j => (i, j))) with
      | some (i, j) => .corrected (flipBit (flipBit w i) j)
      | none => .uncorrectable

/-- R321: the positions of the 32 header bits, the integers from 3 to 38 that are not powers of two. -/
def hamPositions : List Nat := (upFrom 3 36).filter (fun p => !(p == 4 || p == 8 || p == 16 || p == 32))

/-- Check bit `j` (0–5) of a header. -/
def hamBit (h j : Nat) : Bool :=
  (hamPositions.zipIdx).foldl (fun acc p => xor acc (p.1.testBit j && h.testBit p.2)) false

/-- The 7-bit check of a header (R321). -/
def hamCheck (h : BitVec 32) : BitVec 7 :=
  let c := lsum ((List.range 6).map (fun j => 2 ^ j * b2n (hamBit h.toNat j)))
  BitVec.ofNat 7 (c + 64 * b2n (xor (parity 32 h.toNat) (parity 6 c)))

/-- The header check of R321: one error corrected, two detected. The result is the corrected header. -/
def checkHeader (h : BitVec 32) (k : BitVec 7) : Option (BitVec 32 × Bool) :=
  if hamCheck h == k then some (h, false)
  else match (List.range 32).find? (fun i => hamCheck (h ^^^ BitVec.ofNat 32 (1 <<< i)) == k) with
    | some i => some (h ^^^ BitVec.ofNat 32 (1 <<< i), true)
    | none =>
      if (List.range 7).any (fun i => hamCheck h == k ^^^ BitVec.ofNat 7 (1 <<< i)) then some (h, true) else none

/-- One bit of the reflected CRC-32C register. -/
def crcBits : Nat → Nat → Nat
  | 0, r => r
  | n + 1, r => crcBits n (if r % 2 = 1 then (r / 2) ^^^ 0x82F63B78 else r / 2)

/-- `n` octets of `b`, lowest first, through the CRC-32C register (R188). -/
def crcOctets : Nat → Nat → Nat → Nat
  | 0, r, _ => r
  | n + 1, r, b => crcOctets n (crcBits 8 (r ^^^ (b % 256))) (b / 256)

/-- CRC-32C of octets: initial value all ones, final inversion. -/
def crc32c (l : List Byte) : Nat := l.foldl (fun r b => crcBits 8 (r ^^^ b.toNat)) 0xFFFFFFFF ^^^ 0xFFFFFFFF

end Sys2Proof.Machine
end

