-- ==== Sys2Proof/Machine/Node.lean ====
section
/-! DEFINITION. The node encoding of chapter 07: opcode map, prefixes, mode byte, sources, destinations, the
illegal-encoding details of R171, and a node's need. -/

namespace Sys2Proof.Machine

/-- A source octet with the immediate that follows it (R150): kind, index (for a 2-octet immediate, its 16 bits), and the
immediate as a 40-bit number. -/
structure Src where
  sk  : Nat
  si  : Nat
  imm : Nat
  deriving DecidableEq, Repr

/-- A destination descriptor (R151). -/
structure Dst where
  bank : Nat
  off  : Nat
  port : Nat
  ita  : Nat
  deriving DecidableEq, Repr

/-- The LOOPB operand (R159, R168). -/
structure Loopb where
  k   : Nat
  lo  : Nat
  w   : Nat
  c   : Nat
  ret : Bool
  deriving DecidableEq, Repr

/-- A decoded node. `srcs` holds operand sources only: the offset immediate of R150 is in `moff` and the function
number of an attachment call in `fn`. -/
structure Node where
  op    : Op
  cls   : Cls
  att   : Nat
  fn    : Nat
  ports : Nat
  ctl   : Bool
  srcs  : List Src
  moff  : Nat
  sw    : Option Nat
  dsts  : List Dst
  len   : Nat
  bank  : Option Nat
  rep   : Option Nat
  wide  : Option Nat
  rnd   : Option Nat
  pri   : Option Nat
  loopb : Option Loopb
  isSeal : Bool
  sat   : Bool
  fix   : Bool
  deriving DecidableEq, Repr

/-- One row of the opcode map: first opcode, class, and the mnemonics at consecutive opcodes. -/
def opcodeRows : List (Nat × Cls × List Op) :=
  [(0x00, .D, [.pass, .steer, .merge, .sync, .const, .sel, .swap, .gate, .feat, .time, .ctxid, .raise]),
   (0x10, .A, [.add, .adc, .sub, .sbb, .neg, .abs, .inc, .dec, .mul, .mulh, .mulhu, .div, .divu, .mac, .min, .max]),
   (0x20, .L, [.and, .or, .xor, .not, .andn, .orn, .xnor]),
   (0x27, .A, [.msub, .minu, .maxu]),
   (0x30, .S, [.shl, .shr, .sar, .rol, .ror, .clz, .ctz, .popc, .bext, .bextu, .bins, .bperm, .sext, .zext]),
   (0x40, .C, [.ceq, .cne, .clt, .cle, .cltu, .cleu, .ctst, .cbit]),
   (0x50, .C, [.ceqb, .cneb, .cltb, .cleb, .cltub, .cleub, .ctstb, .cbitb]),
   (0x60, .M, [.ld, .ldb, .ldbu, .ldh, .ldhu, .ldw, .ldwu]),
   (0x68, .M, [.st, .stb, .sth, .stw, .ird, .iwr, .iclr]),
   (0x70, .Y, [.aadd, .aand, .aor, .axor, .axchg, .acas, .amin, .amax]),
   (0x78, .K, [.lock, .unlock, .trylock]),
   (0x80, .B, [.bld, .bst, .btas, .btac, .bflip, .blts]),
   (0x88, .L, [.band, .bor, .bxor, .bnot]),
   (0x90, .Q, [.flgr, .flgw, .flgtas, .setbank, .getbank, .settrap, .setsub, .setrnd, .getmode]),
   (0xA0, .V, [.i2fx, .fx2i, .fx2f, .f2fx, .i2f, .f2i, .f2iu]),
   (0xB0, .F, [.fadd, .fsub, .fmul, .fdiv, .fsqrt, .fma, .fmin, .fmax, .fneg, .fabs, .fceq, .fclt, .fcle, .fcun,
     .frint, .fclass]),
   (0xC0, .V, [.bcd2i, .i2bcd, .dec2i, .i2dec, .eb2as, .as2eb, .bswap, .brev]),
   (0xD8, .G, [.nop, .halt, .ret, .wfi])]

/-- The XOP page (R155). -/
def xopRows : List (Nat × Cls × List Op) :=
  [(0x00, .G, [.jmp, .bz, .bnz, .jal, .jr, .trapret, .csrr, .csrw]),
   (0x10, .S, [.hash, .crc32c, .pdep, .pext])]

/-- Look an opcode octet up in the rows of a page. -/
def lookupOp (rows : List (Nat × Cls × List Op)) (b : Nat) : Option (Op × Cls) :=
  rows.findSome? (fun r => if r.1 ≤ b then (r.2.2[b - r.1]?).map (fun o => (o, r.2.1)) else none)

/-- The attachments present (R157). -/
def attPresent (a : Nat) : Bool := a == 0 || a == 1 || a == 2 || a == 7

/-- An opcode octet of the primary page with its attachment number (R154, R157). -/
def primaryOp (b : Nat) : Option (Op × Cls × Nat) :=
  if 0xE0 ≤ b && b ≤ 0xE7 && attPresent (b - 0xE0) then some (.att, .T, b - 0xE0)
  else (lookupOp opcodeRows b).map (fun p => (p.1, p.2, 0))

/-- Least and greatest operand-list length of function `f` of attachment `a` (R152): a parameter block after an optional
sequencing operand at attachments 0 and 1 (R269), the operands of R263 at 2; the others are not fixed (log 28). -/
def attRange (a f : Nat) : Nat × Nat :=
  if a = 0 && 1 ≤ f && f ≤ 3 || a = 1 && 1 ≤ f && f ≤ 10 then (1, 2)
  else if a = 2 && (f = 1 || f = 3) then (1, 1)
  else if a = 2 && f = 2 then (3, 3)
  else (1, 15)

/-- Least and greatest operand-list length of an opcode (R152; 08, 09, 12); `attRange` has those of attachment calls. -/
def operandRange (o : Op) (glolet : Bool) : Nat × Nat :=
  let t := if glolet then 0 else 1
  match o with
  | .pass | .merge | .raise | .neg | .abs | .inc | .dec | .not | .bnot | .clz | .ctz | .popc | .settrap | .setsub
  | .setrnd | .i2fx | .fx2i | .fx2f | .f2fx | .i2f | .f2i | .f2iu | .bcd2i | .i2bcd | .eb2as | .as2eb | .bswap
  | .brev | .fsqrt | .fneg | .fabs | .frint | .fclass | .jmp | .jal | .jr => (1, 1)
  | .getmode => (t, t)
  | .const | .feat | .time | .ctxid | .flgr | .flgtas | .getbank => (1 + t, 1 + t)
  | .swap | .steer | .gate | .add | .sub | .mul | .mulh | .mulhu | .div | .divu | .min | .max | .minu | .maxu
  | .and | .or | .xor | .andn | .orn | .xnor | .band | .bor | .bxor | .shl | .shr | .sar | .rol | .ror | .bext
  | .bextu | .bperm | .sext | .zext | .hash | .pdep | .pext | .flgw | .setbank | .dec2i | .i2dec | .fadd | .fsub
  | .fmul | .fdiv | .fmin | .fmax | .fceq | .fclt | .fcle | .fcun | .ceq | .cne | .clt | .cle | .cltu | .cleu
  | .ctst | .cbit | .ceqb | .cneb | .cltb | .cleb | .cltub | .cleub | .ctstb | .cbitb | .bz | .bnz | .csrw => (2, 2)
  | .csrr => (1, 1)
  | .sel | .adc | .sbb | .mac | .msub | .bins | .fma => (3, 3)
  | .sync => (2, 4)
  | .crc32c => (2, 3)
  | .ld | .ldb | .ldbu | .ldh | .ldhu | .ldw | .ldwu | .ird | .iclr | .lock | .unlock | .trylock | .bld | .btas
  | .btac | .bflip => (1, 2)
  | .st | .stb | .sth | .stw | .iwr | .aadd | .aand | .aor | .axor | .axchg | .amin | .amax | .bst | .blts => (2, 3)
  | .acas => (3, 4)
  | .nop | .halt | .ret | .wfi | .trapret => (0, 0)
  | .att => (1, 15)

/-- The destination counts an opcode allows (R152, R181). -/
def dstCountOk (o : Op) (n : Nat) : Bool :=
  match o with
  | .swap | .steer => n == 2
  | .raise => n == 0
  | _ => n ≤ 2

/-- Prefix octets by name (R159). -/
def pfBank : Nat := 0xF0
def pfRep : Nat := 0xF1
def pfSeal : Nat := 0xF2
def pfSat : Nat := 0xF3
def pfRnd : Nat := 0xF4
def pfWide : Nat := 0xF5
def pfFix : Nat := 0xF6
def pfPri : Nat := 0xF7
def pfLoopb : Nat := 0xF8
def pfXop : Nat := 0xF9
def pfAttach : Nat := 0xFA

/-- R156: the prefixes a class, or a named opcode of it, accepts. -/
def prefixOk (o : Op) (c : Cls) (p : Nat) : Bool :=
  if p == pfXop || p == pfAttach || p == pfSeal then true
  else if p == pfPri then c != .G
  else if p == pfLoopb then c != .G && c != .T
  else match c with
  | .D => p == pfWide && [Op.pass, .steer, .merge, .sel, .swap].contains o
  | .A =>
    p == pfWide
    || (p == pfRep && !([Op.div, .divu, .mulh, .mulhu].contains o))
    || (p == pfSat && [Op.add, .adc, .sub, .sbb, .neg, .abs, .inc, .dec, .mul, .mac, .msub].contains o)
    || (p == pfFix && [Op.add, .sub, .neg, .abs, .mul, .div, .mac, .msub, .min, .max].contains o)
    || (p == pfRnd && [Op.mul, .div, .mac, .msub].contains o)
  | .L => p == pfRep || (p == pfWide && !([Op.band, .bor, .bxor, .bnot].contains o))
  | .S => p == pfRep || (p == pfWide && [Op.shl, .shr, .sar, .rol, .ror].contains o) || (p == pfSat && o == .shl)
  | .C => p == pfWide
  | .M => p == pfBank || (p == pfWide && [Op.ld, .st].contains o)
  | .Y | .K => p == pfBank
  | .V => (p == pfRnd && [Op.i2fx, .fx2i, .fx2f, .f2fx, .i2f, .f2i, .f2iu].contains o)
    || (p == pfSat && [Op.fx2i, .f2i, .f2iu, .i2fx].contains o)
  | .F => p == pfRnd || (p == pfRep && [Op.fadd, .fsub, .fmul, .fdiv, .fsqrt, .fma, .fmin, .fmax, .fneg, .fabs].contains o)
  | .B | .Q | .T | .G => false

/-- The opcodes of the Glolet subset (R174). -/
def gloletOp (o : Op) (c : Cls) : Bool :=
  match c with
  | .A | .L | .S | .G => true
  | .C => [Op.ceq, .cne, .clt, .cle, .cltu, .cleu, .ctst, .cbit].contains o
  | .M => !([Op.ird, .iwr, .iclr].contains o)
  | .V => [Op.bcd2i, .i2bcd, .dec2i, .i2dec, .eb2as, .as2eb, .bswap, .brev].contains o
  | .D => [Op.pass, .const, .feat].contains o
  | _ => false

/-- Prefix octets at the front of an instruction (R148). -/
def takePrefixes : List Byte → List Nat × List Byte
  | [] => ([], [])
  | b :: r =>
    if 0xF0 ≤ b.toNat && b.toNat ≤ 0xFA then let q := takePrefixes r; (b.toNat :: q.1, q.2) else ([], b :: r)

/-- `n` octets from the front as a little-endian number, or detail 0x00F where they run out. -/
def takeLe (n : Nat) (l : List Byte) : Except Nat (Nat × List Byte) :=
  if l.length < n then .error 0x00F else .ok (leNat (l.take n), l.drop n)

/-- The operand of prefix `p` (size `n`), if the prefix is present. -/
def takeOperand (pfs : List Nat) (p n : Nat) (l : List Byte) : Except Nat (Option Nat × List Byte) :=
  if pfs.contains p then (takeLe n l).map (fun q => (some q.1, q.2)) else .ok (none, l)

/-- Sign-extend the low `w` bits of `v` to 40 bits. -/
def sext40 (w v : Nat) : Nat :=
  if (v % 2 ^ w).testBit (w - 1) then 2 ^ 40 - 2 ^ w + v % 2 ^ w else v % 2 ^ w

/-- One source octet with its immediate. A 2-octet immediate is kept as its raw 16 bits in `si` beside its sign
extension, for the offset rule of R150. -/
def takeSrc (l : List Byte) : Except Nat (Src × List Byte) := do
  let (b, l) ← takeLe 1 l
  let sk := b / 32
  let si := b % 32
  match sk with
  | 1 => let (v, l) ← takeLe 1 l; pure (⟨1, si, sext40 8 v⟩, l)
  | 2 => let (v, l) ← takeLe 2 l; pure (⟨2, v, sext40 16 v⟩, l)
  | 3 => let (v, l) ← takeLe 5 l; pure (⟨3, si, v⟩, l)
  | _ => pure (⟨sk, si, 0⟩, l)

/-- `n` source octets. -/
def takeSrcs : Nat → List Byte → Except Nat (List Src × List Byte)
  | 0, l => .ok ([], l)
  | n + 1, l => do
    let (s, l) ← takeSrc l
    let (r, l) ← takeSrcs n l
    pure (s :: r, l)

/-- A destination descriptor from its 24 bits (R151). -/
def dstOf (v : Nat) : Dst := ⟨bits v 23 20, bits v 19 4, bits v 3 2, bits v 1 0⟩

/-- `n` destination descriptors. -/
def takeDsts : Nat → List Byte → Except Nat (List Dst × List Byte)
  | 0, l => .ok ([], l)
  | n + 1, l => do
    let (v, l) ← takeLe 3 l
    let (r, l) ← takeDsts n l
    pure (dstOf v :: r, l)

/-- The LOOPB operand from its 24 bits (R159). -/
def loopbOf (v : Nat) : Loopb := ⟨bits v 23 15 + 1, bits v 14 11, bits v 10 7, bits v 6 2, bit v 1⟩

/-- R168: the LOOPB operand is legal. -/
def loopbOk (b : Loopb) : Bool := 1 ≤ b.w && b.lo + b.w ≤ 10 && b.k ≤ 2 ^ b.w

/-- A check that fails with a detail code. -/
def require (ok : Bool) (detail : Nat) : Except Nat Unit := if ok then .ok () else .error detail

/-- The one-octet Glolet forms have neither mode byte nor operands (R154). -/
def bareNode (o : Op) (len : Nat) (pfs : List Nat) : Node :=
  ⟨o, .G, 0, 0, 0, false, [], 0, none, [], len, none, none, none, none, none, none, pfs.contains pfSeal, false, false⟩

/-- The parts of an instruction in their order (R147). `glolet` selects the reading of R173. -/
def parseNode (glolet : Bool) (octets : List Byte) : Except Nat Node := do
  let (pfs, l) := takePrefixes octets
  require (decide pfs.Nodup) 0x002
  require (pfs.length ≤ 4) 0x003
  let (b, l) ← takeLe 1 l
  let attach := pfs.contains pfAttach
  let xop := pfs.contains pfXop
  let (o, c, a) ←
    if attach then (.ok (.att, .T, 0) : Except Nat (Op × Cls × Nat))
    else match (if xop then (lookupOp xopRows b).map (fun p => (p.1, p.2, 0)) else primaryOp b) with
      | some p => .ok p
      | none => .error 0x001
  require (glolet || c != .G) 0x00D
  require (!glolet || gloletOp o c) 0x00D
  if c == .G && !xop then
    require (pfs.all (prefixOk o c)) 0x007
    pure (bareNode o (pfs.length + 1) pfs)
  else
    let (m, l) ← takeLe 1 l
    let tin := bits m 7 6
    let ctl := bit m 5
    let ndst := bits m 4 3
    let nsrc := bits m 2 1
    require (if glolet then tin == 0 && !ctl && ndst == 0 else tin != 3 && ndst != 3 && nsrc != 3) 0x005
    let (bk, l) ← takeOperand pfs pfBank 1 l
    let (rp, l) ← takeOperand pfs pfRep 2 l
    let (wd, l) ← takeOperand pfs pfWide 1 l
    let (rn, l) ← takeOperand pfs pfRnd 1 l
    let (pr, l) ← takeOperand pfs pfPri 1 l
    let (lb, l) ← takeOperand pfs pfLoopb 3 l
    let (at', l) ← takeOperand pfs pfAttach 1 l
    let att := match at' with | some v => v % 16 | none => a
    require (!attach || attPresent att) 0x001
    let (srcs, l) ← takeSrcs nsrc l
    require (srcs.all (fun s => s.sk != 7 && (s.sk != 4 || s.si ≤ 3) && (!glolet || (s.sk != 4 && s.sk != 6)))) 0x005
    require (srcs.all (fun s => s.sk != 5 || pfs.contains pfRep)) 0x00A
    let (swv, l) ← if bit m 0 then (takeLe 1 l).map (fun q => (some (q.1 % 32), q.2)) else .ok (none, l)
    let (dsts, l) ← takeDsts ndst l
    require (dsts.all (fun d => d.ita == 0 || pfs.contains pfLoopb)) 0x00A
    let len := octets.length - l.length
    require (len ≤ 15) 0x004
    -- R150: the offset immediate; R157: the function number
    let mem := c == .M || c == .Y || c == .K
    let off := match srcs.getLast? with | some s => if mem && s.sk == 2 then some s.si else none | none => none
    let srcs1 := if off.isSome then srcs.dropLast else srcs
    require (!(c == .T && !attach) || (match srcs1.head? with | some s => s.sk == 1 | none => false)) 0x006
    let fn := if c == .T then (if attach then b else match srcs1.head? with | some s => s.imm % 256 | none => 0) else 0
    let srcs2 := if c == .T && !attach then srcs1.drop 1 else srcs1
    let ports := if glolet then 0 else tin + 1
    let n : Node :=
      { op := o, cls := c, att := att, fn := fn, ports := ports, ctl := ctl, srcs := srcs2, moff := off.getD 0,
        sw := swv, dsts := dsts, len := len, bank := bk.map (· % 4), rep := rp, wide := wd.map (· % 64),
        rnd := rn.map (· % 4), pri := pr.map (· % 8), loopb := lb.map loopbOf, isSeal := pfs.contains pfSeal,
        sat := pfs.contains pfSat, fix := pfs.contains pfFix }
    require (pfs.all (prefixOk o c)) 0x007
    require (!(pfs.contains pfRep && pfs.contains pfLoopb) && !(pfs.contains pfWide && pfs.contains pfFix)
      && (!attach || pfs.all (fun p => p == pfAttach || p == pfSeal || p == pfPri))
      && !(c == .A && pfs.contains pfRnd && !(pfs.contains pfFix))) 0x008
    match n.wide with
    | some w =>
      require (w != 0 && (!(bit w 4) || srcs2.all (fun s => s.sk != 0 || s.si % 2 == 0))
        && (!(bit w 5) || (match swv with | some i => i % 2 == 0 | none => true))) 0x00B
    | none => pure ()
    match n.loopb with
    | some b =>
      require (loopbOk b && swv != some b.c
        && (!b.ret || (match dsts.getLast? with | some d => d.port == 3 && d.ita == 0 | none => false))) 0x00C
    | none => pure ()
    let cnt := ports + srcs2.length
    let (lo, hi) := if o == .att then attRange att fn else operandRange o glolet
    require (!(mem && off.isSome && cnt < lo)) 0x00E
    require (lo ≤ cnt && cnt ≤ hi) 0x006
    require (o != .merge || (ports == 1 && srcs2.isEmpty)) 0x006
    require (glolet || dstCountOk o ndst) 0x006
    require (glolet || swv.isNone || !(c == .M || c == .Y || c == .K || c == .B || c == .T)) 0x010
    pure n

/-- The number of arrivals a port of a node takes (R153): 2 where the WIDE mask names it. -/
def portCount (wide : Option Nat) (p : Nat) : Nat := match wide with | some w => if bit w p then 2 else 1 | none => 1

/-- A node's need (R54, R153). -/
def Node.need (n : Node) : Nat := lsum ((List.range n.ports).map (portCount n.wide)) + b2n n.ctl

/-- R171: the parts run past fifteen octets that are there, which makes the instruction too long and not cut off. -/
def longNode (octets : List Byte) (r : Except Nat Node) : Except Nat Node :=
  match r with
  | .error 0x00F => .error (if 15 ≤ octets.length then 0x004 else 0x00F)
  | _ => r

/-- Decode a fabric node: the octets from its address to the end of its code bank, at most fifteen (R171). -/
def decodeNode (octets : List Byte) : Except Nat Node := do
  let n ← longNode octets (parseNode false octets)
  require (n.need ≤ 5) 0x009
  pure n

/-- Decode an instruction of Glolet code (R173, R174); the core accepts the prefixes BANK, REP, SEAL, SAT, WIDE and XOP
(R172). -/
def decodeGlolet (octets : List Byte) : Except Nat Node := do
  let n ← longNode octets (parseNode true octets)
  require ((takePrefixes octets).1.all (fun p => [pfBank, pfRep, pfSeal, pfSat, pfWide, pfXop].contains p)) 0x007
  pure n

/-- Bit `i` of the WIDE mask. -/
def Node.wideBit (n : Node) (i : Nat) : Bool := match n.wide with | some w => bit w i | none => false

/-- The most tokens that a firing of a node forms: a result to each destination, a permission beside it or in its place, and
an exception token. -/
def Node.maxTokens (n : Node) : Nat := n.dsts.length * ((if n.wideBit 3 then 2 else 1) + b2n n.loopb.isSome) + 1

/-- What the matching store reads of a node through its mode byte and WIDE mask (R54): ports, control input, mask. -/
def nodeShape (octets : List Byte) : Nat × Bool × Option Nat :=
  let (pfs, l) := takePrefixes octets
  let m := match l with | _ :: m :: _ => m.toNat | _ => 0
  let skip := 2 + b2n (pfs.contains pfBank) + 2 * b2n (pfs.contains pfRep)
  let w := if pfs.contains pfWide then some (((l[skip]?).getD 0).toNat % 64) else none
  (min 3 (bits m 7 6 + 1), bit m 5, w)

/-- The need of a shape (R153). -/
def shapeNeed (s : Nat × Bool × Option Nat) : Nat := lsum ((List.range s.1).map (portCount s.2.2)) + b2n s.2.1

/-- The operations that read `SUBNORMAL` (R209), and those that read `ROUNDING` unless RND is there (R163, R203, R206). -/
def Node.readsModes (n : Node) : Bool :=
  (n.cls == .F && !([Op.fneg, .fabs, .fclass].contains n.op)) || [Op.f2fx, .f2i, .f2iu].contains n.op
    || (n.rnd.isNone && ([Op.i2fx, .fx2i, .fx2f, .i2f].contains n.op || n.fix))

/-- R43: the node uses frame state: it reads or writes a slot, flag, bank register or mode field, or a frame field
that `CTXID` or `TIME` returns. -/
def Node.usesFrame (n : Node) : Bool :=
  n.readsModes ||
  n.sw.isSome || n.srcs.any (fun s => s.sk == 0 || s.sk == 4) || n.cls == .Q || n.cls == .M || n.cls == .Y
    || n.cls == .K || n.loopb.isSome || n.op == .ctxid || n.op == .time
    || (match n.rep with | some v => bit v 15 | none => false)

end Sys2Proof.Machine
end

