-- ==== Sys2Proof/Machine/Flags.lean ====
section
/-! DEFINITION. STATUS computation (R30, R178, R182): the status word, signed and unsigned views of operands, and
narrowing of exact results with and without SAT. -/

namespace Sys2Proof.Machine

/-- A STATUS value from its five bits, `V` in bit 4 down to `I` in bit 0 (R26). -/
def mkStatus (v c z x i : Bool) : Nat := 16 * b2n v + 8 * b2n c + 4 * b2n z + 2 * b2n x + b2n i

/-- STATUS with `I` alone. -/
def stI : Nat := 1

/-- The signed reading of the low `w` bits (R177). -/
def sgn (w : Nat) (v : Nat) : Int := if (v % 2 ^ w).testBit (w - 1) then (v % 2 ^ w : Nat) - (2 : Int) ^ w else (v % 2 ^ w : Nat)

/-- An exact integer reduced modulo 2^w. -/
def wrap (w : Nat) (i : Int) : Nat := (i % (2 : Int) ^ w).toNat

/-- An exact integer lies in the signed range of width `w`. -/
def inRange (w : Nat) (i : Int) : Bool := decide (-(2 : Int) ^ (w - 1) ≤ i) && decide (i ≤ (2 : Int) ^ (w - 1) - 1)

/-- Clamp to the limits, with `V` exactly when the value is clamped (R162). -/
def clamp (lo hi i : Int) : Int × Bool := if i > hi then (hi, true) else if i < lo then (lo, true) else (i, false)

/-- An exact signed result narrowed to width `w`: wrapped with `V` on overflow, or clamped to the symmetric range
under SAT (R162, R182). -/
def narrow (w : Nat) (sat : Bool) (i : Int) : Nat × Bool :=
  if sat then
    let q := clamp (-((2 : Int) ^ (w - 1) - 1)) ((2 : Int) ^ (w - 1) - 1) i
    (wrap w q.1, q.2)
  else (wrap w i, !(inRange w i))

/-- Round the magnitude `num / den` of a value of the given sign: nearest-even, toward zero, up, down (R203). The
second component says whether a non-zero part was discarded. -/
def roundMag (mode : Nat) (neg : Bool) (num den : Nat) : Nat × Bool :=
  let q := num / den
  let r := num % den
  let up := match mode with
    | 0 => 2 * r > den || (2 * r == den && q % 2 == 1)
    | 1 => false
    | 2 => r != 0 && !neg
    | _ => r != 0 && neg
  (if up then q + 1 else q, r != 0)

/-- Round the exact quotient of an integer by a positive number. -/
def roundInt (mode : Nat) (num : Int) (den : Nat) : Int × Bool :=
  let q := roundMag mode (decide (num < 0)) num.natAbs den
  (if num < 0 then -(q.1 : Int) else (q.1 : Int), q.2)

/-- A FIX result: narrowed to F40, or clamped to the Q1.31 target under SAT (R202, R204). -/
def narrowFix (sat : Bool) (i : Int) : Nat × Bool :=
  if sat then
    let q := clamp (-(2 : Int) ^ 31) ((2 : Int) ^ 31 - 1) i
    (wrap 40 q.1, q.2)
  else (wrap 40 i, !(inRange 40 i))

end Sys2Proof.Machine
end

