-- ==== Sys2Proof/Machine/FabTypes.lean ====
section
/-! DEFINITION. State of the fabric: spill queues, tokens and firings, match entries, frames, cluster positions,
routers, the overflow table, parking (chapters 02, 03, 04, 05 and 14). Plain data only. -/

namespace Sys2Proof.Machine

/-- A spill queue (R90–R98). `head` holds the retained cells (between `REL` and `RD`) and then the unread cells of the
head window, `mid` the spilled middle, `tail` the tail window, `held` the writes held while a burst is in flight. -/
structure SQ (α : Type) where
  on      : Bool
  head    : List α
  mid     : List α
  tail    : List α
  held    : List α
  wr      : Nat
  rd      : Nat
  rel     : Nat
  mark    : Option Nat
  full    : Bool
  overrun : Bool
  above   : Bool
  deriving DecidableEq, Repr

/-- An arrival held in a match entry (R57): port, half bit, value, kind, status. -/
structure Arr where
  port  : Nat
  half  : Bool
  value : Nat
  kind  : Nat
  st    : Nat
  deriving DecidableEq, Repr

/-- A match entry (R53, R57): 60-bit key, need, highest flit priority, arrivals in arrival order. -/
structure MEntry where
  key  : Nat
  need : Nat
  pri  : Nat
  arrs : List Arr
  deriving DecidableEq, Repr

/-- A way of the on-die match cache: an entry and when it was last touched. -/
structure Way where
  ent     : MEntry
  touched : Nat
  deriving DecidableEq, Repr

/-- A token waiting at a match input or on a probe: payload and flit priority. -/
structure Arrival where
  pl  : W128
  pri : Nat
  waited : Bool                   -- it has passed its check and waits
  counted : Bool                  -- its wait for a free probe has been counted
  deriving DecidableEq, Repr

/-- An overflow probe in flight (R66, R67) with the arrivals that wait on it, the first one being its own. -/
structure Probe where
  key  : Nat
  arrs : List Arrival
  deriving DecidableEq, Repr

/-- A firing: its tokens and its priority (R83). -/
structure Firing where
  toks : List W128
  pri  : Nat
  deriving DecidableEq, Repr

/-- A firing set aside in the frame-wait buffer (R82) and when. -/
structure FWait where
  f     : Firing
  since : Nat
  deriving DecidableEq, Repr

/-- A context's frame record (R40–R42). -/
structure Frame where
  ctx        : Nat
  gen        : Nat
  rolledBack : Bool
  template   : Nat
  classPri   : Nat
  effPri     : Nat
  trapMask   : Nat
  subnormal  : Bool
  rounding   : Nat
  excEntry   : Nat
  resumeNode : Nat
  resumePort : Nat
  partner    : Nat
  ring       : Nat
  ingressNs  : Nat
  deadlineUs : Nat
  banks      : List Nat
  flags      : Nat
  slots      : List Nat
  deriving DecidableEq, Repr

/-- A line of a cluster's frame cache: the frame, whether it differs from HBM, when it was last fired. -/
structure FLine where
  fr    : Frame
  dirty : Bool
  used  : Nat
  deriving DecidableEq, Repr

/-- A firing in a cell: its tokens as they passed their check, and the octets of its node as they were fetched; none
while the fetch waits for a reload of its code line (R89). -/
structure InCell where
  f   : Firing
  oct : Option (List Byte)
  deriving DecidableEq, Repr

/-- A cell: the firings that have begun and wait for its execute stage, oldest first, until when that stage is held, whether
the firing that holds it had an effect, and slots counted for the firing at the head whose outcome is not yet known (R413). -/
structure Cell where
  pipe   : List InCell
  busy   : Nat
  effect : Bool
  slots  : Nat
  deriving DecidableEq, Repr

/-- The state of a cluster position (0x8010:n). -/
inductive PosState where
  | off | standby | inService | failed
  deriving DecidableEq, Repr

/-- One cluster position with everything the cluster holds. -/
structure Pos where
  st       : PosState
  logical  : Option Nat
  spare    : Bool
  isolated : Bool                 -- under a rolling or full test, or draining for one
  rq       : List (SQ Firing)     -- eight ready queues, index = priority
  fwait    : List FWait
  lines    : List FLine           -- frame cache
  ways     : List Way             -- match cache, least recently touched first
  wb       : List (MEntry × Bool) -- write-back buffer; true = moved by the sweeper
  probes   : List Probe
  in1      : List Arrival         -- match input, VC1
  in0      : List Arrival         -- match input, VC0
  code     : List Nat             -- loaded code line keys, bank × 1024 + OFFSET[15:6]
  badCode  : List Nat             -- loaded lines waiting for a reload
  cells    : Tab Cell
  pace     : Nat                  -- measured pace
  lowWin   : Nat                  -- consecutive windows below 1,000
  okWin    : Nat                  -- consecutive windows at 1,000 or more since a shortfall
  short    : Bool                 -- pace shortfall stands
  credit   : Nat                  -- credited pace of the keyway (R136)
  swept    : Nat                  -- when the sweeper may handle its next entry
  coldUs   : Nat                  -- cold age in force since the last sweep (R77)
  deriving DecidableEq, Repr

/-- A flit: header, its side-wire check, payload (R321, R322). -/
structure Flit where
  hdr : BitVec 32
  chk : BitVec 7
  pl  : W128
  deriving DecidableEq, Repr

/-- A flit in a router input buffer and when it reached the head of its queue. -/
structure Buf where
  f     : Flit
  since : Nat
  deriving DecidableEq, Repr

/-- A router: two route banks (absent = 0xFFF0, R327), input buffers keyed port × 4 + VC, packets waiting for the
local input, round-robin pointers and VC3 starvation counts per output (R326). -/
structure Router where
  bank0 : Tab Nat
  bank1 : Tab Nat
  bufs  : Tab (List Buf)
  inj   : List Buf
  rr    : Tab Nat
  vc3   : Tab Nat
  deriving DecidableEq, Repr

/-- A linked overflow entry: pool index and the four words in HBM (R57), newest first in a chain (R65). -/
structure OvfEnt where
  idx : Nat
  ws  : List W128
  deriving DecidableEq, Repr

/-- A partition's free list: returned indices on top of the never-used range (R64). -/
structure FreeList where
  returned : List Nat
  fresh    : Nat
  deriving DecidableEq, Repr

/-- State of a route swap (R334). -/
inductive SwapSt where
  | idle | flipping | draining
  deriving DecidableEq, Repr

/-- What the ward writes into the shadow bank before a swap of its own (R400, R403): nothing; routes of a logical cluster
to its new position; `PARK` set, or clear, at its index. -/
inductive ShadowWr where
  | none | routes | park | unpark
  deriving DecidableEq, Repr

/-- Power domains being taken down or up (R338), and swaps that the ward asks for (R400, R403): positions concerned and
the step reached. -/
structure Domain where
  sub    : Nat                    -- the request's [14:0] field; for a swap of the ward the logical cluster
  positions : List Nat
  up     : Bool
  step   : Nat                    -- 0 waits for its swap, 1 swap runs, 2 draining, 3 rails rising
  since  : Nat
  wr     : ShadowWr
  deriving DecidableEq, Repr

/-- The network's device-wide state (chapter 14). -/
structure Noc where
  routers  : Tab Router
  place    : Tab Nat              -- placement table (R329)
  home     : Tab Nat              -- home map (R330)
  epoch    : List Bool            -- current epoch of VC0–VC3
  swap     : SwapSt
  changed  : List Nat             -- changed indices of the last swap
  held     : List (Nat × Flit)    -- packets held at injection: router and flit
  relVc    : List Nat             -- VCs already released in this swap
  swapQ    : Nat                  -- swaps asked for by domains while one runs
  down     : List (Nat × Nat)     -- output ports marked down: router, port
  park     : Tab (SQ Flit)        -- parking queues by die × 32 + logical cluster
  parkIn   : List Flit            -- packets delivered to the parking agent
  replay   : List Nat             -- parking queues whose replay is due or runs
  domains  : List Domain
  linkOut  : List Flit            -- tokens delivered to the Fyurn link agent
  mgmt     : List (Nat × Nat × Nat) -- inheritance signals in flight: position, context, priority
  deriving DecidableEq, Repr

/-- Device-wide fabric state. -/
structure Fab where
  pos      : Tab Pos
  gens     : Tab Nat              -- generation table: [5:0] generation, [6] Active (R48)
  frames   : Tab Frame            -- frame records in HBM (R40)
  heads    : Tab (List OvfEnt)    -- overflow chains by die × 2^24 + context (head table, pool entries)
  free     : Tab FreeList         -- overflow free lists by die
  leaked   : Nat
  leakRep  : Bool                 -- the leak count is past its level and that was reported
  reserved : Nat                  -- OVF_RESERVED
  mOpen    : Bool
  spillRes : Nat                  -- SPILL_RESERVED
  sOpen    : Bool
  stallSince : Tab Nat            -- per die: since when the stall condition has held
  stallMap : Tab Nat              -- STALL_CLUSTERS
  stallHold : List Nat            -- dies under the containment of a fabric stall
  noc      : Noc
  deriving DecidableEq, Repr

end Sys2Proof.Machine
end

