-- ==== Sys2Proof/Machine/JnlTypes.lean ====
section
/-! DEFINITION. State of the journal engine and the timebase (chapter 13). Plain data only. -/

namespace Sys2Proof.Machine

/-- A journal record before it is appended (R295–R297): everything but `SEQ` and `LINK`. -/
structure JRec where
  lane    : Nat
  time    : Nat                  -- TIME80 of the event
  typ     : Nat
  reason  : Nat
  flags   : Nat
  session : Nat
  partner : Nat
  ring    : Nat
  tpl     : Nat
  corr    : Nat
  ingress : Nat
  resp    : Option Nat
  typeCode : Nat
  app     : List Nat
  detail  : Nat
  actor   : Nat
  role    : Nat
  deriving DecidableEq, Repr

/-- A journal lane: last sequence number, chain value (empty = still the genesis value of R299), waiting records. -/
structure Lane where
  seq   : Nat
  h     : List Byte
  queue : List JRec
  deriving DecidableEq, Repr

/-- The journal engine. Ring records by position modulo capacity; checkpoints in the seal store by slot. -/
structure Jnl where
  lanes    : Tab Lane
  ring     : Tab (List Byte)
  appended : Nat
  exported : Nat
  closed   : Bool
  waitQ    : List JRec           -- types 0x05–0x07, 0x09, 0x0B without room
  supp     : Tab (Nat × Nat)     -- by type × 256 + reason: count and first EVENT_TIME
  epoch    : Nat
  start    : Nat                 -- TIME80 of the epoch's start
  genPrev  : List Byte           -- SHA-384 of the last checkpoint of the previous epoch
  sinceCut : Nat
  cutAt    : Nat                 -- when the last checkpoint was cut
  epochRec : Nat                 -- records appended in the epoch
  ckptNo   : Nat                 -- last checkpoint number used
  ckptLast : Nat                 -- last checkpoint written
  cuts     : List (List Byte)    -- checkpoints cut and not yet written, octets 0x000–0x3DF, oldest first
  ckpts    : Tab (List Byte)
  prev     : List Byte           -- SHA-384 of the last checkpoint written
  posted   : Nat                 -- records handed to the export path and not yet acknowledged
  marks    : List (Nat × Nat)    -- mode 2: the TCP sequence number at which records end, and how many
  deriving DecidableEq, Repr

/-- The states of the timebase (R309). -/
inductive TbState where
  | unset | freeRun | acquiring | locked | holdover | refLost
  deriving DecidableEq, Repr

/-- The timebase, PPS and PTP. `slew` is the offset still to be slewed in ns; `slewAcc` counts ticks towards the next
slewed ns. -/
structure Tb where
  st        : TbState
  src       : Nat                -- source being acquired, locked to or held over from
  ever      : Bool               -- Locked at some time
  waitLock  : Bool
  good      : Nat                -- consecutive measurements within 2 ns
  slew      : Int
  slewAcc   : Nat
  step      : Option Nat         -- TAI_SET waiting for its edge or second
  lastMeas  : Nat                -- when the source was last heard
  edge      : Option Nat         -- `up` at the last PPS_IN edge
  capture   : Nat                -- capture of the last PPS_IN edge, TIME80 with its fraction
  hold      : Nat                -- when Holdover began
  pps       : Nat                -- PPS_OUT pins
  ppsOff    : Tab Nat            -- when each pin falls
  ptpPend   : Tab (Nat × Nat × Int) -- per port: two-step Sync that awaits its Follow_Up: sequence, receipt, correction
  ptpFwd    : Tab Int            -- per port: receipt minus origin of the last Sync, 1/256 ns
  ptpReq    : Tab (Nat × Nat)    -- per port: Delay_Req or Pdelay_Req that awaits its answer, sequence and sending
  ptpPd     : Tab (Nat × Nat)    -- per port: receipts of the two-step Pdelay exchange, remote and local
  ptpDelay  : Tab Int            -- per port: measured mean path delay, 1/256 ns
  ptpMaster : Tab (Nat × Nat)    -- per port: best foreign master announced: its ordering key, when last heard
  ptpSent   : Tab Nat            -- per port: when the last Sync was sent
  ptpSeq    : Tab Nat            -- next sequence number per port × 16 + message kind
  ptpOut    : List (Nat × PtpMsg) -- PTP messages sent, by port
  deriving DecidableEq, Repr

end Sys2Proof.Machine
end

