-- ==== Sys2Proof/Machine/UnitTypes.lean ====
section
/-! DEFINITION. State of structure memory, the bit store and the hasp unit (chapter 10), the keyway and timer wheel
(chapters 01, 02 and 06), the fault unit (chapter 17) and the counter blocks (chapter 18). Plain data only. -/

namespace Sys2Proof.Machine

/-- Where a split-phase result goes: destination as `TAG`[23:2] (node and port) and the `ITER` formed for it (R80). -/
structure Dest where
  node : Nat
  port : Nat
  iter : Nat
  deriving DecidableEq, Repr

/-- A split-phase request as it travels: whose it is, the issuing node, its exception entry (R34), the flit priority of
its results and that of its exception token (R165), the result destinations, and whether the result is a pair. -/
structure Req where
  ctx  : Nat
  gen  : Nat
  iter : Nat
  node : Nat
  exc  : Nat
  pri  : Nat
  epri : Nat
  pair : Bool
  dsts : List Dest
  deriving DecidableEq, Repr

/-- A deferred I-structure read (R228): its granule, the address of its value, and the request. -/
structure Defer where
  gran : Nat
  ea   : Nat
  req  : Req
  deriving DecidableEq, Repr

/-- Structure memory, bit store and deferral table. -/
structure Mem where
  cells    : List (Nat × Byte)    -- structure memory, canonical
  bitOct   : List (Nat × Byte)    -- bit store by octet, canonical
  present  : Tab Bool             -- I-structure presence by granule
  poison   : Tab Nat              -- poisoned codewords by space × 2^40 + address / 32: octets rewritten since
  defers   : List Defer           -- oldest first
  sweep    : Nat                  -- deferral sweeper position
  lines    : List Nat             -- lines in the bit-store cache
  deriving DecidableEq, Repr

/-- A lock entry (R231) at its table index; waiting slots oldest first. -/
structure LockEnt where
  ea      : Nat
  orphan  : Bool
  hctx    : Nat
  hgen    : Nat
  hslot   : Nat
  next    : Nat
  waiters : List Nat
  deriving DecidableEq, Repr

/-- A queued `LOCK` (R232): the lock entry it waits on and the request. -/
structure LockWait where
  entry : Nat
  req   : Req
  deriving DecidableEq, Repr

/-- A waiter slot (R232); held lock entries, newest first. -/
structure HSlot where
  ctx    : Nat
  gen    : Nat
  pri    : Nat
  queued : Option LockWait
  held   : List Nat
  deriving DecidableEq, Repr

/-- The hasp unit. -/
structure Hasp where
  locks : Tab LockEnt
  slots : Tab HSlot
  low   : Bool                    -- LOCK_TABLE_LOW
  deriving DecidableEq, Repr

/-- The states of a timer-wheel entry (R21). -/
inductive TState where
  | armed | parked | resumed | standing | claimed
  deriving DecidableEq, Repr

/-- A backlog charge (R137): class, the charge, the ticks it is drawn over, ticks done, what is left. -/
structure Charge where
  cls   : Nat
  x     : Nat
  d     : Nat
  ticks : Nat
  left  : Nat
  since : Nat                     -- the timebase instant it was made
  deriving DecidableEq, Repr

/-- A life of a context: everything the keyway, timer wheel and composer keep of it. -/
structure Life where
  ctx      : Nat
  gen      : Nat
  tpl      : Nat
  graph    : Nat
  partner  : Nat
  ring     : Nat
  session  : Nat
  home     : Nat                  -- die × 32 + logical cluster
  st       : TState
  ingress  : Nat                  -- ingress instant, ns
  arrived  : Bool                 -- the last byte has been written
  ddlUs    : Nat                  -- applicable deadline
  due      : Nat                  -- due time, whole µs in ns
  fb       : Nat                  -- fallback point, ns
  timer    : Bool                 -- a timer is outstanding
  charge   : Option Charge
  commit   : Nat × Nat × Nat      -- committed symmetric calls, tumbler calls, locks
  forwarded : Bool
  byStandin : Bool                -- a deadline token was injected
  respNs   : Option Nat           -- egress instant of the response
  respDone : Bool                 -- its last byte is in the egress ring
  flags    : Nat                  -- journal flags gathered so far
  app      : List Nat             -- journal application words
  typeCode : Nat
  lexing   : Bool                 -- its record is still being lexed
  refusal  : Option Dest          -- RETURN of a proxy context (R350)
  retCtx   : Nat                  -- remote correlation of a proxy context
  match_   : Nat                  -- match-entry footprint reserved
  spill    : Nat                  -- spill footprint reserved
  deriving DecidableEq, Repr

/-- A reclamation in progress (R123 step 7): the ended life, its journal record, the purge trigger's time, and the records
of late replies, which follow the purge record (R308). -/
structure Reclaim where
  life  : Life
  jrec  : JRec
  since : Nat
  late  : List JRec
  deriving DecidableEq, Repr

/-- A reject waiting for the reject lane (R135). -/
structure Reject where
  ring    : Nat
  session : Nat
  partner : Nat
  tpl     : Nat
  code    : Nat
  msg     : List Byte
  typeCode : Nat
  ingress : Nat
  early   : Bool                  -- taken before its ingress instant
  taken   : Nat                   -- when its signal was taken
  deriving DecidableEq, Repr

/-- A raised cut-through signal (R96): the ring and the instant. -/
structure Signal where
  ring : Nat
  at_  : Nat
  deriving DecidableEq, Repr

/-- The keyway and the timer wheel. -/
structure Key where
  lives    : Tab Life
  freshCtx : Nat                  -- context numbers never yet allocated or moved start here
  freeTail : List (Nat × Option Nat) -- the rest of the free queue: number and purge count at its purge
  tpls     : Tab (List Byte)      -- contract template records (R127)
  sel      : Tab Nat              -- selection entries by partner × 64 + entry
  rot      : Tab Nat              -- home rotation by graph slot
  signals  : List Signal
  rejects  : List Reject
  reclaim  : List Reclaim         -- purged lives whose storage is being reclaimed
  shares   : Tab (Nat × Nat × Nat) -- *q*, *q*ʳ, *q*ˢ by template slot, from when it became usable (R129)
  paceAt   : Option Nat           -- the microsecond whose pace window ended last (R102)
  deriving DecidableEq, Repr

/-- States of a fault source (R391). -/
inductive SrcSt where
  | idle | opened | acked | deadbolted
  deriving DecidableEq, Repr

/-- A fault source's running state. -/
structure FSrc where
  st     : SrcSt
  cls    : Nat                    -- class of the open condition
  subs   : List Nat               -- eight sub-window counts, current first
  locs   : Tab (List Nat)         -- the same per location (R390)
  grace  : Option Nat             -- when the grace timer ends
  quiet  : Nat                    -- time of the latest event
  action : Nat                    -- deadbolt action in force
  loc    : Nat                    -- location of the opening event
  tick   : Nat                    -- when the current sub-window began
  deriving DecidableEq, Repr

/-- A history entry (R396). -/
structure HEnt where
  first  : Nat                    -- TIME80
  lastNs : Nat
  src    : Nat
  cls    : Nat
  count  : Nat
  loc    : Nat
  estate : Nat
  acked  : Bool
  dead   : Nat
  seq    : Nat
  lastUp : Nat                    -- when the latest event merged (not part of the 256 bits)
  deriving DecidableEq, Repr

/-- A condition reported to the fault unit and not yet handled. -/
structure FEvent where
  src : Nat
  loc : Nat
  deriving DecidableEq, Repr

/-- The fault unit. -/
structure Faults where
  queue   : List FEvent
  srcs    : Tab FSrc
  hist    : List HEnt             -- sixteen entries
  seq     : Nat
  resetPending : Bool             -- deadbolt action 3 waits for CTX_ACTIVE 0
  resetSrc : Nat
  injLeft : Nat                   -- INJ_REMAINING
  inj     : Nat × Nat × Nat × Nat -- armed checker, mode, bits, location
  deriving DecidableEq, Repr

/-- A programmable counter (R409, R410, R418). -/
structure Ctr where
  cfg   : Nat
  count : Nat
  wrap  : Bool
  held  : Bool                    -- the condition held at the last look (edge mode)
  deriving DecidableEq, Repr

/-- The counter blocks. -/
structure Perf where
  ctrs    : Tab Ctr               -- by block × 8 + counter
  ovfQ    : List (Nat × Nat × Nat) -- overflow queue: block, counter, CFG_ID
  skipped : Bool                  -- the next dump carries SKIPPED_BEFORE
  lastDump : Nat
  dumpBusy : Nat                  -- until when the last dump is being written
  slots   : Tab Nat               -- slot totals: position × 8 + category
  deriving DecidableEq, Repr

end Sys2Proof.Machine
end

