-- ==== Sys2Proof/Machine/CryTypes.lean ====
section
/-! DEFINITION. State of the tumbler engines, symmetric lanes, keyring, DRBG instances and tamper mesh (chapter 12).
Plain data only. -/

namespace Sys2Proof.Machine

/-- A key of the keyring: attribute word (R282), secret octets, public octets, the `IK` of a B1 key, and the number of its
installation. -/
structure KeyRec where
  attr : Nat
  sec  : List Byte
  pub  : List Byte
  ik   : List Byte
  ser  : Nat
  deriving DecidableEq, Repr

/-- A crypto call as it waits or runs: attachment, function, the request, the graph, its parameter block octets, and the
firing's node for exceptions is in the request. -/
structure CCall where
  att   : Nat
  fn    : Nat
  req   : Req
  graph : Nat
  block : List Byte
  at_   : Nat                     -- when the call was emitted
  deriving DecidableEq, Repr

/-- A busy graph slot of an engine or lane: the call, when its operation ends, the keys fetched. -/
structure CSlot where
  call    : CCall
  started : Bool
  done    : Nat
  key1    : Option KeyRec
  key2    : Option KeyRec
  deriving DecidableEq, Repr

/-- Work of an engine's slot 8 (R273). -/
inductive Job where
  | ckpt (number : Nat)
  | handshake (session : Nat)
  | image (key : Nat)
  | firmware
  deriving DecidableEq, Repr

/-- The crypto units. -/
structure Cry where
  ring     : Nat                  -- 0 Empty, 1 Ready, 2 Zeroized
  keys     : Tab KeyRec           -- the wrapped keys by handle; readable under the master key
  made     : Nat                  -- keys installed so far
  cached   : List Nat             -- handles in the key cache, most recently used first
  master   : List Byte            -- the device master key on the die; empty where there is none
  sealed_  : List Byte            -- the master key that the seal store holds sealed
  slots    : Tab CSlot            -- engine × 64 + slot, and 0x10000 + lane × 64 + slot
  tq       : List CCall
  lq       : List CCall
  slot8    : Tab (List Job)
  rot8     : Nat
  deleting : List (Nat × JRec)    -- deletions waiting for slots that hold the key, with their journal records
  impBlock : List Byte
  impSt    : Nat
  expSt    : Nat
  expBlock : List Byte
  genSt    : Nat
  comps    : List (Nat × List Byte) -- components entered: session and octets
  compChk  : List Byte
  zero     : Option (Nat × Nat)   -- zeroization under way: when triggered, step reached
  meshFail : Nat                  -- consecutive mesh comparison failures
  mesh     : Nat                  -- pattern driven on MESH_OUT
  drbg     : Nat                  -- bit per instance that produces
  reqs     : Tab Nat              -- generate requests since the last reseed, per instance
  seededAt : Tab Nat
  deriving DecidableEq, Repr

end Sys2Proof.Machine
end

