-- ==== Sys2Proof/Machine/LinkTypes.lean ====
section
/-! DEFINITION. State of the Fyurn links, proxies, Ethernet ports and the PCIe port (chapter 15). Plain data only. -/

namespace Sys2Proof.Machine

/-- Link port states (R341), in the code order of `LINK_STATE`. -/
inductive LinkState where
  | disabled | training | up | retraining | down
  deriving DecidableEq, Repr

/-- A flit word (R342); the port in whose receive buffer it stands, and the instant of its receipt. -/
structure LWord where
  flit : Flit
  ddev : Nat
  odev : Nat
  hops : Nat
  seq  : Nat
  inp  : Option Nat
  at_  : Nat
  deriving DecidableEq, Repr

/-- A link port. Credits per VC; sent and unacknowledged words; receive buffer slots freed per VC since the last credit
word; words waiting for credit; the 256-bit words put on the wire, control words and replays among them; the rate taken
at Training. -/
structure Link where
  st      : LinkState
  since   : Nat
  seqTx   : Nat
  seqRx   : Nat
  awaiting : Bool                 -- a retry was requested and its word has not arrived
  replay  : List LWord
  credits : List Nat
  rxCnt   : List Nat
  since64 : Nat
  retries : List Nat              -- times of the retry requests of the last 1 ms
  txq     : List LWord
  sent    : List Nat
  aligned : Bool
  rate    : Nat
  deriving DecidableEq, Repr

/-- A proxy entry (R348). -/
structure Proxy where
  odev  : Nat
  octx  : Nat
  ogen  : Nat
  ctx   : Nat
  gen   : Nat
  sel   : Nat
  first : Bool                    -- the first return token has been presented
  deriving DecidableEq, Repr

/-- A token from a link that waits for the decision of its origin triple. -/
structure LTok where
  odev : Nat
  pl   : W128
  pri  : Nat
  at_  : Nat
  deriving DecidableEq, Repr

/-- A PCIe queue pair as set through BAR0. -/
structure Qp where
  subLen : Nat
  cplLen : Nat
  head   : Nat
  cpl    : List (Nat × Nat)        -- completions: entry, status
  bufs   : List (Nat × Nat)        -- host buffers posted and not yet used: entry and octets
  deriving DecidableEq, Repr

/-- Links, proxies, Ethernet and PCIe. -/
structure Lnk where
  links   : Tab Link
  dr0     : Tab Nat
  dr1     : Tab Nat
  proxies : List Proxy
  decide_ : List LTok             -- tokens to a link entry node waiting for the keyway
  hold    : List LTok             -- further tokens of a triple under decision
  wait    : List LWord            -- words held at the link agent while their device index is being swapped
  refusals : List LTok            -- refusal words to send; `odev` is their destination
  ethOut  : List (Nat × List Byte) -- ARP and neighbour-discovery answers sent: port, frame
  split   : Tab Bool              -- mode in force per physical port
  pcieUp  : Bool
  qps     : Tab Qp
  msix    : List (Nat × Nat)      -- vectors sent, and when
  masked  : List Nat              -- vectors the host has masked
  frames  : List (Nat × List Byte) -- dictionary responses placed in host buffers: queue pair, frame
  deriving DecidableEq, Repr

end Sys2Proof.Machine
end

