-- ==== Sys2Proof/Machine/PwrTypes.lean ====
section
/-! DEFINITION. State of reset, power, thermal control, pins and the TAP (chapters 19 and 20). Plain data only. -/

namespace Sys2Proof.Machine

/-- How far power-on has come (R430): the auxiliary domain off; auxiliary on, main rails out; system reset held; clocked
blocks released, structures being initialised; running. -/
inductive Phase where
  | auxOff | mainOff | sysReset | init | running
  deriving DecidableEq, Repr

/-- A core reset under way (R425): step 2, steps 3 and 4, or the fabric held after step 4 by `SR_FABRIC` (R427). -/
inductive CrState where
  | idle | walking | reinit | held
  deriving DecidableEq, Repr

/-- States of the IEEE 1149.1 TAP controller. -/
inductive TapState where
  | reset | idle | selDr | capDr | shDr | ex1Dr | paDr | ex2Dr | upDr | selIr | capIr | shIr | ex1Ir | paIr | ex2Ir | upIr
  deriving DecidableEq, Repr

/-- Reset, power, thermal, pins. -/
structure Pwr where
  phase    : Phase
  mainOk   : List Bool            -- VDD_FAB, VDD_HUB, 0.9 V, 1.2 V, VDD_HBM, VDD_IO above threshold
  resetN   : Bool                 -- level of RESET_N
  cr       : CrState
  firstInit : Bool                -- step 4 follows a power-on
  bs       : List Nat             -- BLOCK_STATE: timebase, HBM 0–7, Ethernet 0–3, FL0–FL5, PCIe
  tripLow  : Bool                 -- THERM_TRIP_N driven low
  tripped  : Bool                 -- the last power-on reset followed a trip
  setMv    : Nat
  minPace  : Nat
  boosting : Bool
  chargeAt : Nat
  accrAt   : Nat                  -- when accrual was last counted
  accrRem  : Nat                  -- remainder of accrual
  balance  : Nat
  usedMs   : Nat                  -- boost time since manufacture, up to the last charge
  entries  : Nat
  trips    : Nat
  tjMax    : Int
  hours    : Nat
  hours95  : Nat
  nsUp     : Nat                  -- ns with main rails up, below one hour
  ns95     : Nat
  repair   : List Nat             -- REPAIR_MAP per die
  sysResets : Nat
  above    : List Bool            -- sensors at or above 95 °C since below 93 °C
  tj       : List Int             -- TJ sub-indices 01–05, m°C
  tjHbm    : List Int
  rails    : List Nat             -- RAIL_MV sub-indices 10–17
  avsOut   : List Nat             -- AVSBus voltage writes, mV
  avsSince : Nat                  -- when the regulator last answered
  tap      : TapState
  ir       : Nat                  -- TAP instruction: 0 BYPASS, 1 SAMPLE/PRELOAD, 2 EXTEST, 3 IDCODE
  dr       : List Bool
  drOut    : List Bool            -- boundary register update stage
  tdo      : Option Bool
  roll     : Option (Nat × Nat)   -- rolling test: position and when it started
  rollTo   : Option Nat            -- the spare that has taken its logical cluster over
  rollAt   : Nat
  rollNext : Nat                  -- where the rotation of tests goes on
  bist     : Option Nat
  take     : Option (Nat × Nat × Nat × Nat) -- takeover: die, failed position, spare position, when
  takeQ    : List (Nat × Nat)     -- failures waiting: position and when
  takeStep : Nat
  govAt    : Nat                  -- last governor step
  pollAt   : Nat                  -- last AVSBus status read
  sampleAt : Nat                  -- last sensor sample
  deriving DecidableEq, Repr

end Sys2Proof.Machine
end

