-- ==== Sys2Proof/Machine/SesTypes.lean ====
section
/-! DEFINITION. State of the sessions, message rings, lexers and composer (chapter 11). Plain data only. -/

namespace Sys2Proof.Machine

/-- A ring cell (R90): its valid octets, `SOR`, `EOR`. A cell that is not the last of its record holds 64 octets. -/
structure RCell where
  oct : List Byte
  sor : Bool
  eor : Bool
  deriving DecidableEq, Repr

/-- Session states (R245), in the code order of 0x4001:04. -/
inductive SesState where
  | disabled | listening | connecting | handshaking | opened | closing | backoff
  deriving DecidableEq, Repr

/-- The TCP state of a session (R246): connection present, peer, sequence positions, peer window and scale, congestion
control of RFC 5681 and 6582, retransmission timer of RFC 6298, SACK, out-of-order segments, advertised right edge. -/
structure Tcb where
  conn     : Bool
  raddr    : Nat
  rport    : Nat
  synSent  : Bool
  iss      : Nat
  sndUna   : Nat
  sndNxt   : Nat
  rcvNxt   : Nat
  sndWnd   : Nat
  scaleOk  : Bool
  scale    : Nat
  sackOk   : Bool
  mss      : Nat
  cwnd     : Nat
  ssthresh : Nat
  dup      : Nat
  recover  : Nat
  inRec    : Bool
  srtt     : Nat
  rttvar   : Nat
  rto      : Nat
  timing   : Option (Nat × Nat)     -- sequence number timed and when it was sent
  timer    : Option Nat             -- when the retransmission timer expires
  sacked   : List (Nat × Nat)
  ooo      : List (Nat × List Byte)
  edge     : Nat
  maxWnd   : Nat                    -- the widest window the peer has advertised
  finIn    : Bool
  lastRx   : Nat
  deriving DecidableEq, Repr

/-- What a TLS handshake settled (R247): suite, group, signature, as bit numbers of the profile's fields; resumed by PSK. -/
structure TlsSet where
  suite   : Nat
  group   : Nat
  sig     : Nat
  resumed : Bool
  deriving DecidableEq, Repr

/-- A session (R244, R245). `rxbuf` is TCP data received in sequence and not yet taken as TLS records; `plain` is
authenticated plaintext not yet written to the ring; `msg` is the message being written to a dedicated ring: octets of
the record in all and octets written; `sndbuf` holds octets sent and unacknowledged, then unsent. -/
structure Ses where
  cfg     : Nat
  addr    : Nat
  st      : SesState
  since   : Nat
  tcb     : Tcb
  rxbuf   : List Byte
  plain   : List Byte
  msg     : Option (Nat × Nat)
  sndbuf  : List Byte
  hsOn    : Bool                    -- the handshake was begun under R248
  tls     : Option TlsSet           -- what the last handshake settled
  rx      : Nat
  tx      : Nat
  disc    : Nat
  hb      : Nat
  lost    : Nat
  deriving DecidableEq, Repr

/-- A record descriptor (R250) with what the ring keeps beside it: whether its `EOR` stands, whether its cut-through
signal was raised and taken, the accepted context that lexes it with the graph, and how far the lexer is: the cells read,
their octets, the tokens sent, and whether the lexing has ended. -/
structure Desc where
  ingressNs : Nat
  session   : Nat
  partner   : Nat
  length    : Nat
  typeCode  : Nat
  typeOk    : Bool
  corrOk    : Bool
  aborted   : Bool
  corr      : Nat
  cells     : Nat
  written   : Nat                   -- octets of the record written
  eor       : Bool
  raised    : Bool
  taken     : Bool
  owner     : Option (Nat × Nat)    -- context and generation
  graph     : Nat
  read      : Nat
  got       : List Byte
  sent      : Nat
  lexed     : Bool
  deriving DecidableEq, Repr

/-- An ingress ring: its queue, descriptors oldest first (the first one is the record at `RD`), the sessions whose whole
messages wait for a shared ring, one entry per message in the order in which they became whole, and the session whose
write is held because the tail window is full (R91). -/
structure InRing where
  q     : SQ RCell
  descs : List Desc
  whole : List Nat
  wait  : Option Nat
  deriving DecidableEq, Repr

/-- An egress descriptor (R250) and the octets of its record. -/
structure EDesc where
  session : Nat
  length  : Nat
  partner : Nat
  deriving DecidableEq, Repr

/-- An egress ring. -/
structure EgRing where
  q     : SQ RCell
  descs : List EDesc
  deriving DecidableEq, Repr

/-- How a segment leaves: logical port, IP version, DF of an IPv4 header (R246), VLAN tag control word (0 untagged), source
MAC and IP address and next hop (R353, R357). -/
structure NetHdr where
  port : Nat
  v6   : Bool
  df   : Bool
  vlan : Nat
  mac  : Nat
  src  : Nat
  hop  : Nat
  deriving DecidableEq, Repr

/-- A TCP segment sent by the device. -/
structure Seg where
  sport : Nat
  dport : Nat
  addr  : Nat
  seq   : Nat
  ack   : Nat
  fin   : Bool
  syn   : Bool
  rst   : Bool
  ackF  : Bool
  wnd   : Nat
  mss   : Option Nat
  scale : Option Nat
  sackOk : Bool
  sacks : List (Nat × Nat)
  data  : List Byte
  net   : NetHdr
  deriving DecidableEq, Repr

/-- What a session engine hands to TLS besides records: alerts of R245. -/
inductive Alert where
  | closeNotify | protocolVersion | handshakeFailure | badRecordMac | decodeError
  deriving DecidableEq, Repr

/-- Sessions, rings, lexers and the composer. Flow-control frames sent: port, 1 PAUSE or 2 PFC, priority, on or off. -/
structure SesU where
  ses      : Tab Ses
  partner  : Tab Nat
  binding  : Tab Nat                -- session binding table by context
  ing      : Tab InRing
  egr      : Tab EgRing
  hsQ      : List Nat               -- sessions waiting to begin a handshake
  hsTok    : Nat                    -- handshake starts taken and not yet earned back, × 10^9
  hsAt     : Nat                    -- when `hsTok` was brought up to date
  rotSes   : Tab Nat                -- rotation point of SESSION_OF, per partner: the session after the last chosen
  segs     : List Seg               -- TCP segments sent
  alerts   : List (Nat × Alert)     -- TLS alerts sent, by session
  fcOut    : List (Nat × Nat × Nat × Bool)
  fcOn     : Tab Nat                -- flow control asserted per port: bit 8 PAUSE, bits 7:0 PFC priorities
  fcRx     : Tab Nat                -- flow control received: by port × 16 + priority, 8 PAUSE: until when
  records  : List (Nat × List Byte) -- TLS records sent, by session: plaintext
  deriving DecidableEq, Repr

end Sys2Proof.Machine
end

