-- ==== Sys2Proof/Machine/WardTypes.lean ====
section
/-! DEFINITION. State of the ward, the Zenul ring and the object dictionary's sessions, the images and the seal store
(chapter 16). Plain data only. -/

namespace Sys2Proof.Machine

/-- A segmented transfer (R374): object, total length, segments written. -/
structure Xfer where
  idx   : Nat
  sub   : Nat
  total : Nat
  segs  : List (Nat × List Byte)
  read_ : Bool
  deriving DecidableEq, Repr

/-- Stages of a dictionary session (R375). -/
inductive WStage where
  | challenged | failed | opened
  deriving DecidableEq, Repr

/-- A dictionary session: ring sessions are numbered 0–15, the session of PCIe queue pair *q* 0x40 + *q*. -/
structure WSes where
  stage   : WStage
  role    : Role
  station : List Byte
  sNonce  : List Byte
  nNonce  : List Byte
  key     : List Byte
  last    : Nat
  xfer    : Option Xfer
  done    : List (Nat × List Byte) -- answered requests: SEQ and the response payload, newest first
  deriving DecidableEq, Repr

/-- Wrong proofs of a station (R376): their times and until when its open frames are ignored. -/
structure Lockout where
  station : List Byte
  fails   : List Nat
  until_  : Option Nat
  deriving DecidableEq, Repr

/-- States of an image slot (R380), in the code order of `IMG_STATE`. -/
inductive ImgState where
  | empty | receiving | loaded | active | draining
  deriving DecidableEq, Repr

/-- Where the ward is with a slot: nothing, verifying at transfer end, or between activation steps 1 and 3. -/
inductive ImgBusy where
  | none | verify | install
  deriving DecidableEq, Repr

/-- An image slot; session and role that last commanded it. -/
structure Img where
  st     : ImgState
  busy   : ImgBusy
  octets : List Byte
  result : Nat
  by_    : Nat × Nat
  deriving DecidableEq, Repr

/-- What an active graph image has installed: banks, rights, context defaults, entry, bank registers, the window table,
delivery maps by format slot, journal map, character tables, its templates, and its code by bank. -/
structure Graph where
  banks   : Nat
  rights  : Nat
  modes   : Nat
  exc     : Nat
  bankIni : List Nat
  windows : List Nat
  maps    : Tab (List Nat)
  jmap    : List Nat
  e2a     : List Byte
  a2e     : List Byte
  tpls    : List Nat
  code    : Tab (List Byte)
  deriving DecidableEq, Repr

/-- States of a firmware slot, in the code order of `FW_SLOT_STATE`. -/
inductive FwState where
  | empty | receiving | valid | invalid | active | trial | rejected
  deriving DecidableEq, Repr

/-- A firmware slot: state and image octets. -/
structure FwSlot where
  st     : FwState
  octets : List Byte
  verify : Bool
  deriving DecidableEq, Repr

/-- The Glolet core (R173–R176, R359). -/
structure Glolet where
  pc      : Nat
  g       : Tab Nat
  st      : Nat                   -- STATUS of the last result
  cause   : Nat
  tpc     : Nat
  irqEn   : Nat
  irqPend : Nat
  cycles  : Nat
  masked  : Bool                  -- interrupts masked between a trap and TRAPRET
  halted  : Bool
  waiting : Bool
  deriving DecidableEq, Repr

/-- The object store in the seal store (R378): values by object key, counters, selector-shown values, slots Active. -/
structure Store where
  objs   : Tab Nat
  ctrs   : Tab (Nat × Nat)        -- counter configuration and value
  sess   : Tab (Nat × Nat)        -- session configuration and address
  parts  : Tab Nat                -- partner words
  sels   : Tab Nat                -- selection entries
  rts    : Tab Nat                -- shadow route entries by router × 256 + index
  drs    : Tab Nat                -- shadow device routes
  active : List (Nat × Nat)       -- kind and slot
  deriving DecidableEq, Repr

/-- A ward log entry (R363). -/
structure LogEnt where
  time   : Nat
  code   : Nat
  detail : List Byte
  deriving DecidableEq, Repr

/-- The ward. State 0 running, 1 restarting, 2 recovery. -/
structure Wrd where
  state    : Nat
  up       : Bool                 -- the auxiliary domain is released and powered
  since    : Nat
  dog      : Nat                  -- when the watchdog was last restarted
  core     : Glolet
  sram     : List (Nat × Byte)
  unitReg  : List (Nat × Byte)    -- unit register space, private to the firmware
  sealMem  : List (Nat × Byte)    -- the seal store as the core's loads and stores see it
  sessions : Tab WSes
  lockouts : List Lockout
  imgs     : Tab Img              -- by 0xD000 + g, 0xD100 + f, 0xD200 + t
  graphs   : Tab Graph
  fmts     : Tab (List Byte)      -- active format tables
  comps    : Tab (List Byte)      -- active composer templates
  fwA      : FwSlot
  fwB      : FwSlot
  fwActive : Nat                  -- 0 A, 1 B
  trialAt  : Option Nat           -- start of a trial
  rollback : Nat
  fwVer    : Nat
  stores   : List (Option Store)  -- the two copies in the seal store
  storeCur : Nat                  -- the current copy
  storeSt  : Nat
  storeBusy : Nat                 -- 0 none, 1 store asked for, 2 restore asked for, 3 erase asked for
  storeBy  : Nat × Nat            -- session and role that asked
  secrets  : Tab (List Byte)
  kSet     : Bool                 -- the keyholder secret has been written
  log      : List LogEnt          -- newest first
  logCount : Nat
  deriving DecidableEq, Repr

/-- The current copy of the object store (R378). -/
def Wrd.store (w : Wrd) : Option Store := w.stores.getD w.storeCur none

/-- The ring engine. Ports 0 is A, 1 is B. -/
structure Rng where
  sync    : List Bool
  hinge   : List Bool             -- open
  broken  : List Bool
  seq     : Nat
  seen    : List (List Byte × List (Nat × Nat)) -- per source: (SEQ, arrival time), newest first, at most 64
  out     : List (Nat × RFrame × Nat × Bool) -- frames put on ring A (0) or B (1) with their CRC; false = ended with K30.7
  master  : Bool
  mPri    : Nat                   -- priority of the current master's time frames
  mId     : List Byte
  lastTime : Nat                  -- when a time frame last arrived
  claiming : Option Nat           -- since when this node claims
  best    : Option (Nat × List Byte) -- the election in progress: the best claim seen, priority and node ID
  lastClaim : Nat
  circ    : Nat                   -- circuit time in ps
  sentAt  : Option Nat
  arrA    : Option (Nat × Nat)    -- SEQ and arrival of the last time frame on A, ps
  arrB    : Option (Nat × Nat)
  delay   : Int                   -- the last measured delay from the master, ps
  lastSend : Nat
  deriving DecidableEq, Repr

end Sys2Proof.Machine
end

