-- ==== Sys2Proof/Machine/Init.lean ====
section
/-! DEFINITION. Initial values of the parts of the state: what an unlisted table entry reads as, and what each unit
holds at power-on reset (R423). -/

namespace Sys2Proof.Machine

/-- A spill queue in state Off (R92). -/
def sqOff {α : Type} : SQ α := ⟨false, [], [], [], [], 0, 0, 0, none, false, false, false⟩

/-- A cell with no firing. -/
def cellInit : Cell := ⟨[], 0, false, 0⟩

/-- A cluster position that is powered off and unassigned. -/
def posInit : Pos :=
  ⟨.off, none, false, false, List.replicate 8 sqOff, [], [], [], [], [], [], [], [], [], [], 0, 0, 0, false, 0, 0, 40⟩

/-- A router with every route entry unroutable and no packet. -/
def routerInit : Router := ⟨[], [], [], [], [], []⟩

/-- The network after power-on reset. -/
def nocInit : Noc :=
  ⟨[], [], [], List.replicate 4 false, .idle, [], [], [], 0, [], [], [], [], [], [], []⟩

/-- The fabric after power-on reset: pools not yet initialised, so matching store and spill pool are Closed. -/
def fabInit : Fab := ⟨[], [], [], [], [], 0, false, 0, false, 0, false, [], [], [], nocInit⟩

def memInit : Mem := ⟨[], [], [], [], [], 0, []⟩
def lockInit : LockEnt := ⟨0, false, 0, 0, 0, 0, []⟩
def hslotInit : HSlot := ⟨0, 0, 0, none, []⟩
def haspInit : Hasp := ⟨[], [], false⟩

/-- A template slot that holds no record. -/
def tplInit : List Byte := List.replicate 64 0

/-- The keyway and timer wheel at their defaults: every context number free and never purged. -/
def keyInit : Key := ⟨[], 0, [], [], [], [], [], [], [], [], none⟩

/-- A fault source in state Idle with an empty window. -/
def srcInit : FSrc := ⟨.idle, 0, List.replicate 8 0, [], none, 0, 0, 0, 0⟩

/-- A history entry that holds no event. -/
def histInit : HEnt := ⟨0, 0, 0, 0, 0, 0, 0, false, 0, 0, 0⟩

/-- R392: the fault unit with source 0x01 Open, its class contained, and nothing in the history. -/
def faultsInit : Faults :=
  ⟨[], [(1, { srcInit with st := .opened, cls := 1 })], List.replicate 16 histInit, 0, false, 0, 0, (0, 0, 0, 0)⟩

/-- R421: a counter with the default configuration. -/
def ctrInit : Ctr := ⟨0x00000FFF00000000, 0, false, false⟩
def perfInit : Perf := ⟨[], [], false, 0, 0, []⟩

/-- A TCP block with no connection. -/
def tcbInit : Tcb :=
  ⟨false, 0, 0, false, 0, 0, 0, 0, 0, false, 0, false, 536, 0, 0, 0, 0, false, 0, 0, 1000000, none, none, [], [], 0,
   0, false, 0⟩

/-- A segment's header before it leaves. -/
def netInit : NetHdr := ⟨0, false, true, 0, 0, 0, 0⟩

/-- A session in state Disabled. -/
def sesInit : Ses := ⟨0, 0, .disabled, 0, tcbInit, [], [], none, [], false, none, 0, 0, 0, 0, 0⟩
def inRingInit : InRing := ⟨sqOff, [], [], none⟩
def egRingInit : EgRing := ⟨sqOff, []⟩
def sesUInit : SesU := ⟨[], [], [], [], [], [], 0, 0, [], [], [], [], [], [], []⟩

def keyRecInit : KeyRec := ⟨0, [], [], [], 0⟩

/-- R294: all four DRBG instances produce (0x0F). -/
def cryInit : Cry :=
  ⟨0, [], 0, [], [], [], [], [], [], [], 0, [], [], 0, 0, [], 0, [], List.replicate 5 0, none, 0, 0, 15, [], []⟩

def laneInit : Lane := ⟨0, [], []⟩

/-- The journal engine in its first epoch (R299, R300). -/
def jnlInit : Jnl :=
  ⟨[], [], 0, 0, false, [], [], 1, 0, List.replicate 48 0, 0, 0, 0, 0, 0, [], [], List.replicate 48 0, 0, []⟩

/-- The timebase in wait-lock (R310). -/
def tbInit : Tb :=
  { st := .unset, src := 0, ever := false, waitLock := true, good := 0, slew := 0, slewAcc := 0, step := none,
    lastMeas := 0, edge := none, capture := 0, hold := 0, pps := 0, ppsOff := [], ptpPend := [], ptpFwd := [],
    ptpReq := [], ptpPd := [], ptpDelay := [], ptpMaster := [], ptpSent := [], ptpSeq := [], ptpOut := [] }

/-- R343: credits for the receive buffers of VC0–VC3. -/
def linkCredits : List Nat := [1024, 1024, 256, 64]

def linkInit : Link := ⟨.disabled, 0, 0, 0, false, [], linkCredits, [0, 0, 0, 0], 0, [], [], [], false, 0⟩
def qpInit : Qp := ⟨2, 2, 0, [], []⟩
def lnkInit : Lnk :=
  { links := [], dr0 := [], dr1 := [], proxies := [], decide_ := [], hold := [], wait := [], refusals := [], ethOut := [], split := [],
    pcieUp := false, qps := [], msix := [], masked := [], frames := [] }

def imgInit : Img := ⟨.empty, .none, [], 0, (0xFF, 0)⟩
def graphInit : Graph := ⟨0, 0, 0, 0, [0, 0, 0, 0], List.replicate 16 0, [], [], [], [], [], []⟩
def gloletInit : Glolet := ⟨0, [], 0, 0, 0, 0, 0, 0, false, false, false⟩

/-- The ward before its auxiliary domain is released. Firmware slot A is the active slot (log 12). -/
def wrdInit : Wrd :=
  { state := 1, up := false, since := 0, dog := 0, core := gloletInit, sram := [], unitReg := [], sealMem := [],
    sessions := [], lockouts := [], imgs := [], graphs := [], fmts := [], comps := [],
    fwA := ⟨.active, [], false⟩, fwB := ⟨.empty, [], false⟩, fwActive := 0, trialAt := none, rollback := 0,
    fwVer := 0, stores := [none, none], storeCur := 0, storeSt := 0, storeBusy := 0, storeBy := (0xFF, 0), secrets := [], kSet := false,
    log := [], logCount := 0 }

/-- The ring engine with both hinges closed (R372). -/
def rngInit : Rng :=
  { sync := [false, false], hinge := [false, false], broken := [false, false], seq := 0, seen := [],
    out := [], master := false, mPri := 255, mId := List.replicate 8 0, lastTime := 0, claiming := none,
    best := none, lastClaim := 0, circ := 0, sentAt := none, arrA := none, arrB := none, delay := 0, lastSend := 0 }

/-- Power-on reset asserted: no rail has reached its threshold. -/
def pwrInit : Pwr :=
  { phase := .auxOff, mainOk := List.replicate 6 false, resetN := true, cr := .idle, firstInit := true,
    bs := List.replicate 20 0, tripLow := false, tripped := false, setMv := 750, minPace := 0, boosting := false,
    chargeAt := 0, accrAt := 0, accrRem := 0, balance := 1800000000, usedMs := 0, entries := 0, trips := 0, tjMax := 0,
    hours := 0, hours95 := 0, nsUp := 0, ns95 := 0, repair := [0, 0, 0, 0], sysResets := 0,
    above := List.replicate 5 false, tj := List.replicate 5 0, tjHbm := List.replicate 8 0, rails := List.replicate 8 0,
    avsOut := [], avsSince := 0, tap := .reset, ir := 3, dr := [], drOut := [], tdo := none, roll := none, rollTo := none, rollAt := 0,
    rollNext := 0, bist := none, take := none, takeQ := [], takeStep := 0, govAt := 0, pollAt := 0, sampleAt := 0 }

end Sys2Proof.Machine
end

