-- ==== Sys2Proof/Machine/Spill.lean ====
section
/-! DEFINITION. The spill queue (R90–R98): write, read, mark, rewind, release, bursts and refills. -/

namespace Sys2Proof.Machine

variable {α : Type}

/-- What an instance fixes of a queue: the middle limit in cells, the cells its middle can still take from its block
source (the rest of its last block and the free blocks), and the two watermarks. -/
structure SqCfg where
  limit : Nat
  room  : Nat
  hi    : Nat
  lo    : Nat
  aside : Nat                     -- cells set aside that count in the fill (R82)
  deriving DecidableEq, Repr

/-- Cells in each window (R90). -/
def window : Nat := 64

/-- The fill, `WR` − `REL` (R91). -/
def sqFill (q : SQ α) : Nat := q.head.length + q.mid.length + q.tail.length

/-- Retained cells, between `REL` and `RD`. -/
def sqRetained (q : SQ α) : Nat := (q.rd + 2 ^ 32 - q.rel) % 2 ^ 32

/-- Unread cells of the head window. -/
def sqUnread (q : SQ α) : List α := q.head.drop (sqRetained q)

/-- Positions are counted modulo 2^32 (R91). -/
def inc32 (n : Nat) : Nat := (n + 1) % 2 ^ 32
def dec32 (n k : Nat) : Nat := (n + 2 ^ 32 - k) % 2 ^ 32

/-- R95: the watermark state after an operation. -/
def sqWater (c : SqCfg) (q : SQ α) : SQ α :=
  { q with above := if c.hi ≤ sqFill q + c.aside then true else if sqFill q + c.aside ≤ c.lo then false else q.above }

/-- R91: with an empty middle the oldest tail cells move to free head-window cells. -/
def sqSettle (q : SQ α) : SQ α :=
  if q.mid.isEmpty then
    let n := window - q.head.length
    { q with head := q.head ++ q.tail.take n, tail := q.tail.drop n }
  else q

/-- The size of a burst that is due (R91), 0 where none is. -/
def sqBurstDue (c : SqCfg) (q : SQ α) : Nat :=
  let b := min 16 (c.limit - q.mid.length)
  if 1 ≤ b && b ≤ q.tail.length && (!q.mid.isEmpty || decide (window ≤ q.head.length)) then b else 0

/-- R92: a burst is due and the block source has no free block for it. -/
def sqDeferred (c : SqCfg) (q : SQ α) : Bool := decide (c.room < sqBurstDue c q)

/-- R92: a cell stored; Full where the fill reaches capacity or the burst then due finds no free block. -/
def sqStore (c : SqCfg) (q : SQ α) (x : α) : SQ α :=
  let q := { q with wr := inc32 q.wr }
  let q := if q.mid.isEmpty && q.tail.isEmpty && q.head.length < window then { q with head := q.head ++ [x] }
    else { q with tail := q.tail ++ [x] }
  sqWater c { q with full := decide (128 + c.limit ≤ sqFill q + c.aside) || sqDeferred c q }

/-- The write of a cell would be stored or held, not ignored: the queue, with its held cells, is below its capacity. -/
def sqTakes (c : SqCfg) (q : SQ α) : Bool :=
  q.on && !q.full && decide (sqFill q + q.held.length + c.aside < 128 + c.limit)

/-- A write (R91–R93): ignored in Off, ignored with `OVERRUN` in Full, held while the tail window is full or earlier writes
are held, stored otherwise. -/
def sqWrite (c : SqCfg) (q : SQ α) (x : α) : SQ α :=
  if !q.on then q
  else if !sqTakes c q then { q with overrun := true }
  else if !q.held.isEmpty || decide (window ≤ q.tail.length) then { q with held := q.held ++ [x] }
  else sqStore c q x

/-- R91: held writes are stored in order while the tail window has room and the queue is not Full; none of them is lost. -/
def sqFlushGo (c : SqCfg) : List α → SQ α → SQ α
  | [], q => { q with held := [] }
  | x :: r, q => if decide (window ≤ q.tail.length) || q.full then { q with held := x :: r } else sqFlushGo c r (sqStore c q x)

/-- R91: held writes follow, in order, once the tail window has room. -/
def sqFlush (c : SqCfg) (q : SQ α) : SQ α := sqFlushGo c q.held q

/-- R91: a burst to the middle done; held writes follow into the tail window. Where the block source has no free block
the burst is deferred and the queue Full, and a Full queue retries it only after a release (R92). -/
def sqBurst (c : SqCfg) (q : SQ α) : SQ α :=
  let b := sqBurstDue c q
  if b = 0 || q.full then q
  else if sqDeferred c q then { q with full := true }
  else sqFlush c { q with mid := q.mid ++ q.tail.take b, tail := q.tail.drop b }

/-- Cells that a queue is sure to store from here on: up to its capacity, or up to the burst that would find no free
block (R92). -/
def sqSure (c : SqCfg) (q : SQ α) : Nat :=
  let cap := if c.limit ≤ q.mid.length + c.room then 128 + c.limit else 64 + q.mid.length + c.room / 16 * 16 + 15
  if sqTakes c q then cap - (sqFill q + q.held.length) else 0

/-- The size of a refill that is due (R91), 0 where none is. -/
def sqRefillDue (q : SQ α) : Nat :=
  let room := window - q.head.length
  if 16 ≤ room then min 16 q.mid.length
  else if (sqUnread q).isEmpty then min room q.mid.length
  else 0

/-- R91: a refill of the head window complete. -/
def sqRefill (q : SQ α) : SQ α :=
  let n := sqRefillDue q
  sqSettle { q with head := q.head ++ q.mid.take n, mid := q.mid.drop n }

/-- Make a cell readable where the middle or tail holds one (R94). -/
def sqPull (q : SQ α) : SQ α := if (sqUnread q).isEmpty then sqRefill (sqSettle q) else q

/-- Free the `n` oldest head-window cells and move `REL` on; Full ends where cells are freed (R92). -/
def sqFree (c : SqCfg) (q : SQ α) (n : Nat) : SQ α :=
  if n = 0 then q
  else sqFlush c (sqWater c (sqSettle { q with head := q.head.drop n, rel := (q.rel + n) % 2 ^ 32, full := false }))

/-- A read in auto-release mode (R97): the cell and the queue, or none where the read stalls (R94). -/
def sqReadAuto (c : SqCfg) (q : SQ α) : Option (α × SQ α) :=
  let q := sqPull q
  match sqUnread q with
  | [] => none
  | x :: _ => if q.on then some (x, sqFree c { q with rd := inc32 q.rd } (sqRetained q + 1)) else none

/-- A read in marked mode (R97): the oldest retained cell is released first where 64 are retained. The flag says that
the mark was lost. -/
def sqReadMarked (c : SqCfg) (q : SQ α) : Option (α × SQ α × Bool) :=
  let lost := sqRetained q == window && q.mark == some q.rel
  let q := if sqRetained q == window then sqFree c { q with mark := if lost then none else q.mark } 1 else q
  let q := sqFlush c (sqPull q)
  match sqUnread q with
  | [] => none
  | x :: _ => if q.on then some (x, { q with rd := inc32 q.rd }, lost) else none

/-- `MARK` (R97). -/
def sqMark (q : SQ α) : SQ α := { q with mark := some q.rd }

/-- `REWIND` (R97): with a valid mark `RD` returns to it. -/
def sqRewind (q : SQ α) : SQ α := match q.mark with | some m => { q with rd := m } | none => q

/-- `RELEASE` (R97): `REL` := `RD`; the mark becomes invalid where it lies before the new `REL`. -/
def sqRelease (c : SqCfg) (q : SQ α) : SQ α :=
  let n := sqRetained q
  let lost := match q.mark with | some m => decide ((m + 2 ^ 32 - q.rel) % 2 ^ 32 < n) | none => false
  sqFree c { q with mark := if lost then none else q.mark } n

/-- Enable (R92): from Off to Empty; no effect otherwise. -/
def sqEnable (q : SQ α) : SQ α :=
  if q.on then q
  else { q with on := true, head := [], mid := [], tail := [], held := [], wr := 0, rd := 0, rel := 0, mark := none,
                full := false, above := false }

/-- Disable (R92): contents discarded, `OVERRUN` kept. -/
def sqDisable (q : SQ α) : SQ α :=
  { q with on := false, head := [], mid := [], tail := [], held := [], mark := none, full := false, above := false }

/-- Every cell of the queue that has not been read, oldest first. -/
def sqCells (q : SQ α) : List α := sqUnread q ++ q.mid ++ q.tail

/-- 4 KiB blocks a middle holds (R99). -/
def sqBlocks (q : SQ α) : Nat := (q.mid.length + 63) / 64

/-- Cells that a middle can still take where its block source has `free` free blocks. -/
def sqRoom (q : SQ α) (free : Nat) : Nat := (sqBlocks q + free) * 64 - q.mid.length

end Sys2Proof.Machine
end

