-- ==== Sys2Proof/Machine/State.lean ====
section
/-! DEFINITION. The state of the block: every register, table, queue, buffer, counter, mode and pin the spec gives it,
as plain data, and the queue of waiting commands. Objects of the dictionary that are plain registers or counters stand
in `objs` by index × 256 + sub-index (absent = the listed default); the others are read from the unit they report on. -/

namespace Sys2Proof.Machine

/-- Factory identity (0x1000:02–05): grade, silicon revision, serial number and first MAC address. -/
structure Ident where
  grade  : Nat
  rev    : Nat
  serial : List Byte
  mac    : List Byte
  jkey   : Nat                    -- private part of the journal key (R305)
  deriving DecidableEq, Repr

/-- Everything the spec gives the block. `up` counts ns since the state began and never steps; `tai` is the timebase's
ns count (R309); `free` is the model's own counter of free values used (not the spec's). -/
structure Dev where
  part  : Part
  ident : Ident
  up    : Nat
  tai   : Nat
  free  : Nat
  objs  : Tab Nat
  fab   : Fab
  mem   : Mem
  hasp  : Hasp
  key   : Key
  flt   : Faults
  perf  : Perf
  ses   : SesU
  cry   : Cry
  jnl   : Jnl
  tb    : Tb
  lnk   : Lnk
  wrd   : Wrd
  rng   : Rng
  pwr   : Pwr
  deriving DecidableEq, Repr

/-- The state of the model: the block and the commands that wait, first in, first out. -/
structure State where
  dev     : Dev
  pending : List Instr
  deriving DecidableEq, Repr

/-- Conditions that stop the machine. The spec names none: every condition it describes is counted, reported, answered
or trapped and the block goes on, so this type has no constructor. -/
inductive Fault where
  deriving DecidableEq, Repr

/-- Reasons for which a command is turned away. -/
inductive Refusal where
  /-- Raised by exec for a row that has no meaning yet. Safe: nothing is claimed of it. -/
  | notModelled (mnemonic : String)
  deriving DecidableEq, Repr

/-- The identity the model gives the device (log 3). -/
def Ident.factory : Ident :=
  ⟨0, 1, [1, 2, 3, 4, 5, 6, 7, 8, 9, 10, 11, 12, 13, 14, 15, 16], [0, 8, 64, 0, 0, 0], Config.freeNat (2 ^ 43)⟩

/-- A device of configuration `p` with power-on reset asserted. -/
def Dev.powerOn (p : Part) : Dev :=
  { part := p, ident := Ident.factory, up := 0, tai := 0, free := 0, objs := [], fab := fabInit, mem := memInit,
    hasp := haspInit, key := keyInit, flt := faultsInit, perf := perfInit, ses := sesUInit, cry := cryInit,
    jnl := jnlInit, tb := tbInit, lnk := lnkInit, wrd := wrdInit, rng := rngInit, pwr := pwrInit }

/-- Right after reset: power-on reset asserted on a device of configuration `p`, nothing waiting. -/
def State.resetOf (p : Part) : State := ⟨Dev.powerOn p, []⟩

/-- The machine right after reset: power-on reset of the FY-840X (log 1). -/
def State.reset : State := State.resetOf .x

end Sys2Proof.Machine
end

