-- ==== Sys2Proof/Machine/Ops.lean ====
section
/-! DEFINITION. The named operations over the state that the meanings share: objects and counters, faults, journal
entries, time, free values, tokens and their injection, generations, frames and lives. -/

namespace Sys2Proof.Machine

/-- A meaning's outcome. -/
abbrev Res := Host.Outcome State Fault Refusal

/-- The configuration (R1), the factory identity (0x1000:01–05) and the count of ns since the state began as they were:
they are hard-wired or move with time alone, whatever a command does. -/
def Dev.fused (d was : Dev) : Dev := { d with part := was.part, ident := was.ident, up := was.up }

/-- The next state whose block is `f` of this one; the queue stays. -/
def State.act (s : State) (f : Dev → Dev) : Res := .next { s with dev := (f s.dev).fused s.dev }

/-! ### Objects and counters -/

/-- The value of an object that is held in the object store. -/
def Dev.obj (d : Dev) (idx sub : Nat) : Nat := (tget? d.objs (okey idx sub)).getD (objDefault d.part idx sub)

/-- Set an object held in the object store. -/
def Dev.setObj (d : Dev) (idx sub v : Nat) : Dev := { d with objs := tset d.objs (okey idx sub) v }

/-- Add to a counter; counters wrap modulo 2^64 (R408). -/
def Dev.bumpBy (d : Dev) (idx sub n : Nat) : Dev := d.setObj idx sub ((d.obj idx sub + n) % 2 ^ 64)

/-- Count one event. -/
def Dev.bump (d : Dev) (idx sub : Nat) : Dev := d.bumpBy idx sub 1

/-- Keep the largest value seen. -/
def Dev.peak (d : Dev) (idx sub v : Nat) : Dev := if d.obj idx sub < v then d.setObj idx sub v else d

/-- A Boolean object reads true. -/
def Dev.flag (d : Dev) (idx sub : Nat) : Bool := d.obj idx sub == 1

/-- A value by configuration. -/
def Dev.xs (d : Dev) (x s : Nat) : Nat := if d.part = .x then x else s

/-- Fabric dies (R1). -/
def Dev.dies (d : Dev) : Nat := d.xs 4 1

/-- Report a condition to the fault unit with its location (R388). -/
def Dev.report (d : Dev) (src loc : Nat) : Dev := { d with flt := { d.flt with queue := d.flt.queue ++ [⟨src, loc⟩] } }

/-- A location of a kind and value (R388). -/
def faultLoc (kind v : Nat) : Nat := kind * 2 ^ 28 + v

/-- The location of a cluster position: kind 1 and its per-cluster sub-index (R104). -/
def posLoc (pos : Nat) : Nat := faultLoc 1 (pos + 1)

/-! ### Time and free values -/

/-- The code of a timebase state (R309). -/
def TbState.code (t : TbState) : Nat :=
  match t with | .unset => 0 | .freeRun => 1 | .acquiring => 2 | .locked => 3 | .holdover => 4 | .refLost => 5

/-- The time-quality code (R309). -/
def Dev.quality (d : Dev) : Nat :=
  (match d.tb.st with | .unset => 0 | .freeRun => 0 | _ => d.tb.src) * 16 + d.tb.st.code

/-- The current time as TIME80 (R11, R309). -/
def Dev.time80 (d : Dev) : Nat := (d.tai % 2 ^ 64) * 65536 + d.quality

/-- `n` free octets, and the block with them used up. -/
def Dev.draw (d : Dev) (n : Nat) : List Byte × Dev :=
  ((upFrom d.free n).map Config.freeOctet, { d with free := d.free + n })

/-- A free number below `m`. -/
def Dev.drawNat (d : Dev) (m : Nat) : Nat × Dev := (Config.freeNat d.free % m, { d with free := d.free + 1 })

/-! ### Resets -/

/-- R427: a bit of `SOFT_RESET` holds its block. -/
def Dev.held (d : Dev) (b : Nat) : Bool := d.part == .s && bit (d.obj 0xB002 1) b

/-- The main rails are up. -/
def Dev.mainUp (d : Dev) : Bool := d.pwr.phase == .running || d.pwr.phase == .init || d.pwr.phase == .sysReset

/-! ### Journal entries -/

/-- A record with every field at the value of an event that has none (R295, R296). -/
def jrec0 : JRec := ⟨0, 0, 0, 0, 0, 0xFFFF, 0, 0, 0, 0, 0, none, 0, [], 0, 0xFF, 0⟩

/-- Hand a record to its lane as it stands (R298). -/
def Dev.journalPut (d : Dev) (r : JRec) : Dev :=
  let ls := tmod laneInit d.jnl.lanes r.lane (fun l => { l with queue := l.queue ++ [r] })
  { d with jnl := { d.jnl with lanes := ls } }

/-- Hand a record of an event of this moment to its lane. -/
def Dev.journal (d : Dev) (r : JRec) : Dev := d.journalPut { r with time := d.time80 }

/-- The ward log holds 262,144 entries (R363). -/
def wardLogSize : Nat := 262144

/-- R363: an entry of the ward log, newest first. The spec gives no numbers for `CODE`: a free constant by kind of event. -/
def Dev.wardLog (d : Dev) (kind : Nat) (detail : List Byte) : Dev :=
  let e : LogEnt := ⟨d.time80, Config.freeNat (2 ^ 40 + kind) % 65536, (detail ++ List.replicate 48 0).take 48⟩
  { d with wrd := { d.wrd with log := (e :: d.wrd.log).take wardLogSize, logCount := d.wrd.logCount + 1 } }

/-- The kinds of ward log entries that the model tells apart: ward start, restart cause, orphaned lock, lockout, refused
activation, sensor limit, injection armed, main power-on, and an event that is journaled with type 0x0B. -/
def logStart : Nat := 0
def logRestart : Nat := 1
def logOrphan : Nat := 2
def logLockout : Nat := 3
def logActivation : Nat := 4
def logSensor : Nat := 5
def logInject : Nat := 6
def logMain : Nat := 7
def logJournal : Nat := 8

/-- A record of type 0x0B (R385): lane 0, with the session that commanded it. -/
def Dev.wardRecord (d : Dev) (reason detail actor role : Nat) : Dev :=
  (d.journal { jrec0 with typ := 0x0B, reason := reason, detail := detail, actor := actor, role := role }).wardLog
    (logJournal + reason) (leOctets 8 detail)

/-! ### Tokens -/

/-- The kinds of tokens (R29). -/
def kWord : Nat := 0
def kBit : Nat := 1
def kLow : Nat := 2
def kHigh : Nat := 3
def kExc : Nat := 4
def kDeadline : Nat := 5
def kReply : Nat := 6
def kControl : Nat := 7

/-- A tag (R27); `node` is the 20-bit node address. -/
def mkTag (ctx gen iter node port : Nat) : Nat :=
  ctx % 2 ^ 24 * 2 ^ 40 + gen % 64 * 2 ^ 34 + iter % 1024 * 2 ^ 24 + node % 2 ^ 20 * 16 + port % 4 * 4

/-- A token (R26) with its check bits (R31). -/
def mkTok (tag value kind st : Nat) : W128 :=
  withCheck (tag * 2 ^ 48 + value % 2 ^ 40 * 256 + kind % 8 * 32 + st % 32)

def tTag (t : W128) : Nat := t.toNat / 2 ^ 64
def tCtx (t : W128) : Nat := bits t.toNat 127 104
def tGen (t : W128) : Nat := bits t.toNat 103 98
def tIter (t : W128) : Nat := bits t.toNat 97 88
def tNode (t : W128) : Nat := bits t.toNat 87 68
def tPort (t : W128) : Nat := bits t.toNat 67 66
def tLow2 (t : W128) : Nat := bits t.toNat 65 64
def tValue (t : W128) : Nat := bits t.toNat 63 24
def tKind (t : W128) : Nat := bits t.toNat 23 21
def tSt (t : W128) : Nat := bits t.toNat 20 16

/-- A flit header (R322). -/
def mkHdr (die cluster cell vc prio : Nat) (epoch : Bool) (src len : Nat) : BitVec 32 :=
  BitVec.ofNat 32 (die % 4 * 2 ^ 30 + cluster % 64 * 2 ^ 24 + cell % 16 * 2 ^ 20 + vc % 4 * 2 ^ 18 + prio % 8 * 2 ^ 15
    + b2n epoch * 2 ^ 14 + src % 4096 * 4 + len % 4)

def hDie (h : BitVec 32) : Nat := bits h.toNat 31 30
def hCluster (h : BitVec 32) : Nat := bits h.toNat 29 24
def hCell (h : BitVec 32) : Nat := bits h.toNat 23 20
def hVc (h : BitVec 32) : Nat := bits h.toNat 19 18
def hPrio (h : BitVec 32) : Nat := bits h.toNat 17 15
def hEpoch (h : BitVec 32) : Bool := bit h.toNat 14
def hIndex (h : BitVec 32) : Nat := bits h.toNat 31 24

/-- A flit with the check of its header (R321). -/
def mkFlit (h : BitVec 32) (pl : W128) : Flit := ⟨h, hamCheck h, pl⟩

/-- The hub agents (R323). -/
def agKeyway : Nat := 0
def agLexer : Nat := 1
def agTumbler : Nat := 2
def agLane : Nat := 3
def agCustomer : Nat := 4
def agMem : Nat := 5
def agHasp : Nat := 6
def agWard : Nat := 8
def agPark : Nat := 9
def agLink : Nat := 10

/-- `SRC` of a packet that a hub agent injects, and of one that a cell injects (R324). -/
def hubSrc (agent : Nat) : Nat := 0x3F * 16 + agent
def cellSrc (pos cell : Nat) : Nat := pos / 34 * 1024 + pos % 34 * 16 + cell

/-- The number of the central hub router and of a position's router (R320). -/
def hubRouter : Nat := 144
def posRouter (pos : Nat) : Nat := pos / 34 * 36 + pos % 34

/-- A placement table entry (R329) by node address. -/
def Dev.placeEntry (d : Dev) (node : Nat) : Nat := tget 0 d.fab.noc.place (node / 256)

/-- Destination die and cluster of a token (R329, R330), `DCELL` with them: hub agents carry theirs there. -/
def Dev.route (d : Dev) (node ctx : Nat) : Nat × Nat × Nat :=
  let e := d.placeEntry node
  if bit e 31 && bit e 29 && !bit e 30 then (0, 0x3F, agLink)
  else if bit e 31 && bit e 30 && !bit e 29 then
    let h := tget 0 d.fab.noc.home ctx
    (bits h 6 5, bits h 4 0, 0)
  else (bits e 16 15, bits e 14 10, 0)

/-- Whether a packet of `vc` to a destination index is held at injection during a swap (R334 step 2). -/
def Noc.holds (n : Noc) (vc index : Nat) : Bool :=
  n.swap != .idle && n.changed.contains index && !n.relVc.contains vc

/-- The local input of a router has room for `n` packets on VC0 (R325). -/
def Router.injRoom (r : Router) (n : Nat) : Bool := decide ((r.inj.filter (fun b => hVc b.f.hdr == 0)).length + n ≤ 8)

/-- Put a packet into a router's local input (R333), or hold it while its index is being swapped (R334). -/
def Dev.inject (d : Dev) (router vc prio src : Nat) (dst : Nat × Nat × Nat) (pl : W128) : Dev :=
  let n := d.fab.noc
  let h := mkHdr dst.1 dst.2.1 dst.2.2 vc prio (n.epoch.getD vc false) src 0
  if n.holds vc (dst.1 * 64 + dst.2.1) then
    { d with fab := { d.fab with noc := { n with held := n.held ++ [(router, mkFlit h pl)] } } }.bump 0x8000 7
  else
    { d with fab := { d.fab with noc := { n with
        routers := tmod routerInit n.routers router (fun r => { r with inj := r.inj ++ [(⟨mkFlit h pl, d.up⟩ : Buf)] }) } } }

/-- A token made by a hub agent, on VC1 (R110). -/
def Dev.hubToken (d : Dev) (agent prio : Nat) (t : W128) : Dev :=
  d.inject hubRouter 1 prio (hubSrc agent) (d.route (tNode t) (tCtx t)) t

/-- A token emitted by a firing of a cell, on VC0 (R110). -/
def Dev.cellToken (d : Dev) (pos cell prio : Nat) (t : W128) : Dev :=
  d.inject (posRouter pos) 0 prio (cellSrc pos cell) (d.route (tNode t) (tCtx t)) t

/-- R34: an exception token made by a hub agent; with no exception entry it is discarded and counted. -/
def Dev.hubExc (d : Dev) (agent : Nat) (r : Req) (code detail : Nat) : Dev :=
  if r.exc = 0 then d.bump 0x2802 3
  else d.hubToken agent r.epri
    (mkTok (mkTag r.ctx r.gen r.iter r.exc 0) (code * 2 ^ 32 + r.node * 4096 + detail % 4096) kExc 0)

/-- R350: a refusal word for `RETURN` on the origin device of a proxy; the link agent sends it. -/
def Dev.refuseWord (d : Dev) (odev corr : Nat) (x : Dest) (pri why code : Nat) : Dev :=
  let t := mkTok (mkTag (corr / 64) (corr % 64) 0 x.node x.port) (why * 256 + code) kWord stI
  { d with lnk := { d.lnk with refusals := d.lnk.refusals ++ [(⟨odev, t, pri, d.tai⟩ : LTok)] } }

/-- A word result of a split-phase request to every destination (R80, R272). -/
def Dev.hubWord (d : Dev) (agent : Nat) (r : Req) (v : Nat) : Dev :=
  r.dsts.foldl (fun d x => d.hubToken agent r.pri (mkTok (mkTag r.ctx r.gen x.iter x.node x.port) v kWord 0)) d

/-- A pair result to every destination. -/
def Dev.hubPair (d : Dev) (agent : Nat) (r : Req) (v : Nat) : Dev :=
  r.dsts.foldl (fun d x =>
    let tag := mkTag r.ctx r.gen x.iter x.node x.port
    (d.hubToken agent r.pri (mkTok tag (v % 2 ^ 40) kLow 0)).hubToken agent r.pri (mkTok tag (v / 2 ^ 40) kHigh 0)) d

/-! ### Contexts, frames, positions -/

/-- The current generation of a context (R48). -/
def Dev.gen (d : Dev) (ctx : Nat) : Nat := tget 0 d.fab.gens ctx % 64

/-- The life of an Active context. -/
def Dev.life (d : Dev) (ctx : Nat) : Option Life := tget? d.key.lives ctx

/-- Replace a life. -/
def Dev.setLife (d : Dev) (l : Life) : Dev := { d with key := { d.key with lives := tset d.key.lives l.ctx l } }

/-- Active contexts (0x2800:02). -/
def Dev.ctxActive (d : Dev) : Nat := d.key.lives.length

/-- A cluster position. -/
def Dev.pos (d : Dev) (p : Nat) : Pos := tget posInit d.fab.pos p

/-- Change a cluster position. -/
def Dev.modPos (d : Dev) (p : Nat) (f : Pos → Pos) : Dev :=
  { d with fab := { d.fab with pos := tmod posInit d.fab.pos p f } }

/-- The position that holds a logical cluster, numbered die × 32 + logical cluster (R331). -/
def Dev.posOf (d : Dev) (lc : Nat) : Option Nat := (d.fab.pos.find? (fun e => e.2.logical == some lc)).map (·.1)

/-- The position of a context's home cluster by the home map (R330). -/
def Dev.homePos (d : Dev) (ctx : Nat) : Option Nat := d.posOf (tget 0 d.fab.noc.home ctx % 128)

/-- The frame line of a context in a position's frame cache. -/
def Pos.line (p : Pos) (ctx : Nat) : Option FLine := p.lines.find? (fun l => l.fr.ctx == ctx)

/-- A context's frame: the home cluster's line if present, else the record in HBM (R143). -/
def Dev.frame (d : Dev) (ctx : Nat) : Option Frame :=
  match (d.homePos ctx).bind (fun p => (d.pos p).line ctx) with
  | some l => some l.fr
  | none => tget? d.fab.frames ctx

/-- Change the frame lines of a context in a frame cache; a changed line differs from HBM. -/
def Pos.modLine (p : Pos) (ctx : Nat) (f : Frame → Frame) : Pos :=
  { p with lines := p.lines.map (fun l => if l.fr.ctx = ctx then { l with fr := f l.fr, dirty := true } else l) }

/-- Change a context's frame record in HBM. -/
def Dev.modRecord (d : Dev) (ctx : Nat) (f : Frame → Frame) : Dev :=
  match tget? d.fab.frames ctx with
  | some x => { d with fab := { d.fab with frames := tset d.fab.frames ctx (f x) } }
  | none => d

/-- Change a context's frame where it is: in the line, which then differs from HBM, else in the record (R43). -/
def Dev.modFrame (d : Dev) (ctx : Nat) (f : Frame → Frame) : Dev :=
  match d.homePos ctx with
  | some p => if ((d.pos p).line ctx).isSome then d.modPos p (fun q => q.modLine ctx f) else d.modRecord ctx f
  | none => d.modRecord ctx f

/-- A slot of a frame. -/
def Frame.slot (f : Frame) (i : Nat) : Nat := f.slots.getD i 0

/-- An active graph image. -/
def Dev.graph (d : Dev) (g : Nat) : Option Graph := tget? d.wrd.graphs g

/-- The image slot that occupies a code bank, with the graph (R379 `BANKS`). -/
def Dev.graphOfBank (d : Dev) (bank : Nat) : Option (Nat × Graph) :=
  d.wrd.graphs.find? (fun e => e.2.banks.testBit bank)

/-- The octets of code from a node address to the end of its bank or of the image's code section, at most 15 (R147, R171). -/
def Dev.codeAt (d : Dev) (node : Nat) : List Byte :=
  let off := node % 65536
  match d.graphOfBank (node / 65536) with
  | some (_, g) =>
    let c := (tget [] g.code (node / 65536)).drop off
    c.take (min 15 (65536 - off))
  | none => []

/-- Clusters, as die × 32 + logical cluster, that a graph's placement maps it to (R129): those its placed, local blocks
name; a `HOME` block names the clusters of its own entry. -/
def Dev.mapped (d : Dev) (g : Graph) : List Nat :=
  let es := d.fab.noc.place.filter (fun e => g.banks.testBit (e.1 / 256) && bit e.2 31 && !bit e.2 29)
  (es.map (fun e => bits e.2 16 15 * 32 + bits e.2 14 10)).eraseDups

/-- Positions in service. -/
def Dev.inService (d : Dev) : List (Nat × Pos) := d.fab.pos.filter (fun e => e.2.st == .inService)

end Sys2Proof.Machine
end

