-- ==== Sys2Proof/Machine/Keys.lean ====
section
/-! DEFINITION. Key attributes, handles, the key cache (R280–R282) and random numbers (R290) as every user of them sees them. -/

namespace Sys2Proof.Machine

/-! ### Attribute words (R282) -/

def aUsage (a : Nat) : Nat := bits a 63 56
def aAlg (a : Nat) : Nat := bits a 55 52
def aSize (a : Nat) : Nat := bits a 51 48
def aFwd (a : Nat) : Bool := bit a 47
def aRev (a : Nat) : Bool := bit a 46
def aExport (a : Nat) : Nat := bits a 45 44
def aKvn (a : Nat) : Nat := bits a 35 20

def uK1 : Nat := 1
def uP0 : Nat := 3
def uM6 : Nat := 4
def uM7 : Nat := 5
def uD0 : Nat := 6
def uB0 : Nat := 7
def uB1 : Nat := 8
def uS0 : Nat := 9
def uPub : Nat := 10
def algAes : Nat := 1
def algTdea : Nat := 2
def algEcc : Nat := 3
def algRsa : Nat := 4
def algHmac : Nat := 5

/-! ### Handles -/

/-- The key of a handle: none where there is no key, or no master key to unwrap it with (R280, R293). -/
def Dev.key? (d : Dev) (h : Nat) : Option KeyRec := if h = 0 || d.cry.master.isEmpty then none else tget? d.cry.keys h

/-- A handle holds a key, or the second unit of one. -/
def Dev.keyTaken (d : Dev) (h : Nat) : Bool :=
  (tget? d.cry.keys h).isSome || (match tget? d.cry.keys (h - 1) with | some k => 0 < h && bit k.attr 1 | none => false)

def Dev.ringReady (d : Dev) : Bool := d.cry.ring == 1

/-- Fetch a key through the key cache (R280). -/
def Dev.fetchKey (d : Dev) (h : Nat) : Option KeyRec × Dev :=
  match d.key? h with
  | none => (none, d)
  | some k =>
    if d.cry.cached.contains h then
      (some k, { d with cry := { d.cry with cached := h :: d.cry.cached.filter (· != h) } })
    else (some k, { d with cry := { d.cry with cached := (h :: d.cry.cached).take 4096 } }.bump 0x5000 3)

/-! ### Random numbers (R290) -/

def drbgTumbler : Nat := 0
def drbgLane : Nat := 1
def drbgSession : Nat := 2
def drbgWard : Nat := 3

/-- An instance produces. -/
def Dev.drbgOn (d : Dev) (i : Nat) : Bool := bit d.cry.drbg i

/-- A generate request of `n` octets. -/
def Dev.generate (d : Dev) (i n : Nat) : List Byte × Dev :=
  let (l, d) := d.draw n
  (l, { d with cry := { d.cry with reqs := tset d.cry.reqs i (tget 0 d.cry.reqs i + 1) } })

end Sys2Proof.Machine
end

