-- ==== Sys2Proof/Machine/Format.lean ====
section
/-! DEFINITION. Format tables and what the lexers read with them (R243, R255–R259): ISO 8583 fields by table, ISO 20022 by
an XML reader, and the field tokens of a delivery map. -/

namespace Sys2Proof.Machine

/-! ### Digits -/

/-- A decimal digit in an encoding: 0 ASCII, 1 EBCDIC. -/
def digitOf (enc : Nat) (b : Byte) : Option Nat :=
  let base := if enc = 1 then 0xF0 else 0x30
  if base ≤ b.toNat && b.toNat ≤ base + 9 then some (b.toNat - base) else none

/-- The digits of octets in ASCII (0), EBCDIC (1) or packed BCD (2); none where one is no digit. -/
def digitsOf (enc : Nat) (l : List Byte) : Option (List Nat) :=
  if enc = 2 then
    let ns := l.flatMap (fun b => [b.toNat / 16, b.toNat % 16])
    if ns.all (· ≤ 9) then some ns else none
  else l.mapM (digitOf enc)

/-- The number that digits spell, in base `b`. -/
def numOf (b : Nat) (l : List Nat) : Nat := l.foldl (fun a x => b * a + x) 0

/-- A hex digit in ASCII (1) or EBCDIC (2). -/
def hexOf (enc : Nat) (b : Byte) : Option Nat :=
  let v := b.toNat
  if enc = 1 then
    if 0x30 ≤ v && v ≤ 0x39 then some (v - 0x30) else if 0x41 ≤ v && v ≤ 0x46 then some (v - 0x37)
    else if 0x61 ≤ v && v ≤ 0x66 then some (v - 0x57) else none
  else
    if 0xF0 ≤ v && v ≤ 0xF9 then some (v - 0xF0) else if 0xC1 ≤ v && v ≤ 0xC6 then some (v - 0xB7)
    else if 0x81 ≤ v && v ≤ 0x86 then some (v - 0x77) else none

/-! ### Format tables (R256) -/

/-- Word `i` of a format table: the header is word 0, field *n* word *n*. -/
def fmtWord (t : List Byte) (i : Nat) : Nat := leNat ((t.drop (8 * i)).take 8)

def fmtFamily (t : List Byte) : Nat := bits (fmtWord t 0) 63 62
def fmtVersion (t : List Byte) : Nat := bits (fmtWord t 0) 61 60
def fmtHeaderLen (t : List Byte) : Nat := bits (fmtWord t 0) 59 54
def fmtMtiEnc (t : List Byte) : Nat := bits (fmtWord t 0) 53 52
def fmtBitmapEnc (t : List Byte) : Nat := bits (fmtWord t 0) 51 50
def fmtCorrField (t : List Byte) : Nat := bits (fmtWord t 0) 49 42
def fmtCorrOffset (t : List Byte) : Nat := bits (fmtWord t 0) 41 32

/-- A field entry of an ISO 8583 table. -/
structure FldEnt where
  lenType : Nat
  lenEnc  : Nat
  enc     : Nat
  unit    : Bool
  max     : Nat
  chars   : Nat
  deriving DecidableEq, Repr

def fmtField (t : List Byte) (n : Nat) : FldEnt :=
  let w := fmtWord t n
  ⟨bits w 63 62, bits w 61 60, bits w 59 58, bit w 57, bits w 56 46, bits w 45 44⟩

/-- Octets that a length of `n` units takes. -/
def FldEnt.octets (e : FldEnt) (n : Nat) : Nat := if e.unit && e.enc = 2 then (n + 1) / 2 else n

/-- Octets of a field's length prefix. -/
def FldEnt.lenOctets (e : FldEnt) : Nat :=
  if e.lenType = 0 then 0 else if e.lenEnc < 2 then e.lenType + 1 else e.lenType

/-- A field found in a message: its number, data, length in its units, encoding, decimal conversion, occurrence. -/
structure Found where
  n    : Nat
  data : List Byte
  len  : Nat
  enc  : Nat
  dec  : Bool
  occ  : Nat
  deriving DecidableEq, Repr

/-- What a reader makes of a message: type code, correlation value, fields in order, the first error as detail and
field, and whether the message ended early. -/
structure Parsed where
  type  : Option Nat
  corr  : Option Nat
  found : List Found
  err   : Option (Nat × Nat)
  short : Bool
  deriving DecidableEq, Repr

def parsedNone : Parsed := ⟨none, none, [], none, false⟩

/-- The correlation value of a field's data (R255). -/
def corrOf (enc offset : Nat) (data : List Byte) : Option Nat :=
  if enc = 3 then none
  else match digitsOf enc ((data.drop offset).take (if enc = 2 then 5 else 10)) with
    | some ds => if ds.length = 10 && numOf 10 ds < 2 ^ 30 then some (numOf 10 ds) else none
    | none => none

/-! ### ISO 8583 -/

/-- The fields that up to `n` bitmaps announce from bitmap `b` on: the bits set, the rest, or an error (false: not hex;
true: the message ends). -/
def bitmaps (enc : Nat) : Nat → Nat → List Byte → Except Bool (List Nat × List Byte)
  | 0, _, l => .ok ([], l)
  | n + 1, b, l =>
    let w := if enc = 0 then 8 else 16
    if l.length < w then .error true
    else
      let v := if enc = 0 then some (beNat (l.take 8)) else ((l.take 16).mapM (hexOf enc)).map (numOf 16)
      match v with
      | none => .error false
      | some v =>
        let here := (List.range 64).filterMap (fun j => if bit v (63 - j) then some (64 * b + j + 1) else none)
        if bit v 63 then
          match bitmaps enc n (b + 1) (l.drop w) with
          | .ok (r, l) => .ok (here ++ r, l)
          | .error e => .error e
        else .ok (here, l.drop w)

/-- The length of a field from its prefix: none where it is no number. -/
def fieldLen (e : FldEnt) (raw : List Byte) : Option Nat :=
  if e.lenType = 0 then some e.max
  else if e.lenEnc = 3 then some (beNat raw) else (digitsOf e.lenEnc raw).map (numOf 10)

/-- Read the fields announced, in order. -/
def readFields (t : List Byte) : List Nat → List Byte → Parsed → Parsed
  | [], _, p => p
  | n :: r, l, p =>
    if n = 1 || n = 65 then readFields t r l p
    else
      let e := fmtField t n
      if t.length < 8 * n + 8 || e.lenType = 3 then { p with err := some (2, n) }
      else if l.length < e.lenOctets then { p with short := true }
      else match fieldLen e (l.take e.lenOctets) with
        | none => { p with err := some (2, n) }
        | some c =>
          let l := l.drop e.lenOctets
          if e.max < c then { p with err := some (2, n) }
          else if l.length < e.octets c then { p with short := true }
          else
            let data := l.take (e.octets c)
            if e.chars = 1 && e.enc < 3 && (digitsOf e.enc data).isNone then { p with err := some (2, n) }
            else
              let p := { p with
                found := p.found ++ [⟨n, data, c, e.enc, false, 0⟩],
                corr := if n = fmtCorrField t then corrOf e.enc (fmtCorrOffset t) data else p.corr }
              readFields t r (l.drop (e.octets c)) p

/-- Read an ISO 8583 message (R256), without its prefix. -/
def parse8583 (t : List Byte) (m : List Byte) : Parsed :=
  let enc := fmtMtiEnc t
  let k := if enc = 2 then 2 else 4
  let l := m.drop (fmtHeaderLen t)
  if l.length < k then { parsedNone with short := true }
  else match digitsOf enc (l.take k) with
    | none => { parsedNone with err := some (2, 0) }
    | some ds =>
      if ds.headD 9 ≠ fmtVersion t then { parsedNone with err := some (2, 0) }
      else
        let p := { parsedNone with type := some (numOf 16 ds) }
        match bitmaps (fmtBitmapEnc t) 3 0 (l.drop k) with
        | .error true => { p with short := true }
        | .error false => { p with err := some (2, 0) }
        | .ok (fs, l) => readFields t fs l p

/-! ### XML (R257) -/

/-- How a reading ends. -/
inductive XEnd where
  | done | bad | short
  deriving DecidableEq, Repr

/-- Code points of UTF-8 octets: those that are whole, and how they end: broken, or cut short. -/
def utf8Go : Nat → List Byte → List Nat → List Nat × XEnd
  | 0, _, a => (a.reverse, .done)
  | _, [], a => (a.reverse, .done)
  | k + 1, b :: r, a =>
    let v := b.toNat
    let more (n lo top : Nat) : List Nat × XEnd :=
      let c := r.take n
      let x := c.foldl (fun s o => s * 64 + o.toNat % 64) (v % top)
      if !(c.all (fun o => o.toNat / 64 == 2)) then (a.reverse, .bad)
      else if c.length < n then (a.reverse, .short)
      else if x < lo || 0x10FFFF < x || (0xD800 ≤ x && x ≤ 0xDFFF) || x = 0xFFFE || x = 0xFFFF then (a.reverse, .bad)
      else utf8Go k (r.drop n) (x :: a)
    if v < 0x80 then
      if v < 0x20 && v != 9 && v != 10 && v != 13 then (a.reverse, .bad) else utf8Go k r (v :: a)
    else if v < 0xC2 then (a.reverse, .bad)
    else if v < 0xE0 then more 1 0x80 32
    else if v < 0xF0 then more 2 0x800 16
    else if v < 0xF5 then more 3 0x10000 8
    else (a.reverse, .bad)

def utf8Dec (l : List Byte) : List Nat × XEnd := utf8Go l.length l []

/-- UTF-8 octets of a code point. -/
def utf8Enc (c : Nat) : List Byte :=
  (if c < 0x80 then [c]
   else if c < 0x800 then [0xC0 + c / 64, 0x80 + c % 64]
   else if c < 0x10000 then [0xE0 + c / 4096, 0x80 + c / 64 % 64, 0x80 + c % 64]
   else [0xF0 + c / 262144, 0x80 + c / 4096 % 64, 0x80 + c / 64 % 64, 0x80 + c % 64]).map (BitVec.ofNat 8)

/-- Line ends as XML reads them: CR LF and CR are LF. -/
def lineEnds : List Nat → List Nat
  | [] => []
  | 13 :: 10 :: r => 10 :: lineEnds r
  | 13 :: r => 10 :: lineEnds r
  | c :: r => c :: lineEnds r

/-- Code points of ASCII text. -/
def asc (s : String) : List Nat := s.toList.map Char.toNat

def xSpace (c : Nat) : Bool := c == 0x20 || c == 9 || c == 10 || c == 13

def within (c : Nat) (l : List (Nat × Nat)) : Bool := l.any (fun r => r.1 ≤ c && c ≤ r.2)

/-- Characters that begin a name, and that go on in one (XML 1.0). -/
def xNameStart (c : Nat) : Bool :=
  within c [(0x3A, 0x3A), (0x41, 0x5A), (0x5F, 0x5F), (0x61, 0x7A), (0xC0, 0xD6), (0xD8, 0xF6), (0xF8, 0x2FF),
    (0x370, 0x37D), (0x37F, 0x1FFF), (0x200C, 0x200D), (0x2070, 0x218F), (0x2C00, 0x2FEF), (0x3001, 0xD7FF),
    (0xF900, 0xFDCF), (0xFDF0, 0xFFFD), (0x10000, 0xEFFFF)]
def xName (c : Nat) : Bool := xNameStart c || within c [(0x2D, 0x2E), (0x30, 0x39), (0xB7, 0xB7), (0x300, 0x36F), (0x203F, 0x2040)]

/-- What the reader meets: a start tag with its attributes, each name as namespace and local name; text; an end tag. -/
inductive XEv where
  | start (uri loc : List Nat) (attrs : List (List Nat × List Nat × List Nat))
  | text (t : List Nat)
  | stop
  deriving DecidableEq, Repr

/-- A prefix of a list. -/
def startsWith (p l : List Nat) : Bool := p.isPrefixOf l

/-- What stands before the first occurrence of `p`, and what follows it. -/
def splitOn (p : List Nat) : List Nat → Option (List Nat × List Nat)
  | [] => none
  | c :: r =>
    if startsWith p (c :: r) then some ([], (c :: r).drop p.length)
    else (splitOn p r).map (fun q => (c :: q.1, q.2))

/-- Leading white space removed. -/
def skipSp (l : List Nat) : List Nat := l.dropWhile xSpace

/-- A name at the front. -/
def takeName (l : List Nat) : Option (List Nat × List Nat) :=
  match l with
  | c :: _ => if xNameStart c then some (l.takeWhile xName, l.dropWhile xName) else none
  | [] => none

/-- A character that XML allows. -/
def xChar (c : Nat) : Bool := c == 9 || c == 10 || c == 13 || within c [(0x20, 0xD7FF), (0xE000, 0xFFFD), (0x10000, 0x10FFFF)]

/-- Digits of a character reference in base 10 or 16. -/
def refNum (b : Nat) (l : List Nat) : Option Nat :=
  if l.isEmpty then none
  else (l.mapM (fun c => if 0x30 ≤ c && c ≤ 0x39 then some (c - 0x30)
    else if b = 16 && 0x41 ≤ c && c ≤ 0x46 then some (c - 0x37)
    else if b = 16 && 0x61 ≤ c && c ≤ 0x66 then some (c - 0x57) else none)).map (numOf b)

/-- The character that a reference names, by what stands between `&` and `;`. -/
def refOf (n : List Nat) : Option Nat :=
  if n = asc "amp" then some 0x26 else if n = asc "lt" then some 0x3C else if n = asc "gt" then some 0x3E
  else if n = asc "quot" then some 0x22 else if n = asc "apos" then some 0x27
  else
    let v := if startsWith (asc "#x") n then refNum 16 (n.drop 2) else if startsWith (asc "#") n then refNum 10 (n.drop 1) else none
    match v with | some c => if xChar c then some c else none | none => none

/-- The value of an attribute: references replaced, white space as spaces; none where it is not well-formed. -/
def attrValue : Nat → List Nat → Option (List Nat)
  | 0, _ => some []
  | _, [] => some []
  | k + 1, c :: r =>
    if c = 0x3C then none
    else if c = 0x26 then
      match splitOn [0x3B] r with
      | some (n, r) => match refOf n with
        | some x => (attrValue k r).map (x :: ·)
        | none => none
      | none => none
    else (attrValue k r).map ((if xSpace c then 0x20 else c) :: ·)

/-- Attributes up to the end of a tag: names and values, whether the element is empty, and the rest. -/
def takeAttrs : Nat → List Nat → List (List Nat × List Nat) → Except XEnd (List (List Nat × List Nat) × Bool × List Nat)
  | 0, _, _ => .error .short
  | k + 1, l, acc =>
    match skipSp l with
    | [] => .error .short
    | 0x3E :: r => .ok (acc.reverse, false, r)
    | 0x2F :: 0x3E :: r => .ok (acc.reverse, true, r)
    | [0x2F] => .error .short
    | l' =>
      if !(match l with | c :: _ => xSpace c | [] => false) then .error .bad
      else match takeName l' with
        | none => .error .bad
        | some (n, r) =>
          match skipSp r with
          | [] => .error .short
          | 0x3D :: r => match skipSp r with
            | [] => .error .short
            | q :: r =>
              if q != 0x22 && q != 0x27 then .error .bad
              else match splitOn [q] r with
                | none => .error .short
                | some (v, r) => match attrValue (v.length + 1) v with
                  | none => .error .bad
                  | some v => if acc.any (fun a => a.1 == n) then .error .bad else takeAttrs k r ((n, v) :: acc)
          | _ => .error .bad

/-- A name as prefix and local name. -/
def qname (n : List Nat) : Option (List Nat × List Nat) :=
  match splitOn [0x3A] n with
  | none => some ([], n)
  | some (p, l) => if p.isEmpty || l.isEmpty || l.contains 0x3A then none else some (p, l)

/-- The namespace of a prefix in scope. -/
def nsOf (scope : List (List Nat × List Nat)) (p : List Nat) : Option (List Nat) :=
  if p = asc "xml" then some (asc "http://www.w3.org/XML/1998/namespace")
  else match scope.find? (fun e => e.1 == p) with
    | some e => if e.2.isEmpty && !p.isEmpty then none else some e.2
    | none => if p.isEmpty then some [] else none

/-- The reader: open elements with the scope of each, events met (latest first), whether the root has been read. -/
structure XState where
  stack : List (List Nat × List (List Nat × List Nat))
  evs   : List XEv
  root  : Bool
  deriving DecidableEq, Repr

/-- A start tag with its attributes read. -/
def XState.open_ (s : XState) (n : List Nat) (as : List (List Nat × List Nat)) : Option (XState × List (List Nat × List Nat)) :=
  let up := match s.stack with | (_, sc) :: _ => sc | [] => []
  let decl := as.filterMap (fun a =>
    if a.1 = asc "xmlns" then some ([], a.2)
    else if startsWith (asc "xmlns:") a.1 then some (a.1.drop 6, a.2) else none)
  let sc := decl ++ up
  let plain := as.filter (fun a => !(a.1 == asc "xmlns") && !(startsWith (asc "xmlns:") a.1))
  let res (deflt : Bool) (x : List Nat) : Option (List Nat × List Nat) :=
    match qname x with
    | some (p, l) => if p.isEmpty && !deflt then some ([], l) else (nsOf sc p).map (fun u => (u, l))
    | none => none
  match res true n, plain.mapM (fun a => (res false a.1).map (fun q => (q.1, q.2, a.2))) with
  | some (u, l), some ats =>
    let keys := ats.map (fun a => (a.1, a.2.1))
    if 16 < as.length || 32 ≤ s.stack.length || (s.stack.isEmpty && s.root) || !(decide keys.Nodup)
        || decl.any (fun d => !d.1.isEmpty && d.2.isEmpty) then none
    else some ({ s with evs := .start u l ats :: s.evs, root := true }, sc)
  | _, _ => none

/-- Text: the data up to `<` or `&`. -/
def plainText (l : List Nat) : List Nat × List Nat :=
  (l.takeWhile (fun c => c != 0x3C && c != 0x26), l.dropWhile (fun c => c != 0x3C && c != 0x26))

/-- The reader's loop. -/
def xmlGo : Nat → XState → List Nat → XState × XEnd
  | 0, s, _ => (s, .short)
  | k + 1, s, l =>
    let push (s : XState) (t : List Nat) : XState := { s with evs := .text t :: s.evs }
    match l with
    | [] => (s, if s.stack.isEmpty && s.root then .done else .short)
    | 0x3C :: r =>
      if startsWith (asc "!--") r then
        match splitOn (asc "--") (r.drop 3) with
        | none => (s, .short)
        | some (_, 0x3E :: r) => xmlGo k s r
        | some (_, []) => (s, .short)
        | some _ => (s, .bad)
      else if startsWith (asc "![CDATA[") r then
        if s.stack.isEmpty then (s, .bad)
        else match splitOn (asc "]]>") (r.drop 8) with
          | none => (s, .short)
          | some (t, r) => xmlGo k (push s t) r
      else if startsWith (asc "?") r then
        match splitOn (asc "?>") (r.drop 1) with
        | none => (s, .short)
        | some (t, r) => match takeName t with
          | none => (s, .bad)
          | some (n, t) =>
            if n.map (fun c => if 0x41 ≤ c && c ≤ 0x5A then c + 0x20 else c) = asc "xml" || !(t.take 1).all xSpace then (s, .bad)
            else xmlGo k s r
      else match r with
        | [] => (s, .short)
        | 0x21 :: _ =>
          if startsWith r (asc "!--") || startsWith r (asc "![CDATA[") then (s, .short) else (s, .bad)
        | 0x2F :: r =>
          match splitOn [0x3E] r with
          | none => (s, .short)
          | some (t, r) => match s.stack with
            | [] => (s, .bad)
            | (n, _) :: up =>
              if startsWith n t && (skipSp (t.drop n.length)).isEmpty then
                xmlGo k { s with stack := up, evs := .stop :: s.evs } r
              else (s, .bad)
        | _ => match takeName r with
          | none => (s, .bad)
          | some (n, r) => match takeAttrs (r.length + 1) r [] with
            | .error e => (s, e)
            | .ok (as, empty, r) => match s.open_ n as with
              | none => (s, .bad)
              | some (s', sc) =>
                if empty then xmlGo k { s' with evs := .stop :: s'.evs } r
                else xmlGo k { s' with stack := (n, sc) :: s'.stack } r
    | 0x26 :: r =>
      if s.stack.isEmpty then (s, .bad)
      else match splitOn [0x3B] r with
        | none => (s, .short)
        | some (n, r) => match refOf n with
          | some c => xmlGo k (push s [c]) r
          | none => (s, .bad)
    | l =>
      let (t, r) := plainText l
      if s.stack.isEmpty then if t.all xSpace then xmlGo k s r else (s, .bad)
      else if (splitOn (asc "]]>") t).isSome then (s, .bad)
      else xmlGo k (push s t) r

/-- The XML declaration: it names UTF-8 or no encoding; what follows it. -/
def xmlDecl (l : List Nat) : Except XEnd (List Nat) :=
  match l with
  | 0x3C :: 0x3F :: 0x78 :: 0x6D :: 0x6C :: c :: r =>
    if !xSpace c then .ok l
    else match splitOn (asc "?>") (c :: r) with
      | none => .error .short
      | some (t, r) => match takeAttrs (t.length + 2) (t ++ [0x3E]) [] with
        | .error _ => .error .bad
        | .ok (as, empty, rest) =>
          let get (n : String) : Option (List Nat) := (as.find? (fun a => a.1 == asc n)).map (·.2)
          let names := as.map (·.1)
          let encOk := match get "encoding" with
            | some e => e.map (fun c => if 0x61 ≤ c && c ≤ 0x7A then c - 0x20 else c) == asc "UTF-8"
            | none => true
          let saOk := match get "standalone" with | some e => e == asc "yes" || e == asc "no" | none => true
          if !empty && rest.isEmpty && get "version" == some (asc "1.0") && encOk && saOk
              && (names == [asc "version"] || names == [asc "version", asc "encoding"]
                || names == [asc "version", asc "standalone"]
                || names == [asc "version", asc "encoding", asc "standalone"]) then .ok r
          else .error .bad
  | _ => .ok l

/-- Read a message as XML: the events in order and how the reading ends. -/
def xmlRead (m : List Byte) : List XEv × XEnd :=
  let (cs, u) := utf8Dec m
  let cs := lineEnds (if cs.head? = some 0xFEFF then cs.drop 1 else cs)
  match xmlDecl cs with
  | .error e => ([], if u = .bad then .bad else e)
  | .ok l =>
    let (s, e) := xmlGo (l.length + 2) ⟨[], [], false⟩ l
    (s.evs.reverse, if e = .bad || u = .bad then .bad else if u = .short then .short else e)

/-! ### ISO 20022 (R257) -/

/-- Where the parts of an ISO 20022 table stand behind its header (log 40): counts of namespaces, types and paths in
octets 8–10; namespaces, each the pool offset of its URI; types, each a URI index and a code; the name pool; paths. -/
def xNsAt : Nat := 12
def xTypeAt : Nat := 44
def xPoolAt : Nat := 236
def xPathAt : Nat := 4332

/-- A length-prefixed name of the pool. -/
def poolName (t : List Byte) (off : Nat) : List Nat :=
  let l := ((t.drop xPoolAt).take 4096).drop off
  match l with
  | n :: r => (utf8Dec (r.take n.toNat)).1
  | [] => []

/-- The URI of a namespace index. -/
def nsUri (t : List Byte) (i : Nat) : Option (List Nat) :=
  if i < (t.getD 8 0).toNat then some (poolName t (leNat ((t.drop (xNsAt + 2 * i)).take 2))) else none

/-- The type code that the type list assigns to a URI. -/
def typeOfUri (t : List Byte) (u : List Nat) : Option Nat :=
  (List.range (t.getD 9 0).toNat).findSome? (fun i =>
    let e := t.drop (xTypeAt + 3 * i)
    if nsUri t (leNat (e.take 1)) == some u then some (leNat ((e.drop 1).take 2)) else none)

/-- A path entry: steps as URI and local name, attribute flag, decimal conversion. -/
structure XPath where
  steps : List (List Nat × List Nat)
  attr  : Bool
  dec   : Bool
  deriving DecidableEq, Repr

/-- Path entry `n`, counted from 1. -/
def xPath (t : List Byte) (n : Nat) : XPath :=
  let e := (t.drop (xPathAt + 32 * (n - 1))).take 32
  let c := (e.getD 0 0).toNat
  let f := (e.getD 1 0).toNat
  ⟨(List.range (min 12 c)).map (fun i =>
      let w := leNat ((e.drop (2 + 2 * i)).take 2)
      ((nsUri t (w / 4096)).getD [], poolName t (w % 4096))), bit f 0, bit f 1⟩

/-- The path entries of a table that match an ancestry. -/
def xMatches (ps : List (Nat × XPath)) (attr : Bool) (steps : List (List Nat × List Nat)) : List (Nat × XPath) :=
  ps.filter (fun p => p.2.attr == attr && p.2.steps == steps)

/-- The found data of matching paths, appended; occurrences are counted per path. -/
def xFind (ms : List (Nat × XPath)) (v : List Nat) (found : List Found) : List Found :=
  let o := v.flatMap utf8Enc
  ms.foldl (fun fs m => fs ++ [⟨m.1, o, o.length, 0, m.2.dec, (fs.filter (fun f => f.n == m.1)).length⟩]) found

/-- Walk the events: open elements with the text gathered in each. -/
def xWalk (ps : List (Nat × XPath)) : List XEv → List ((List Nat × List Nat) × List Nat) → List Found → List Found
  | [], _, fs => fs
  | .start u l as :: r, st, fs =>
    let st' := ((u, l), []) :: st
    let here := (st'.map (·.1)).reverse
    let fs := as.foldl (fun fs a => xFind (xMatches ps true (here ++ [(a.1, a.2.1)])) a.2.2 fs) fs
    xWalk ps r st' fs
  | .text t :: r, st, fs =>
    (match st with
     | (n, x) :: up => xWalk ps r ((n, x ++ t) :: up) fs
     | [] => xWalk ps r st fs)
  | .stop :: r, st, fs =>
    (match st with
     | (_, x) :: up => xWalk ps r up (xFind (xMatches ps false (st.map (·.1)).reverse) x fs)
     | [] => xWalk ps r st fs)

/-- Read an ISO 20022 message, without its prefix. -/
def parse20022 (t : List Byte) (m : List Byte) : Parsed :=
  let (evs, e) := xmlRead m
  let ps := (upFrom 1 (t.getD 10 0).toNat).map (fun n => (n, xPath t n))
  let fs := xWalk ps evs [] []
  let type := evs.findSome? (fun v => match v with
    | .start u l _ => some (if l = asc "Document" then typeOfUri t u else none)
    | _ => none)
  { type := type.join, found := fs,
    corr := (fs.find? (fun f => f.n == fmtCorrField t)).bind (fun f => corrOf 0 (fmtCorrOffset t) f.data),
    err := if e = .bad then some (5, 0) else none, short := e == .short }

/-- Read a message with a table, without its prefix. -/
def parseMsg (t : List Byte) (m : List Byte) : Parsed := if fmtFamily t = 1 then parse20022 t m else parse8583 t m

/-! ### Field tokens (R258–R261) -/

/-- A field token to send: destination as `TAG`[23:2], value, kind, `ITER`. -/
structure FTok where
  np   : Nat
  v    : Nat
  kind : Nat
  iter : Nat
  deriving DecidableEq, Repr

def dmForm (w : Nat) : Nat := bits w 63 62
def dmAux (w : Nat) : Nat := bits w 61 60
def dmDest (w : Nat) : Nat := bits w 59 38
def dmAuxDest (w : Nat) : Nat := bits w 37 16
def dmScale (w : Nat) : Nat := bits w 15 8

/-- The delivery entry of field *n* of a map. -/
def dmEntry (m : List Nat) (n : Nat) : Nat := m.getD (n - 1) 0

/-- The value of decimal text with at most `scale` fraction digits, × 10^`scale` (R259). -/
def decimalValue (scale : Nat) (l : List Byte) : Option Int :=
  let neg := l.head? == some 0x2D
  let l := if neg then l.drop 1 else l
  let ip := l.takeWhile (fun b => b != 0x2E)
  let rest := l.dropWhile (fun b => b != 0x2E)
  let fp := rest.drop 1
  match digitsOf 0 ip, digitsOf 0 fp with
  | some a, some b =>
    if a.isEmpty || scale < b.length then none
    else
      let v : Int := (numOf 10 (a ++ b) * 10 ^ (scale - b.length) : Nat)
      some (if neg then -v else v)
  | _, _ => none

/-- The value of an `INT` field; none where it is out of range or not numeric. -/
def intField (f : Found) (scale : Nat) : Option Nat :=
  let v : Option Int :=
    if f.dec then decimalValue scale f.data
    else if f.enc = 3 then if 1 ≤ f.data.length && f.data.length ≤ 5 then some (beNat f.data : Int) else none
    else match digitsOf f.enc f.data with
      | some ds => if 1 ≤ ds.length && ds.length ≤ 12 then some (numOf 10 ds : Int) else none
      | none => none
  match v with
  | some i => if i.natAbs ≤ 2 ^ 39 - 1 then some (i % (2 : Int) ^ 40).toNat else none
  | none => none

/-- A pair of tokens for up to 10 octets. -/
def pairToks (np iter : Nat) (l : List Byte) : List FTok :=
  [⟨np, leNat (l.take 5), 2, iter⟩, ⟨np, leNat ((l.drop 5).take 5), 3, iter⟩]

/-- The tokens of a field: none for the error of detail 0x003. -/
def fieldToks (w : Nat) (f : Found) : Option (List FTok) :=
  let data : Option (List FTok) :=
    match dmForm w with
    | 1 => (intField f (dmScale w)).map (fun v => [⟨dmDest w, v, 0, f.occ⟩])
    | 2 => if 10 < f.data.length then none
      else if f.data.length ≤ 5 then some [⟨dmDest w, leNat f.data, 0, f.occ⟩] else some (pairToks (dmDest w) f.occ f.data)
    | 3 => some ((pieces' f.data.length f.data).zipIdx.flatMap (fun c => pairToks (dmDest w) c.2 c.1))
    | _ => some []
  data.map (fun l => l ++ (match dmAux w with
    | 1 => [⟨dmAuxDest w, 1, 1, f.occ⟩]
    | 2 => [⟨dmAuxDest w, f.len, 0, f.occ⟩]
    | _ => []))
where
  /-- Chunks of 10 octets. -/
  pieces' : Nat → List Byte → List (List Byte)
    | 0, _ => []
    | _, [] => []
    | k + 1, l => l.take 10 :: pieces' k (l.drop 10)

/-- What a lexer sends for a message: tokens in order, and the error as detail and field. -/
def lexFields (map : List Nat) : List Found → List FTok × Option (Nat × Nat)
  | [] => ([], none)
  | f :: r =>
    let w := dmEntry map f.n
    if dmForm w = 3 && 0 < f.occ then ([], some (2, f.n))
    else match fieldToks w f with
      | none => ([], some (3, f.n))
      | some l => let q := lexFields map r; (l ++ q.1, q.2)

/-- R260: the presence bits of absent fields. -/
def absentToks (map : List Nat) (found : List Found) : List FTok :=
  (upFrom 1 192).filterMap (fun n =>
    let w := dmEntry map n
    if dmAux w = 1 && !(found.any (fun f => f.n == n)) then some ⟨dmAuxDest w, 0, 1, 0⟩ else none)

/-- At most 512 tokens, then the error of detail 0x004; an error names its field's node (R260, R261). -/
def lexCap (map : List Nat) (toks : List FTok) (e : Option (Nat × Nat)) : List FTok × Option (Nat × Nat) :=
  let node (n : Nat) : Nat := if n = 0 then 0 else dmDest (dmEntry map n) / 4
  if 512 < toks.length then (toks.take 512, some (4, 0)) else (toks, e.map (fun x => (x.1, node x.2)))

/-- The tokens of the part of a message that has been read, and the error met in it (R262). -/
def lexPart (t : List Byte) (map : List Nat) (m : List Byte) : List FTok × Option (Nat × Nat) :=
  let p := parseMsg t m
  let q := lexFields map p.found
  lexCap map q.1 (q.2.or p.err)

/-- The tokens of a message and the error that ends its lexing, as detail and node address (R260, R261). -/
def lexMsg (t : List Byte) (map : List Nat) (m : List Byte) (aborted : Bool) : List FTok × Option (Nat × Nat) :=
  let p := parseMsg t m
  let q := lexFields map p.found
  let e := (q.2.or p.err).or (if aborted then some (1, 0) else if p.short && fmtFamily t = 1 then some (5, 0) else none)
  lexCap map (if e.isNone then q.1 ++ absentToks map p.found else q.1) e

end Sys2Proof.Machine
end

