-- ==== Sys2Proof/Machine/Events.lean ====
section
/-! DEFINITION. What many meanings raise on their way: MSI-X vectors, performance counter events (R409–R417), wasted
slots (R414), armed error injection (R406), the token check (R32). -/

namespace Sys2Proof.Machine

/-- An MSI-X vector sent to the host, unless the port is down or the host masks it. -/
def Dev.msix (d : Dev) (v : Nat) : Dev :=
  if d.lnk.pcieUp && !d.lnk.masked.contains v then { d with lnk := { d.lnk with msix := d.lnk.msix ++ [(v, d.up)] } } else d

/-- Set an interrupt pending at the Glolet core (R359). -/
def Dev.wardIrq (d : Dev) (i : Nat) : Dev :=
  { d with wrd := { d.wrd with core := { d.wrd.core with irqPend := d.wrd.core.irqPend ||| 2 ^ i } } }

/-! ### Performance counters -/

/-- The counter block of the hub (R409). -/
def Dev.hubBlock (d : Dev) : Nat := d.dies

/-- R412: the events of kind C. -/
def evIsCond (code : Nat) : Bool := [0x0A, 0x0B, 0x0E, 0x46, 0x47, 0x4B, 0x4C].contains code

/-- R412: a filter lets an occurrence `x` through. For die events `x` is position × 64 + cell (or priority). -/
def evFilter (code f x : Nat) : Bool :=
  f == 0xFFF
  || (if code ≤ 6 then (bits f 11 6 == 0x3F || bits f 11 6 == x / 64) && (bits f 5 0 == 0x3F || bits f 5 0 == x % 64)
      else if code < 0x40 then bits f 11 6 == x / 64 && (code != 0x0A || bits f 2 0 == x % 8)
      else if code == 0x40 || code == 0x41 || code ≥ 0x4B then bits f 7 0 == x
      else if code == 0x45 then bits f 3 0 == x
      else bits f 5 0 == x)

/-- An overflow of a counter (R417): the actions that its configuration selects. -/
def Dev.ctrOverflow (d : Dev) (key cfg : Nat) : Dev :=
  let act := bits cfg 53 52
  let id := bits cfg 63 56
  let d :=
    if act % 2 = 1 then
      if d.perf.ovfQ.length < 32 then
        { d with perf := { d.perf with ovfQ := d.perf.ovfQ ++ [(key / 8, key % 8, id)] } }.msix 65
      else d.bump 0xA000 0x0C
    else d
  if 2 ≤ act then
    let s := d.obj (0xA100 + key / 8) (0x12 + key % 8)
    d.hubToken agWard (bits s 2 0)
      (mkTok (mkTag (bits s 63 40) (bits s 39 34) 0 (bits s 33 14) (bits s 13 12))
        (2 * 2 ^ 32 + id * 2 ^ 24 + key / 8 % 8 * 2 ^ 21 + key % 8 * 2 ^ 16) kControl 0)
  else d

/-- `n` occurrences reach a counter; past 2^48 − 1 it wraps (R409). -/
def Dev.ctrAdd (d : Dev) (key n : Nat) : Dev :=
  let c := tget ctrInit d.perf.ctrs key
  let v := c.count + n
  let d := { d with perf := { d.perf with
    ctrs := tset d.perf.ctrs key { c with count := v % 2 ^ 48, wrap := c.wrap || decide (2 ^ 48 ≤ v) } } }
  if 2 ^ 48 ≤ v then d.ctrOverflow key c.cfg else d

/-- A counter counts this occurrence. -/
def Ctr.hit (c : Ctr) (code x : Nat) : Bool :=
  bit c.cfg 55 && bits c.cfg 50 44 == code && evFilter code (bits c.cfg 43 32) x

/-- `n` occurrences of an event of kind E at a block (R411). -/
def Dev.event (d : Dev) (blk code x n : Nat) : Dev :=
  (d.perf.ctrs.filter (fun e => e.1 / 8 == blk && e.2.hit code x)).foldl (fun d e => d.ctrAdd e.1 n) d

/-- An occurrence at a cluster position. -/
def Dev.posEvent (d : Dev) (pos code x : Nat) : Dev := d.event (pos / 34) code (pos % 34 * 64 + x) 1

/-- An occurrence at the hub. -/
def Dev.hubEvent (d : Dev) (code x : Nat) : Dev := d.event d.hubBlock code x 1

/-! ### Slots (R413, R414) -/

def slotR : Nat := 0
def slotW : Nat := 1
def slotB : Nat := 2
def slotF : Nat := 3

/-- Slots of a category at a position. -/
def Dev.slotCount (d : Dev) (pos cat : Nat) : Nat := tget 0 d.perf.slots (pos * 8 + cat)

/-- Add `n` slots of a category at a position. -/
def Dev.slotAdd (d : Dev) (pos cat n : Nat) : Dev :=
  { d with perf := { d.perf with slots := tset d.perf.slots (pos * 8 + cat) (d.slotCount pos cat + n) } }

/-- R414: a token discarded in a cluster moves one slot from *F* to *W*. -/
def Dev.wasted (d : Dev) (pos : Nat) : Dev :=
  if d.slotCount pos slotF = 0 then (d.slotAdd pos slotW 1).bump 0xA000 0x0D
  else
    let d := { d with perf := { d.perf with
      slots := tset d.perf.slots (pos * 8 + slotF) (d.slotCount pos slotF - 1) } }
    d.slotAdd pos slotW 1

/-- A token discarded in a cluster by generation (R49): counter `sub` of 0x2801, one wasted slot, event 0x07. -/
def Dev.staleAt (d : Dev) (pos sub : Nat) : Dev := ((d.bump 0x2801 sub).wasted pos).posEvent pos 0x07 0

/-- A malformed token discarded in a cluster (R28). -/
def Dev.malformed (d : Dev) (pos : Nat) : Dev := ((d.bump 0x2801 5).wasted pos).report 0x10 (posLoc pos)

/-- A token to a node address that no loaded line holds (R89). -/
def Dev.unmapped (d : Dev) (pos : Nat) : Dev := ((d.bump 0x2202 1).wasted pos).report 0x16 (posLoc pos)

/-! ### Injection and checks -/

/-- The injection armed at a checker meets an item there (R406): its mode and bits, and the block with one item less
to inject. -/
def Dev.takeInj (d : Dev) (chk loc : Nat) : Nat × Nat × Dev :=
  let j := d.flt.inj
  if 0 < d.flt.injLeft && j.1 == chk && (j.2.2.2 == 0 || j.2.2.2 == loc) then
    (j.2.1, j.2.2.1, { d with flt := { d.flt with injLeft := d.flt.injLeft - 1 } })
  else (0, 0, d)

/-- R32: a token at checker `chk` (R405). Answers the token, corrected where it can be, or none. Mode 2 of an
injection counts as uncorrectable (log 21). -/
def Dev.checkTok (d : Dev) (chk loc : Nat) (t : W128) : Option W128 × Dev :=
  let (m, b, d) := d.takeInj chk loc
  let t := if m = 1 then flipBit t (b % 16) else t
  let r := if m = 2 then Checked.uncorrectable else checkWord t
  let after (w : W128) : W128 := if m = 3 then flipBit w (b % 128) else w
  match r with
  | .clean => (some (after t), d)
  | .corrected w => (some (after w), d.bump 0x2802 1)
  | .uncorrectable => (none, (d.bump 0x2802 2).report 0x11 loc)

/-! ### HBM (R218, R219, R226) -/

/-- Where HBM begins in the core's map (R358). -/
def hbmBase : Nat := 0x4000000000

/-- MiB in octets. -/
def mib : Nat := 1048576

/-- The regions of HBM in the order of R218, MiB each (log 57). -/
def Dev.hbmSizes (d : Dev) : List Nat :=
  match d.part with
  | .x => [2048, 256, 128, 32768, 16, 4096, 16384, 256, 64, 64, 2048, 128, 112, 8192, 130048]
  | .s => [512, 64, 32, 8192, 16, 4096, 4096, 64, 64, 64, 512, 128, 592, 8192, 22528]

def rgPool : Nat := 0
def rgHead : Nat := 1
def rgGen : Nat := 4
def rgFrame : Nat := 5
def rgCode : Nat := 8
def rgJnl : Nat := 10
def rgPres : Nat := 11
def rgBits : Nat := 13
def rgStruct : Nat := 14

/-- Where a region begins. -/
def Dev.hbmAt (d : Dev) (r : Nat) : Nat := lsum (d.hbmSizes.take r) * mib

/-- HBM in all, in octets. -/
def Dev.hbmSize (d : Dev) : Nat := lsum d.hbmSizes * mib

/-- The region of an address of HBM and the offset in it. -/
def regionOf : Nat → List Nat → Nat → Option (Nat × Nat)
  | _, [], _ => none
  | r, n :: l, o => if o < n * mib then some (r, o) else regionOf (r + 1) l (o - n * mib)

/-- The HBM stack of an octet of a global region (R219). -/
def Dev.stackOf (d : Dev) (a : Nat) : Nat :=
  let b := a / 256
  match d.part with
  | .x => bits b 2 0 ^^^ bits b 5 3 ^^^ bits b 8 6
  | .s => bits b 0 0 ^^^ bits b 1 1 ^^^ bits b 2 2

/-- The stack of an octet of HBM: a die-local region lies in the two stacks nearest its die, by blocks in turn (log 57). -/
def Dev.hbmStack (d : Dev) (a : Nat) : Nat :=
  match regionOf 0 d.hbmSizes a with
  | some (r, o) => if r < 4 then o / ((d.hbmSizes.getD r 0) * mib / d.dies) * 2 + o / 256 % 2 else d.stackOf o
  | none => 0

/-- The spaces of codewords: structure memory, bit store, and all other HBM by its address. -/
def spStruct : Nat := 0
def spBits : Nat := 1
def spHbm : Nat := 2

/-- The key of a codeword. -/
def cwKey (space a : Nat) : Nat := space * 2 ^ 40 + a / 32

def Dev.poisoned (d : Dev) (space a : Nat) : Bool := (tget? d.mem.poison (cwKey space a)).isSome

/-- Read codeword `a / 32` from HBM at checker 0x08: whether it reads good, which of its data bits the read delivers
inverted, and the block. -/
def Dev.readCw (d : Dev) (space a : Nat) : Bool × Option Nat × Dev :=
  let loc := faultLoc 3 (if space = spHbm then d.hbmStack a else d.stackOf a)
  let (m, b, d) := d.takeInj 0x08 loc
  let d := if m = 1 then d.bump 0x6010 2 else d
  let d := if m = 2 && !d.poisoned space a then
      ({ d with mem := { d.mem with poison := tset d.mem.poison (cwKey space a) 0 } }.bump 0x6010 3).report 0x30 loc
    else d
  (!d.poisoned space a, if m = 3 then some (a / 32 * 256 + b % 256) else none, d)

/-- Read `n` codewords from the one that holds octet `a`: all good, inverted bit addresses, the block. -/
def Dev.readCws (d : Dev) (space : Nat) : Nat → Nat → Bool × List Nat × Dev
  | 0, _ => (true, [], d)
  | n + 1, a =>
    let (ok, f, d) := d.readCw space a
    let (ok', fs, d) := Dev.readCws d space n (a + 32)
    (ok && ok', f.toList ++ fs, d)

/-- Codewords that `n` octets from `a` touch. -/
def cwCount (a n : Nat) : Nat := (a + n - 1) / 32 - a / 32 + 1

/-- Octets from `a` with the bits at `fs` inverted. -/
def flipAt (a : Nat) (fs : List Nat) (l : List Byte) : List Byte :=
  l.zipIdx.map (fun p => fs.foldl (fun (o : Byte) f => if f / 8 = a + p.2 then o ^^^ BitVec.ofNat 8 (2 ^ (f % 8)) else o) p.1)

/-- Octets of a space that is kept as octets. -/
def Dev.memOf (d : Dev) (space : Nat) : List (Nat × Byte) := if space = spStruct then d.mem.cells else d.mem.bitOct

/-- `n` octets from `a` as a read delivers them; none where a codeword is poisoned. -/
def Dev.readOct (d : Dev) (space a n : Nat) : Option (List Byte) × Dev :=
  let (ok, fs, d) := d.readCws space (cwCount a n) a
  (if ok then some (flipAt a fs (memOctets (d.memOf space) a n)) else none, d)

/-- An octet of a poisoned codeword rewritten: the mark ends when all 32 have been (R226). -/
def Dev.unpoison (d : Dev) (space a : Nat) : Dev :=
  match tget? d.mem.poison (cwKey space a) with
  | none => d
  | some m =>
    let m := m ||| 2 ^ (a % 32)
    { d with mem := { d.mem with poison :=
        if m = 2 ^ 32 - 1 then terase d.mem.poison (cwKey space a) else tset d.mem.poison (cwKey space a) m } }

/-- `n` octets from `a` rewritten. -/
def Dev.rewrote (d : Dev) (space a n : Nat) : Dev :=
  if d.mem.poison.isEmpty then d else (upFrom a n).foldl (fun d i => d.unpoison space i) d

/-! ### Pools (R71, R99, R100) -/

/-- Unreserved capacity of the matching store (R71). -/
def Dev.ovfUnreserved (d : Dev) : Nat := d.obj 0x2000 1 - d.fab.leaked - d.fab.reserved

/-- Unreserved spill capacity (R100). -/
def Dev.spillUnreserved (d : Dev) : Nat := d.obj 0x2300 1 - d.fab.spillRes

/-- The admission states of both pools after a change of a reservation, a leak or a watermark (R71, R100). -/
def Dev.poolStates (d : Dev) : Dev :=
  let d :=
    if d.fab.mOpen && d.ovfUnreserved < d.obj 0x2000 5 then { d with fab := { d.fab with mOpen := false } }.bump 0x2000 8
    else if !d.fab.mOpen && d.obj 0x2000 6 ≤ d.ovfUnreserved then { d with fab := { d.fab with mOpen := true } }
    else d
  if d.fab.sOpen && d.spillUnreserved < d.obj 0x2300 4 then { d with fab := { d.fab with sOpen := false } }
  else if !d.fab.sOpen && d.obj 0x2300 5 ≤ d.spillUnreserved then { d with fab := { d.fab with sOpen := true } }
  else d

/-- Records in the journal ring that are not exported (R301). -/
def Dev.jnlUnexported (d : Dev) : Nat := d.jnl.appended - d.jnl.exported

/-- R301: the journal's Open and Closed after a change of what it holds or of the Active contexts. -/
def Dev.jnlState (d : Dev) : Dev :=
  let n := d.jnlUnexported + d.ctxActive
  let m := d.obj 0x7000 4
  let cap := d.obj 0x7000 2
  if !d.jnl.closed && decide (cap ≤ n + m) then { d with jnl := { d.jnl with closed := true } }.bump 0x7000 6
  else if d.jnl.closed && decide (n + 2 * m ≤ cap) then { d with jnl := { d.jnl with closed := false } }
  else d

/-- Blocks of a die's spill pool: 8 GiB in 4 KiB blocks (R99). -/
def dieBlocks : Nat := 2097152

/-- Blocks of a die's spill pool that middles hold. -/
def Dev.spillBlocks (d : Dev) (die : Nat) : Nat :=
  lsum ((d.fab.pos.filter (fun e => e.1 / 34 == die)).map (fun e => lsum (e.2.rq.map sqBlocks)))

/-- A ready queue's parameters (R99, R101): only the free blocks of its die bound its middle. -/
def Dev.rqCfg (d : Dev) (pos pri : Nat) (q : SQ Firing) : SqCfg :=
  ⟨2 ^ 32, sqRoom q (dieBlocks - d.spillBlocks (pos / 34)), d.obj 0x2301 1, d.obj 0x2301 2,
   ((d.pos pos).fwait.filter (fun w => min 7 w.f.pri == pri)).length⟩

/-- A ready queue of a position. -/
def Pos.queue (p : Pos) (pri : Nat) : SQ Firing := p.rq.getD pri sqOff

/-- Replace a ready queue; a Below to Above transition is counted (R101). -/
def Dev.setRq (d : Dev) (pos pri : Nat) (q : SQ Firing) : Dev :=
  let was := ((d.pos pos).queue pri).above
  let d := d.modPos pos (fun p => { p with rq := lset p.rq pri q })
  if q.above && !was then d.bump 0x2301 3 else d

/-- A firing written to a ready queue (R83, R92, R101): lost where the queue is Full. -/
def Dev.enqueue (d : Dev) (pos : Nat) (f : Firing) : Dev :=
  let pri := min 7 f.pri
  let q := (d.pos pos).queue pri
  let lost := q.on && !sqTakes (d.rqCfg pos pri q) q
  let d := d.setRq pos pri (sqWrite (d.rqCfg pos pri q) q f)
  if lost then (d.bump 0x2301 4).report 0x15 (posLoc pos) else d

/-- A firing waits readable at a head window of the position (R86, R122). -/
def Pos.readable (p : Pos) : Bool := p.rq.any (fun q => !(sqUnread q).isEmpty)

/-- Readable firings in head windows of in-service clusters of a die (R122). -/
def Dev.dieReadable (d : Dev) (die : Nat) : List Nat :=
  ((d.fab.pos.filter (fun e => e.1 / 34 == die && e.2.st == .inService && e.2.readable)).map (·.1))

end Sys2Proof.Machine
end

