-- ==== Sys2Proof/Machine/Front.lean ====
section
/-! DEFINITION. How the ward takes a dictionary request (R8, R13, R374–R376): session, message authentication, repeated
requests, rights, length, the response; and which row of the command table a write belongs to. -/

namespace Sys2Proof.Machine

/-- The rows of the command table that a dictionary write may be. -/
inductive WRow where
  | plain | sesEnable | sesClose | sesDisable | ingressEnable | ringEnable | ringDisable | overrunClear | watermark
  | forceStandin | ckptRequest | orphanBreak | masterKey | keyDelete | importCmd | exportCmd | component | genCmd
  | zeroize | drbgRestart | taiSet | taiSlew | tbSource | wardRestart | fwCommand | store | restore | storeErase
  | imgActivate | imgDeactivate | imgErase | routeSwap | domainDown | domainUp | linkSet | linkClear | deviceId
  | ethSplit | faultAck | faultClear | bistCmd | injArm | cntConfig | cntValue | ovfPop | sysReset | coreReset
  | sr (bit : Nat) | fullSoft | boost
  deriving DecidableEq, Repr

/-- A link's object base and the others between `0x8101` and `0x8151`: the link of an index, if it is one. -/
def linkOfIdx (p : Part) (idx : Nat) : Option Nat :=
  if 0x8101 ≤ idx && (idx - 0x8101) % 16 = 0 && (idx - 0x8101) / 16 < (if p = .x then 6 else 2) then some ((idx - 0x8101) / 16)
  else none

/-- An index of a range of 256 objects, 0x`hh`00 to 0x`hh`FF. -/
def inPage (idx page : Nat) : Bool := idx / 256 == page

/-- Bits of `SOFT_RESET` that a write changes, highest first. -/
def srChanged (old v : Nat) : List Nat := [7, 6, 5, 4, 3, 2, 1, 0].filter (fun i => bit (old ^^^ v) i)

/-- The row that a write of `v` to an object belongs to; `soft` is `SOFT_RESET` as it stands. -/
def writeRow (p : Part) (soft idx sub v : Nat) : WRow :=
  if idx = 0x4001 && sub = 5 then match v with | 1 => .sesEnable | 2 => .sesClose | 3 => .sesDisable | _ => .plain
  else if idx = 0x4020 && sub = 1 then .ingressEnable
  else if inPage idx 0x41 || inPage idx 0x42 then
    if sub = 1 then match v with | 1 => .ringEnable | 0 => .ringDisable | _ => .plain
    else if sub = 3 || sub = 4 then .watermark
    else if sub = 9 && bit v 2 then .overrunClear
    else .plain
  else if idx = 0x2301 && (sub = 1 || sub = 2) then .watermark
  else if idx = 0x2318 && v / 256 % 256 ≠ 0 then .overrunClear
  else if idx = 0x2120 && sub = 1 then .forceStandin
  else if idx = 0x7010 && sub = 3 then .ckptRequest
  else if idx = 0x6310 && sub = 1 then .orphanBreak
  else if idx = 0x5000 && sub = 4 then .masterKey
  else if idx = 0x5001 && sub = 5 then .keyDelete
  else if idx = 0x5002 && sub = 4 then .importCmd
  else if idx = 0x5003 && sub = 3 then .exportCmd
  else if idx = 0x5004 && sub = 1 then .component
  else if idx = 0x5005 && sub = 3 then .genCmd
  else if idx = 0x5010 && sub = 2 then .zeroize
  else if idx = 0x5020 && sub = 3 then .drbgRestart
  else if idx = 0x7100 && sub = 5 then .taiSet
  else if idx = 0x7100 && sub = 6 then .taiSlew
  else if idx = 0x7100 && sub = 2 then .tbSource
  else if idx = 0xC000 && sub = 4 then .wardRestart
  else if idx = 0xC200 && sub = 4 then .fwCommand
  else if idx = 0x1010 && sub = 1 then match v with | 1 => .store | 2 => .restore | 3 => .storeErase | _ => .plain
  else if (inPage idx 0xD0 || inPage idx 0xD1 || inPage idx 0xD2) && sub = 3 then
    match v with | 1 => .imgActivate | 2 => .imgDeactivate | 3 => .imgErase | _ => .plain
  else if idx = 0x8000 && sub = 2 then .routeSwap
  else if idx = 0x8020 && sub = 1 then if bit v 15 then .domainUp else .domainDown
  else if (linkOfIdx p idx).isSome && sub = 1 then match v with | 1 => .linkSet | 0 => .linkClear | _ => .plain
  else if idx = 0x8100 && sub = 1 then .deviceId
  else if inPage idx 0x82 && sub = 1 then .ethSplit
  else if idx = 0x9000 && sub = 4 then .faultAck
  else if idx = 0x9000 && sub = 5 then .faultClear
  else if idx = 0x9220 && sub = 1 then .bistCmd
  else if idx = 0x9300 && sub = 6 then .injArm
  else if inPage idx 0xA1 && 0x0A ≤ sub && sub ≤ 0x11 then .cntConfig
  else if inPage idx 0xA1 && 2 ≤ sub && sub ≤ 9 then .cntValue
  else if idx = 0xA000 && sub = 0x0B then .ovfPop
  else if idx = 0xB001 && sub = 2 then .sysReset
  else if idx = 0xB001 && sub = 1 then .coreReset
  else if idx = 0xB002 && sub = 1 then
    if v % 256 = 255 then .fullSoft else match srChanged soft (v % 256) with | b :: _ => .sr b | [] => .plain
  else if idx = 0xB011 && sub = 1 then .boost
  else .plain

/-! ### Transfers cut off (R374, R380, R384) -/

/-- A slot whose transfer or activation a restart cuts off (R384). -/
def Img.abandon (x : Img) : Img :=
  if x.st = .receiving then { x with st := .empty, busy := .none, octets := [], result := 0 } else { x with busy := .none }

def FwSlot.abandon (x : FwSlot) : FwSlot := if x.st = .receiving then ⟨.empty, [], false⟩ else x

/-- A transfer that ends without its end: the slot that it was filling is Empty. -/
def Wrd.endXfer (w : Wrd) (x : Option Xfer) : Wrd :=
  match x with
  | none => w
  | some x =>
    if x.idx = 0xC200 then if w.fwActive = 0 then { w with fwB := w.fwB.abandon } else { w with fwA := w.fwA.abandon }
    else match tget? w.imgs x.idx with
      | some i => if i.st = .receiving then { w with imgs := tset w.imgs x.idx i.abandon } else w
      | none => w

/-- A session closed, its transfer abandoned. -/
def Wrd.closeSession (w : Wrd) (s : Nat) : Wrd :=
  match tget? w.sessions s with
  | some x => { w with sessions := terase w.sessions s }.endXfer x.xfer
  | none => w

/-! ### Sessions and authentication -/

/-- The node ID (R367). -/
def Dev.nodeId (d : Dev) : List Byte := d.ident.serial.take 8

/-- Sessions of PCIe queue pairs closed. -/
def Wrd.closePcie (w : Wrd) : Wrd := (List.range 32).foldl (fun w q => w.closeSession (0x40 + q)) w

/-- The code of a role: 0 O, 1 P, 2 K, 3 W (sub-indices of 0xC400 less 1). -/
def roleNum (r : Role) : Nat := match r with | .O => 0 | .P => 1 | .K => 2 | .W => 3

/-- Ring sessions are numbered below 16. -/
def pcieSes (s : Nat) : Bool := decide (0x40 ≤ s) && decide (s < 0x60)

/-- The session number under which the ward's own accesses stand: role W, neither authenticated nor answered. -/
def wardSes : Nat := 0xFF

/-- The ward answers: its domain is up and it is not restarting. -/
def Dev.wardUp (d : Dev) : Bool := d.wrd.up && d.wrd.state != 1

/-- R376: the octets under the `MAC` of a frame. -/
def macOver (typ seq : Nat) (src dst pl : List Byte) : List Byte :=
  BitVec.ofNat 8 typ :: (leOctets 2 seq ++ leOctets 2 (pl.length + 16) ++ src ++ dst ++ pl)

/-- The payload of a request, without its `MAC` (R374). -/
def reqPayload (r : DReq) : List Byte :=
  [BitVec.ofNat 8 (if pcieSes r.sess then 0 else r.sess), BitVec.ofNat 8 r.op] ++ leOctets 2 r.idx
    ++ [BitVec.ofNat 8 r.sub, 0] ++ leOctets 4 r.off ++ leOctets 2 r.data.length ++ r.data

/-- The value that a request writes, least significant octet first. -/
def reqValue (r : DReq) : Nat := leNat r.data

/-- The request's `MAC` is the session's. -/
def Dev.macOk (d : Dev) (w : WSes) (r : DReq) : Bool :=
  (hmac256 w.key (macOver 1 r.seq w.station d.nodeId (reqPayload r))).take 16 == r.mac

/-- A frame's header and payload as they lie on the ring (R367). -/
def ringOctets (f : RFrame) : List Byte :=
  [BitVec.ofNat 8 f.typ, BitVec.ofNat 8 f.flags] ++ leOctets 2 f.hops ++ leOctets 2 f.seq ++ leOctets 2 f.pl.length ++ f.src ++ f.dst ++ f.pl

/-- A frame's CRC (R367). -/
def ringCrc (f : RFrame) : Nat := crc32c (ringOctets f)

/-- R369: a frame of this node on both rings under the next sequence number; a closed hinge keeps it off its ring (R372). -/
def Dev.ringPut (d : Dev) (typ : Nat) (dst pl : List Byte) : Dev :=
  let f (p : Nat) : RFrame := ⟨typ, p, 0, d.rng.seq, d.nodeId, dst, pl⟩
  let ps := [0, 1].filter (fun p => d.rng.hinge.getD p false)
  { d with rng := { d.rng with seq := (d.rng.seq + 1) % 65536, out := d.rng.out ++ ps.map (fun p => (p, f p, ringCrc (f p), true)) } }

/-- The destination of a broadcast. -/
def ringAll : List Byte := List.replicate 8 0xFF

/-- A frame of the session's exchange on its way: on both rings, or in the host buffer of its queue pair (R368, R374). -/
def Dev.frameTo (d : Dev) (sess typ seq : Nat) (station pl : List Byte) : Dev :=
  if pcieSes sess then
    let hdr := [BitVec.ofNat 8 typ, 0, 0, 0] ++ leOctets 2 seq ++ leOctets 2 pl.length ++ d.nodeId ++ station
    { d with lnk := { d.lnk with frames := d.lnk.frames ++ [(sess - 0x40, hdr ++ pl)] } }
  else d.ringPut typ station pl

/-- A response on its way: on both rings with the node's own sequence number, or in the host buffer that the queue pair
names (R369, R374). -/
def Dev.reply (d : Dev) (sess seq : Nat) (w : WSes) (pl : List Byte) : Dev :=
  let q := if pcieSes sess then seq else d.rng.seq
  d.frameTo sess 2 seq w.station (pl ++ (hmac256 w.key (macOver 2 q d.nodeId w.station pl)).take 16)

/-- A response's octets: the request's echo with `RSTATUS` and its own data. -/
def respPayload (r : DReq) (st : Nat) (data : List Byte) : List Byte :=
  [BitVec.ofNat 8 (if pcieSes r.sess then 0 else r.sess), BitVec.ofNat 8 r.op] ++ leOctets 2 r.idx
    ++ [BitVec.ofNat 8 r.sub, BitVec.ofNat 8 st] ++ leOctets 4 r.off ++ leOctets 2 data.length ++ data

/-- What an access comes to: `RSTATUS`, the data of the response, the block after it. -/
structure Acc where
  st   : Nat
  data : List Byte
  dev  : Dev

/-- Requests of a session that are remembered (log 41). -/
def seqDepth : Nat := 64

/-- R8: an access that the role is not granted, counted. -/
def Dev.roleViolation (d : Dev) (ro : Role) : Dev := d.bump 0xC400 (roleNum ro + 1)

/-- R364: what a session of role K may reach in recovery: firmware transfers, and `WARD_STATE`. -/
def recoveryOk (ro : Role) (idx sub : Nat) : Bool := ro == .K && (idx == 0xC200 || idx == 0xC000) && sub == 1

/-- A session that has proved no role: its proof is still to come, or was wrong (R375, R376). -/
def Dev.noRole (d : Dev) (sess : Nat) : Bool := match tget? d.wrd.sessions sess with | some w => w.stage != .opened | none => false

/-- A request discarded without a reply (R376): counted, and counted as an access without a role where its session has proved
none (R8, log 129). -/
def Dev.discardReq (d : Dev) (sess : Nat) : Dev :=
  let e := d.bump 0x1200 3
  if d.noRole sess then e.bump 0xC400 5 else e

/-- A request that reaches the ward (R374, R376): to a closed session or with a wrong `MAC` it is discarded and counted;
a repeated one gets its stored response; otherwise it is applied by `eff` and answered. -/
def Dev.request (d : Dev) (r : DReq) (eff : Role → Dev → Acc) : Dev :=
  if !d.wardUp then d
  else if r.sess = wardSes then (eff .W d).dev
  else match tget? d.wrd.sessions r.sess with
    | none => d.discardReq r.sess
    | some w =>
      if w.stage ≠ .opened || !d.macOk w r then d.discardReq r.sess
      else
        let d := { d with wrd := { d.wrd with sessions := tset d.wrd.sessions r.sess { w with last := d.up } } }
        match w.done.find? (fun x => x.1 == r.seq) with
        | some x => d.reply r.sess r.seq w x.2
        | none =>
          let a := if d.wrd.state = 2 && !recoveryOk w.role r.idx r.sub then (⟨0, [], d⟩ : Acc) else eff w.role d
          let pl := respPayload r a.st a.data
          let d := a.dev
          let ss := match tget? d.wrd.sessions r.sess with
            | some w => tset d.wrd.sessions r.sess { w with done := (r.seq, pl) :: w.done.take (seqDepth - 1) }
            | none => d.wrd.sessions
          let d := { d with wrd := { d.wrd with sessions := ss } }
          d.reply r.sess r.seq w pl

/-- The row that a request's write belongs to. -/
def Dev.rowOf (d : Dev) (r : DReq) : WRow := writeRow d.part (d.obj 0xB002 1) r.idx r.sub (reqValue r)

/-- A write with `OP` 2 as the ward applies it: rights, length, type (R8, R11, R13, R374); `eff` gets the role. -/
def Dev.writeAcc (d : Dev) (r : DReq) (ro : Role) (eff : Role → Nat → Dev → Dev) : Acc :=
  match objRow d.part r.idx r.sub with
  | none => ⟨0, [], d⟩
  | some o =>
    if !o.mayWrite ro then ⟨0, [], d.roleViolation ro⟩
    else if r.data.length ≠ o.octets then ⟨3, [], d⟩
    else if o.kind = 7 && 1 < (reqValue r) then ⟨0, [], d⟩
    else ⟨0, [], eff ro (reqValue r) d⟩

/-- A dictionary write that is row `row` of the command table; one that is another row changes nothing here. -/
def Dev.command (d : Dev) (r : DReq) (row : WRow) (eff : Role → Nat → Dev → Dev) : Dev :=
  if r.op = 2 && d.rowOf r = row then d.request r (fun ro d => d.writeAcc r ro eff) else d

end Sys2Proof.Machine
end

