-- ==== Sys2Proof/Machine/Hasp.lean ====
section
/-! DEFINITION. Windows (R221–R223) and the hasp unit (R230–R240, R116–R119): lock table, waiter slots, wait-for graph,
inheritance, grants, orphans. -/

namespace Sys2Proof.Machine

/-! ### Windows -/

def rtRead : Nat := 0
def rtWrite : Nat := 1
def rtAtomic : Nat := 2
def rtLock : Nat := 3

/-- A window entry covers the addresses of an access and grants its right (R221, R222). -/
def winGrants (space right first last w : Nat) : Bool :=
  bit w 42 && (b2n (bit w 43) == space) && bit w (47 - right)
    && decide (bits w 127 88 ≤ first) && decide (last ≤ bits w 87 48)

/-- The access is allowed for graph slot `g` (R198, R222). -/
def Dev.allowed (d : Dev) (g space right first n : Nat) : Bool :=
  match d.graph g with
  | some gr => decide (first + n ≤ 2 ^ 40) && gr.windows.any (winGrants space right first (first + n - 1))
  | none => false

/-- A disallowed access counted against its graph (R223). -/
def Dev.violation (d : Dev) (g right : Nat) : Dev := d.bump (0x6200 + g % 64) (right + 1)

/-! ### Table indices (R230) -/

/-- The candidate lock sets of an EA. -/
def Dev.lockSet (d : Dev) (half ea : Nat) : Nat :=
  match d.part, half with
  | .x, 0 => bits ea 16 0 ^^^ bits ea 33 17
  | .x, _ => bits ea 21 5 ^^^ bits ea 38 22
  | .s, 0 => bits ea 14 0 ^^^ bits ea 29 15
  | .s, _ => bits ea 19 5 ^^^ bits ea 34 20

/-- The candidate slot groups of a context. -/
def Dev.slotGroup (d : Dev) (half ctx : Nat) : Nat :=
  match d.part, half with
  | .x, 0 => bits ctx 12 0 ^^^ bits ctx 23 13
  | .x, _ => bits ctx 23 11 ^^^ bits ctx 12 0
  | .s, 0 => bits ctx 10 0 ^^^ bits ctx 21 11
  | .s, _ => bits ctx 23 13 ^^^ bits ctx 10 0

/-- The eight candidate lock entry indices of an EA, in the order of insertion: half : set : way. -/
def Dev.lockCands (d : Dev) (ea : Nat) : List Nat :=
  [0, 1].flatMap (fun h => (List.range 4).map (fun w => h * d.xs (2 ^ 19) (2 ^ 17) + d.lockSet h ea * 4 + w))

/-- The eight candidate waiter slot indices of a context. -/
def Dev.slotCands (d : Dev) (ctx : Nat) : List Nat :=
  [0, 1].flatMap (fun h => (List.range 4).map (fun w => h * d.xs (2 ^ 15) (2 ^ 13) + d.slotGroup h ctx * 4 + w))

/-- The lock entry of an EA. -/
def Dev.lockOf (d : Dev) (ea : Nat) : Option (Nat × LockEnt) :=
  (d.lockCands ea).findSome? (fun i => match tget? d.hasp.locks i with
    | some e => if e.ea = ea then some (i, e) else none
    | none => none)

/-- The waiter slot of a life. -/
def Dev.slotOf (d : Dev) (ctx gen : Nat) : Option (Nat × HSlot) :=
  (d.slotCands ctx).findSome? (fun i => match tget? d.hasp.slots i with
    | some s => if s.ctx = ctx && s.gen = gen then some (i, s) else none
    | none => none)

/-- A lock entry with bit `b` of its layout (R231) inverted: the fields that are not links. -/
def LockEnt.flip (e : LockEnt) (b : Nat) : LockEnt :=
  if b = 158 then { e with orphan := !e.orphan }
  else if 118 ≤ b && b ≤ 157 then { e with ea := e.ea ^^^ 2 ^ (b - 118) }
  else if 94 ≤ b && b ≤ 117 then { e with hctx := e.hctx ^^^ 2 ^ (b - 94) }
  else if 88 ≤ b && b ≤ 93 then { e with hgen := e.hgen ^^^ 2 ^ (b - 88) }
  else e

/-- A waiter slot with bit `b` of its layout (R232) inverted: the fields that are not links. -/
def HSlot.flip (s : HSlot) (b : Nat) : HSlot :=
  if 232 ≤ b && b ≤ 255 then { s with ctx := s.ctx ^^^ 2 ^ (b - 232) }
  else if 226 ≤ b && b ≤ 231 then { s with gen := s.gen ^^^ 2 ^ (b - 226) }
  else if 223 ≤ b && b ≤ 225 then { s with pri := s.pri ^^^ 2 ^ (b - 223) }
  else s

/-- A lock lookup, its entry passed through checker 0x09 (R231): a single error is corrected; a double error is detected and,
as no rule gives it an effect, the entry stands (log 122); a corruption after the checker stays. -/
def Dev.lockRead (d : Dev) (ea : Nat) : Option (Nat × LockEnt) × Dev :=
  match d.lockOf ea with
  | none => (none, d)
  | some (i, e) =>
    let (m, b, d) := d.takeInj 0x09 (faultLoc 7 agHasp)
    if m = 3 then (some (i, e.flip (b % 256)), { d with hasp := { d.hasp with locks := tset d.hasp.locks i (e.flip (b % 256)) } })
    else (some (i, e), d)

/-- The requester's waiter slot passed through checker 0x09 where it has one. -/
def Dev.slotRead (d : Dev) (ctx gen : Nat) : Dev :=
  match d.slotOf ctx gen with
  | none => d
  | some (i, s) =>
    let (m, b, d) := d.takeInj 0x09 (faultLoc 7 agHasp)
    if m = 3 then { d with hasp := { d.hasp with slots := tset d.hasp.slots i (s.flip (b % 256)) } } else d

def Dev.freeLock (d : Dev) (ea : Nat) : Option Nat := (d.lockCands ea).find? (fun i => (tget? d.hasp.locks i).isNone)
def Dev.freeSlot (d : Dev) (ctx : Nat) : Option Nat := (d.slotCands ctx).find? (fun i => (tget? d.hasp.slots i).isNone)

def Dev.lockEnt (d : Dev) (i : Nat) : LockEnt := tget lockInit d.hasp.locks i
def Dev.hslot (d : Dev) (i : Nat) : HSlot := tget hslotInit d.hasp.slots i
def Dev.setLock (d : Dev) (i : Nat) (e : LockEnt) : Dev := { d with hasp := { d.hasp with locks := tset d.hasp.locks i e } }
def Dev.setSlot (d : Dev) (i : Nat) (s : HSlot) : Dev := { d with hasp := { d.hasp with slots := tset d.hasp.slots i s } }
def Dev.dropLock (d : Dev) (i : Nat) : Dev := { d with hasp := { d.hasp with locks := terase d.hasp.locks i } }
def Dev.dropSlot (d : Dev) (i : Nat) : Dev := { d with hasp := { d.hasp with slots := terase d.hasp.slots i } }

/-- Lock entries of the table (R230). -/
def Dev.lockCap (d : Dev) : Nat := d.xs 1048576 262144

/-- `LOCK_TABLE_LOW` after a change of the table (R234). -/
def Dev.lockLow (d : Dev) : Dev :=
  let low := decide ((d.lockCap - d.hasp.locks.length) * 16 < d.lockCap)
  let was := d.hasp.low
  let d := { d with hasp := { d.hasp with low := low } }
  if low && !was then d.report 0x31 (faultLoc 7 agHasp) else d

/-- `NEXT_HELD` of every entry that a slot holds (R231). -/
def Dev.relink (d : Dev) (i : Nat) : Dev :=
  let h := (d.hslot i).held
  (h.zip (h.drop 1 ++ [0])).foldl (fun d p => d.setLock p.1 { d.lockEnt p.1 with next := p.2 }) d

/-- A slot that holds nothing and waits on nothing is freed (R232). -/
def Dev.slotTidy (d : Dev) (i : Nat) : Dev :=
  match tget? d.hasp.slots i with
  | some s => if s.held.isEmpty && s.queued.isNone then d.dropSlot i else d
  | none => d

/-! ### Priority (R118, R236) -/

/-- `CLASS_PRI` of a context. -/
def Dev.classPri (d : Dev) (ctx : Nat) : Nat := match d.frame ctx with | some f => f.classPri | none => 0

/-- Positions of the clusters that a context's graph is mapped to. -/
def Dev.ctxPositions (d : Dev) (ctx : Nat) : List Nat :=
  match d.life ctx with
  | some l => match d.graph l.graph with
    | some g => (d.mapped g).filterMap d.posOf
    | none => []
  | none => []

/-- Change a context's `EFF_PRI` in its slot and frame and signal it to every cluster of its graph (R87, R118, R236). A
signal is one flit of VC3 to a position: the context in [127:104], the new priority in [2:0], bit 3 set where it is a
raise (log 121). -/
def Dev.setEff (d : Dev) (i p : Nat) : Dev :=
  let s := d.hslot i
  if s.pri = p then d
  else
    let d := (d.setSlot i { s with pri := p }).modFrame s.ctx (fun f => { f with effPri := p })
    let pl : W128 := BitVec.ofNat 128 (s.ctx * 2 ^ 104 + (if s.pri < p then 8 + p else p))
    let d := (d.ctxPositions s.ctx).foldl (fun d q => d.inject hubRouter 3 p (hubSrc agHasp) (q / 34, q % 34, 0) pl) d
    d.bump 0x2103 (if s.pri < p then 1 else 2)

/-- The slot of the holder that a slot's queued request waits on; none where it waits on nothing or on an orphan. -/
def Dev.waitsOn (d : Dev) (i : Nat) : Option Nat :=
  match (d.hslot i).queued with
  | some w => let e := d.lockEnt w.entry; if e.orphan then none else some e.hslot
  | none => none

/-- The priority a slot's holdings give it: the highest of its class and of the waiters on its locks. -/
def Dev.effOf (d : Dev) (i : Nat) : Nat :=
  let s := d.hslot i
  (s.held.flatMap (fun e => (d.lockEnt e).waiters)).foldl (fun m w => max m (d.hslot w).pri) (d.classPri s.ctx)

/-- Recompute a slot's `EFF_PRI` and go on along its wait edge, at most `n` steps (R118). -/
def Dev.recompute : Nat → Dev → Nat → Dev
  | 0, d, _ => d
  | n + 1, d, i =>
    if (tget? d.hasp.slots i).isNone then d
    else
      let d := d.setEff i (d.effOf i)
      match d.waitsOn i with
      | some j => Dev.recompute n d j
      | none => d

/-- `WFG_WALK_LIMIT`. -/
def Dev.walkLimit (d : Dev) : Nat := d.obj 0x2102 6

/-! ### The wait-for graph (R116, R117) -/

/-- How a walk ends. -/
inductive WalkEnd where
  | free | cycle | deep
  deriving DecidableEq, Repr

/-- The walk from slot `cur` looking for slot `w`: the slots met, in order, and the end. -/
def Dev.walk (d : Dev) (w : Option Nat) : Nat → Nat → List Nat × WalkEnd
  | 0, _ => ([], .deep)
  | n + 1, cur =>
    if w == some cur then ([cur], .cycle)
    else match d.waitsOn cur with
      | none => ([cur], .free)
      | some nx => let r := Dev.walk d w n nx; (cur :: r.1, r.2)

/-- How a victim is ranked: lowest class, then latest ingress instant, then highest context number; least first. -/
def Dev.victimKey (d : Dev) (i : Nat) : Nat :=
  let s := d.hslot i
  let t := match d.frame s.ctx with | some f => f.ingressNs | none => 0
  d.classPri s.ctx * 2 ^ 96 + (2 ^ 64 - 1 - t) * 2 ^ 24 + (2 ^ 24 - 1 - s.ctx)

/-- LOCK_VICTIM (R119). -/
def Dev.lockVictim (d : Dev) (r : Req) (detail : Nat) : Dev := (d.bump 0x2102 3).hubExc agHasp r 4 detail

/-- Take a slot's queued request off its lock's queue, without a token; the holder is recomputed (R118). -/
def Dev.unqueue (d : Dev) (i : Nat) : Dev :=
  match (d.hslot i).queued with
  | none => d
  | some w =>
    let e := d.lockEnt w.entry
    let d := (d.setLock w.entry { e with waiters := e.waiters.filter (· != i) }).setSlot i { d.hslot i with queued := none }
    if e.orphan then d else Dev.recompute d.walkLimit d e.hslot

/-! ### Grants and releases (R235) -/

/-- The waiter a lock passes to: highest `PRI`, nearest the head. -/
def Dev.nextWaiter (d : Dev) (e : LockEnt) : Option Nat := minBy (fun i => 7 - (d.hslot i).pri) e.waiters

/-- Lock entry `i` passes to waiter slot `w`: linked into its held chain, unlinked from the queue, the grant token sent,
its priority recomputed. -/
def Dev.pass (d : Dev) (i w : Nat) : Dev :=
  let e := d.lockEnt i
  let s := d.hslot w
  let d := d.peak 0x6300 8 e.waiters.length
  let d := d.setLock i { e with orphan := false, hctx := s.ctx, hgen := s.gen, hslot := w,
                                waiters := e.waiters.filter (· != w) }
  let d := (d.setSlot w { s with queued := none, held := i :: s.held }).relink w
  let d := match s.queued with | some q => d.hubWord agHasp q.req 1 | none => d
  let d := ((d.bump 0x6300 6).hubEvent 0x49 0)
  d.setEff w (d.effOf w)

/-- A lock leaves its holder: freed, or passed to a waiter (R235). -/
def Dev.release (d : Dev) (i : Nat) : Dev :=
  let e := d.lockEnt i
  match d.nextWaiter e with
  | some w => d.pass i w
  | none => (d.dropLock i).lockLow

/-- `UNLOCK` (R235): by the holder, with matching life. -/
def Dev.unlockReq (d : Dev) (r : Req) (ea : Nat) : Dev :=
  match d.lockRead ea with
  | (some (i, e), d) =>
    let d := d.slotRead r.ctx r.gen
    if !e.orphan && e.hctx = r.ctx && e.hgen = r.gen then
      let j := e.hslot
      let s := d.hslot j
      let d := (d.setSlot j { s with held := s.held.filter (· != i) }).relink j
      let d := d.release i
      let d := (Dev.recompute d.walkLimit d j).slotTidy j
      d.hubWord agHasp r 1
    else d.hubWord agHasp r 0
  | (none, d) => d.hubWord agHasp r 0

/-! ### Requests (R233, R234) -/

/-- The slot of the requester, allocated with its `EFF_PRI` where it has none; none where both groups are full. -/
def Dev.ensureSlot (d : Dev) (r : Req) (eff : Nat) : Option (Nat × Dev) :=
  match d.slotOf r.ctx r.gen with
  | some (i, _) => some (i, d)
  | none => (d.freeSlot r.ctx).map (fun i => (i, d.setSlot i ⟨r.ctx, r.gen, eff, none, []⟩))

/-- R234: no room to record the request. -/
def Dev.noRoom (d : Dev) (r : Req) (try_ : Bool) : Dev :=
  let d := d.bump 0x6300 7
  if try_ then d.hubWord agHasp r 0 else (d.bump 0x2102 5).lockVictim r 2

/-- R233 step 3: the lock is free. -/
def Dev.lockGrant (d : Dev) (r : Req) (ea eff : Nat) (try_ : Bool) : Dev :=
  match d.freeLock ea, d.ensureSlot r eff with
  | some i, some (j, d') =>
    let s := d'.hslot j
    if 16 ≤ s.held.length then d.noRoom r try_
    else
      let d := d'.setLock i ⟨ea, false, r.ctx, r.gen, j, 0, []⟩
      let d := (d.setSlot j { s with held := i :: s.held }).relink j
      (((d.bump 0x6300 6).hubEvent 0x49 0).lockLow).hubWord agHasp r 1
  | _, _ => d.noRoom r try_

/-- Every slot met on a walk is raised to the requester's priority (R118). -/
def Dev.raiseAll (d : Dev) (p : Nat) (l : List Nat) : Dev :=
  l.foldl (fun d i => if (d.hslot i).pri < p then d.setEff i p else d) d

/-- R233 step 6: queue behind the holder, after the walk. -/
def Dev.lockQueue (d : Dev) (r : Req) (i : Nat) (e : LockEnt) (eff : Nat) : Dev :=
  if (match d.slotOf r.ctx r.gen with | some (_, s) => s.queued.isSome | none => false) then
    (d.bump 0x2102 8).lockVictim r 4
  else match d.ensureSlot r eff with
    | none => d.noRoom r false
    | some (j, d') =>
      if 16 ≤ (d'.hslot j).held.length then d.noRoom r false
      else
        let wk := if e.orphan then ([], WalkEnd.free) else d'.walk (some j) d.walkLimit e.hslot
        let enq (d : Dev) : Dev :=
          let d := (d.setLock i { e with waiters := e.waiters ++ [j] }).setSlot j
            { d.hslot j with queued := some ⟨i, r⟩ }
          ((d.bump 0x2102 1).hubEvent 0x48 0).raiseAll (d.hslot j).pri wk.1
        match wk.2 with
        | .deep => (d.bump 0x2102 4).lockVictim r 3
        | .free => (enq d').peak 0x2102 7 wk.1.length
        | .cycle =>
          let d' := (d'.bump 0x2102 2).peak 0x2102 7 wk.1.length
          match minBy d'.victimKey wk.1 with
          | none => d'
          | some v =>
            if v = j then ((d'.slotTidy j).lockVictim r 1)
            else
              let d := enq d'
              match (d.hslot v).queued with
              | some q => (d.unqueue v).lockVictim q.req 1
              | none => d

/-- A `LOCK` or `TRYLOCK` that reaches the hasp unit with `EFF_PRI` `eff` (R233). -/
def Dev.lockReq (d : Dev) (g : Nat) (r : Req) (ea eff : Nat) (try_ : Bool) : Dev :=
  if d.held 2 then d
  else if r.gen ≠ d.gen r.ctx then d.bump 0x6300 0x0A
  else
    let d := d.bump 0x6300 9
    if !d.allowed g 0 rtLock ea 1 then (d.violation g rtLock).hubWord agHasp r 0
    else match (d.slotRead r.ctx r.gen).lockRead ea with
      | (none, d) => d.lockGrant r ea eff try_
      | (some (i, e), d) =>
        if !e.orphan && e.hctx = r.ctx && e.hgen = r.gen then d.hubWord agHasp r 2
        else if try_ then d.hubWord agHasp r 0
        else d.lockQueue r i e eff

/-- An `UNLOCK` that reaches the hasp unit. -/
def Dev.unlockOp (d : Dev) (g : Nat) (r : Req) (ea : Nat) : Dev :=
  if d.held 2 then d
  else
    let d := d.bump 0x6300 9
    if !d.allowed g 0 rtLock ea 1 then (d.violation g rtLock).hubWord agHasp r 0 else d.unlockReq r ea

/-! ### Orphans (R123, R237, R238) -/

/-- R123 steps 4 and 5 for a life: its queued request is cancelled, its locks are orphaned and its slot freed. -/
def Dev.haspPurge (d : Dev) (ctx gen : Nat) : Dev :=
  match d.slotOf ctx gen with
  | none => d
  | some (i, _) =>
    let d := d.unqueue i
    let held := (d.hslot i).held
    let d := held.foldl (fun d e => (d.setLock e { d.lockEnt e with orphan := true }).bump 0x2106 4) d
    let d := if held.isEmpty then d else d.bump 0x2106 3
    d.dropSlot i

/-- An entry orphaned with its queue emptied. -/
def LockEnt.toOrphan (e : LockEnt) : LockEnt := { e with orphan := true, waiters := [] }

/-- R238: every held entry orphaned, every queued request cancelled, every slot freed. -/
def Dev.haspOrphanAll (d : Dev) : Dev :=
  let fresh := (d.hasp.locks.filter (fun (e : Nat × LockEnt) => !e.2.orphan)).length
  let d := { d with hasp := { d.hasp with
    locks := d.hasp.locks.map (fun (e : Nat × LockEnt) => (e.1, e.2.toOrphan)), slots := [] } }
  d.bumpBy 0x6301 4 fresh

/-- The orphaned entries by ascending index. -/
def Dev.orphans (d : Dev) : List (Nat × LockEnt) := d.hasp.locks.filter (fun (e : Nat × LockEnt) => e.2.orphan)

/-- The slot behind a waiting slot in its lock's queue (`NEXT_WAIT`, R232). -/
def Dev.nextWait (d : Dev) (i : Nat) : Nat :=
  match (d.hslot i).queued with
  | some w => (((d.lockEnt w.entry).waiters.dropWhile (· != i)).drop 1).headD 0
  | none => 0

/-- A waiter slot as R232 lays it out. -/
def Dev.slotWord (d : Dev) (i : Nat) : Nat :=
  let s := d.hslot i
  let q := match s.queued with
    | some w =>
      let ds (k : Nat) : Dest := w.req.dsts.getD k ⟨0, 0, 0⟩
      2 ^ 222 + w.entry * 2 ^ 202 + d.nextWait i * 2 ^ 186 + w.req.dsts.length * 2 ^ 159
        + ((ds 0).node * 4 + (ds 0).port) * 2 ^ 137 + ((ds 1).node * 4 + (ds 1).port) * 2 ^ 115 + (ds 0).iter * 2 ^ 105
        + w.req.node * 2 ^ 85 + (ds 1).iter * 2 ^ 75
    | none => 0
  let v := s.ctx * 2 ^ 232 + s.gen * 2 ^ 226 + s.pri * 2 ^ 223 + q + s.held.headD 0 * 2 ^ 166 + s.held.length * 2 ^ 161
  v + Config.lockCheck v % 512

/-- A lock entry as R231 lays it out. -/
def LockEnt.pack (e : LockEnt) : Nat :=
  let v := 2 ^ 159 + b2n e.orphan * 2 ^ 158 + e.ea % 2 ^ 40 * 2 ^ 118 + e.hctx * 2 ^ 94 + e.hgen * 2 ^ 88
    + e.hslot * 2 ^ 72 + e.next * 2 ^ 52 + b2n (!e.waiters.isEmpty) * 2 ^ 51 + e.waiters.headD 0 * 2 ^ 35
    + e.waiters.getLastD 0 * 2 ^ 19
  v + Config.lockCheck v % 512

end Sys2Proof.Machine
end

