-- ==== Sys2Proof/Machine/Records.lean ====
section
/-! DEFINITION. Octets of the records that the fabric keeps in HBM: frame records (R40–R42). -/

namespace Sys2Proof.Machine

/-- `H0` (R41) and `H1` (R42). -/
def Frame.h0 (f : Frame) : Nat :=
  f.ctx * 2 ^ 40 + f.gen * 2 ^ 34 + b2n f.rolledBack * 2 ^ 33 + f.template * 2 ^ 24 + f.classPri * 2 ^ 21 + f.effPri * 2 ^ 18
    + f.trapMask * 2 ^ 13 + b2n f.subnormal * 2 ^ 12 + f.rounding * 2 ^ 10

def Frame.h1 (f : Frame) : Nat :=
  f.excEntry * 2 ^ 44 + f.resumeNode * 2 ^ 24 + f.resumePort * 2 ^ 22 + f.partner * 2 ^ 10 + f.ring * 4

/-- A frame record (R40). -/
def Frame.octets (f : Frame) : List Byte :=
  leOctets 8 f.h0 ++ leOctets 8 f.h1 ++ leOctets 8 f.ingressNs ++ leOctets 4 f.deadlineUs ++ leOctets 4 0
    ++ (List.range 4).flatMap (fun i => leOctets 3 (f.banks.getD i 0)) ++ leOctets 4 0 ++ leOctets 8 f.flags ++ leOctets 8 0
    ++ (List.range 32).flatMap (fun i => leOctets 5 (f.slots.getD i 0)) ++ List.replicate 32 0

/-- The frame that a record holds; reserved bits are not kept. -/
def Frame.ofOctets (o : List Byte) : Frame :=
  let fld (a n : Nat) : Nat := leNat ((o.drop a).take n)
  let h := fld 0 8
  let g := fld 8 8
  { ctx := bits h 63 40, gen := bits h 39 34, rolledBack := bit h 33, template := bits h 31 24, classPri := bits h 23 21,
    effPri := bits h 20 18, trapMask := bits h 17 13, subnormal := bit h 12, rounding := bits h 11 10,
    excEntry := bits g 63 44, resumeNode := bits g 43 24, resumePort := bits g 23 22, partner := bits g 21 10, ring := bits g 9 2,
    ingressNs := fld 0x10 8, deadlineUs := fld 0x18 4, banks := (List.range 4).map (fun i => fld (0x20 + 3 * i) 3),
    flags := fld 0x30 8, slots := (List.range 32).map (fun i => fld (0x40 + 5 * i) 5) }

end Sys2Proof.Machine
end

