-- ==== Sys2Proof/Machine/Keyops.lean ====
section
/-! DEFINITION. What the keyway, the timer wheel and the frame caches keep of contexts (chapters 01, 02, 05 and 06):
template fields, charges and commitments, buckets, frame lines, allocation, deadline tokens, the purge. -/

namespace Sys2Proof.Machine

/-! ### Contract templates (R127, R129) -/

/-- The record of a template slot. -/
def Dev.tpl (d : Dev) (t : Nat) : List Byte := tget tplInit d.key.tpls t

/-- A field of a template record, least significant octet first. -/
def tplField (o : List Byte) (off n : Nat) : Nat := leNat ((o.drop off).take n)

def tClass (o : List Byte) : Nat := tplField o 0x00 1 % 8
def tGraph (o : List Byte) : Nat := tplField o 0x01 1
def tValid (o : List Byte) : Bool := bit (tplField o 0x02 2) 0
def tForward (o : List Byte) : Bool := bit (tplField o 0x02 2) 1
def tInternal (o : List Byte) : Nat := tplField o 0x04 4
def tTotal (o : List Byte) : Nat := tplField o 0x08 4
def tStandin (o : List Byte) : Nat := tplField o 0x0C 4
def tFixed (o : List Byte) : Nat := tplField o 0x10 4
def tResumeLat (o : List Byte) : Nat := tplField o 0x14 4
def tWork (o : List Byte) : Nat := tplField o 0x18 5
def tResumeWork (o : List Byte) : Nat := tplField o 0x1D 5
def tStandinWork (o : List Byte) : Nat := tplField o 0x22 5
def tMatch (o : List Byte) : Nat := tplField o 0x27 1
def tMaxLen (o : List Byte) : Nat := tplField o 0x29 3
def tSpill (o : List Byte) : Nat := tplField o 0x2C 4
def tPre (o : List Byte) : Nat × Nat × Nat := (tplField o 0x30 1, tplField o 0x32 1, tplField o 0x34 1)
def tPost (o : List Byte) : Nat × Nat × Nat := (tplField o 0x31 1, tplField o 0x33 1, tplField o 0x35 1)
def tStandinEntry (o : List Byte) : Nat := tplField o 0x38 3 % 2 ^ 20
def tFallback (o : List Byte) : Nat := tplField o 0x3B 1
def tReject (o : List Byte) : Nat := tplField o 0x3C 1

/-- ⌈a / b⌉; 0 where b is 0. -/
def cdiv (a b : Nat) : Nat := (a + b - 1) / b

/-- R129: the limits on a template's times. -/
def tplTimesOk (o : List Byte) : Bool :=
  2 ≤ tStandin o && tStandin o + 1 + cdiv (tFixed o) 1000 ≤ tInternal o && tInternal o ≤ 1000000
    && tInternal o ≤ tTotal o && tTotal o ≤ 3600000000

/-- R129: the contention allowance *A* in ns. -/
def tplAllowance (o : List Byte) : Nat := (tInternal o - tStandin o - 1) * 1000 - tFixed o

/-- A graph image slot is Active, not Draining (R129, R383). -/
def Dev.graphActive (d : Dev) (g : Nat) : Bool :=
  match tget? d.wrd.imgs (0xD000 + g) with | some i => i.st == .active | none => false

/-- R129: the template is usable. -/
def Dev.tplUsable (d : Dev) (t : Nat) : Bool :=
  let o := d.tpl t
  tValid o && d.graphActive (tGraph o) && tplTimesOk o

/-- The number of clusters a graph slot is mapped to (R129). -/
def Dev.mappedOf (d : Dev) (g : Nat) : List Nat := match d.graph g with | some gr => d.mapped gr | none => []

/-- The positions of those clusters. -/
def Dev.mappedPos (d : Dev) (g : Nat) : List Nat := (d.mappedOf g).filterMap d.posOf

/-- R129: the per-cluster charges of a template slot, from when it became usable. -/
def Dev.shares (d : Dev) (t : Nat) : Nat × Nat × Nat := tget (0, 0, 0) d.key.shares t

/-- R129: the keyway computes the charges of the templates that become usable with a graph. -/
def Dev.usableNow (d : Dev) (g : Nat) : Dev :=
  let n := (d.mappedOf g).length
  let ts := d.key.tpls.filter (fun (e : Nat × List Byte) => tGraph e.2 == g && d.tplUsable e.1)
  { d with key := { d.key with shares := ts.foldl (fun s (e : Nat × List Byte) =>
      tset s e.1 (cdiv (tWork e.2) n, cdiv (tResumeWork e.2) n, cdiv (tStandinWork e.2) n)) d.key.shares } }

/-! ### Charges, backlog and commitments (R136–R138) -/

/-- The lives that still count: Active ones and those under reclamation (R123 step 8). -/
def Dev.allLives (d : Dev) : List Life := d.key.lives.map (·.2) ++ d.key.reclaim.map (·.life)

/-- What a life's charge adds to class `c` of each cluster of its graph. -/
def Life.owes (l : Life) (c : Nat) : Nat := match l.charge with | some x => if x.cls = c then x.left else 0 | none => 0

/-- *B*ₖ[*c*] of position `k` (R137). -/
def Dev.backlog (d : Dev) (k c : Nat) : Nat :=
  lsum (d.allLives.map (fun l => if (d.mappedPos l.graph).contains k then l.owes c else 0))

/-- The limit of a cluster for an allowance in ns (R136). -/
def Dev.limit (d : Dev) (k allow : Nat) : Nat := 16 * (d.pos k).credit * allow / 1000

/-- R137: a message of class `c` with per-cluster charge `q` passes the backlog test. -/
def Dev.backlogOk (d : Dev) (g c q allow : Nat) : Bool :=
  (d.mappedPos g).all (fun k => lsum ((upFrom c (8 - c)).map (d.backlog k)) + q ≤ d.limit k allow)

/-- A charge made now, drawn over `n` ticks (R137). -/
def Dev.mkCharge (d : Dev) (c x n : Nat) : Charge := ⟨c, x, min 256 n, 0, x, d.tai / 1000⟩

/-- The drain ticks of a charge up to a whole microsecond of the timebase, none in the one it was made in: the first one
drains *x* − (*D* − 1) × ⌊*x* / *D*⌋, each later one ⌊*x* / *D*⌋. -/
def Charge.drain (c : Charge) (now : Nat) : Charge :=
  if now ≤ c.since || c.d ≤ c.ticks then c
  else
    let n := min c.d (c.ticks + (now - c.since))
    { c with ticks := n, left := (c.d - n) * (c.x / c.d), since := now }

/-- R137: a drain tick for a life. -/
def Life.drain (now : Nat) (l : Life) : Life := { l with charge := l.charge.map (fun c => c.drain now) }

/-- Committed counts (R138). -/
def Dev.committed (d : Dev) : Nat × Nat × Nat :=
  let cs := d.allLives.map (·.commit)
  (lsum (cs.map (·.1)), lsum (cs.map (fun c => c.2.1)), lsum (cs.map (fun c => c.2.2)))

/-- A budget's test (R138). -/
def budgetOk (have_ need budget : Nat) : Bool := need == 0 || decide (have_ + need ≤ budget)

/-- R137 and R138: what removes a context's charge releases its commitments with it. -/
def Life.release (l : Life) : Life := { l with charge := none, commit := (0, 0, 0) }

/-! ### The timer wheel (R20, R140, R141) -/

/-- R20: the due time for a deadline in µs, in ns; a whole microsecond. -/
def dueTime (ingress dlUs standinUs : Nat) : Nat := (ingress + dlUs * 1000 - standinUs * 1000 - 1000) / 1000 * 1000

/-- R20: the fallback point. -/
def fbPoint (ingress dlUs : Nat) : Nat := ingress + dlUs * 1000 - 1000

/-- A life's timer stands in the due bucket. -/
def Life.inDue (l : Life) : Bool := l.timer && (l.st == .armed || l.st == .parked || l.st == .resumed)

/-- The due bucket, and the fallback bucket, of a time has room (R140), not counting context `me`. -/
def Dev.dueRoom (d : Dev) (me due : Nat) : Bool :=
  (d.key.lives.filter (fun (e : Nat × Life) => e.2.inDue && e.2.ctx != me && e.2.due / 1000 == due / 1000)).length < 448
def Dev.fbRoom (d : Dev) (me fb : Nat) : Bool :=
  (d.key.lives.filter (fun (e : Nat × Life) => e.2.timer && e.2.ctx != me && e.2.fb / 1000 == fb / 1000)).length < 448

/-- Every bucket that a timer stands in has room for a pair of times. -/
def Dev.pairRoom (d : Dev) (l : Life) (due fb : Nat) : Bool := (!l.inDue || d.dueRoom l.ctx due) && d.fbRoom l.ctx fb

/-- The latest pair at or before the given one with room, both after the times armed (R141); `n` pairs are looked at.
The first answer is the number of microseconds moved. -/
def Dev.latestPair (d : Dev) (l : Life) (due fb : Nat) : Nat → Nat → Option (Nat × Nat × Nat)
  | 0, _ => none
  | n + 1, k =>
    if due < k * 1000 + l.due + 1 || fb < k * 1000 + l.fb + 1 then none
    else if d.pairRoom l (due - k * 1000) (fb - k * 1000) then some (k, due - k * 1000, fb - k * 1000)
    else Dev.latestPair d l due fb n (k + 1)

/-- R141: the times of a timer counted anew from its ingress instant and applicable deadline, moved earlier to the latest
pair with room, or unchanged. -/
def Dev.retime (d : Dev) (l : Life) : Life × Dev :=
  let due := dueTime l.ingress l.ddlUs (tStandin (d.tpl l.tpl))
  let fb := fbPoint l.ingress l.ddlUs
  if d.pairRoom l due fb then ({ l with due := due, fb := fb }, d)
  else match d.latestPair l due fb (2 * d.key.lives.length + 2) 1 with
    | some (_, a, b) => ({ l with due := a, fb := b, flags := l.flags ||| 0x40 }, d.bump 0x3040 2)
    | none => (l, d)

/-- R141: re-arm for the total deadline at an accepted forward claim. -/
def Dev.rearm (d : Dev) (l : Life) : Life × Dev := d.retime { l with ddlUs := tTotal (d.tpl l.tpl) }

/-! ### Frame caches (R39, R43, R44) -/

/-- R44: the frame line of a context is pinned. -/
def Dev.pinned (d : Dev) (ctx : Nat) : Bool :=
  match d.life ctx with | some l => l.st != .parked | none => false

/-- Lines of a context's set in a frame cache. -/
def Pos.set (p : Pos) (ctx : Nat) : List FLine := p.lines.filter (fun l => l.fr.ctx % 64 == ctx % 64)

/-- The line that replacement evicts from a full set: the unpinned one least recently fired. -/
def Dev.frameVictim (d : Dev) (p : Pos) (ctx : Nat) : Option FLine :=
  minBy (·.used) ((p.set ctx).filter (fun l => !d.pinned l.fr.ctx))

/-- The set has an invalid or an unpinned line. -/
def Dev.frameRoom (d : Dev) (p : Pos) (ctx : Nat) : Bool := (p.set ctx).length < 16 || (d.frameVictim p ctx).isSome

/-- R39 and R44: the cluster at `k` can pin a new frame for `ctx`. -/
def Dev.canPin (d : Dev) (ctx k : Nat) : Bool :=
  let p := d.pos k
  let pins := (p.lines.filter (fun l => d.pinned l.fr.ctx)).length
  p.st == .inService && d.frameRoom p ctx && decide (pins + 1 + d.obj 0x2803 1 ≤ 1024)

/-- Where a context's frame record lies in HBM (R40). -/
def Dev.frameAt (d : Dev) (ctx : Nat) : Nat := d.hbmAt rgFrame + 256 * ctx

/-- Write a frame's record to HBM. -/
def Dev.putRecord (d : Dev) (f : Frame) : Dev :=
  ({ d with fab := { d.fab with frames := tset d.fab.frames f.ctx f } }).rewrote spHbm (d.frameAt f.ctx) 256

/-- Evict a line: a changed one is written back (R43, R44). -/
def Dev.evictLine (d : Dev) (k : Nat) (l : FLine) : Dev :=
  let d := d.modPos k (fun p => { p with lines := p.lines.filter (fun x => x.fr.ctx != l.fr.ctx) })
  if l.dirty then (d.putRecord l.fr).bump 0x2803 2 else d

/-- A firing uses a context's line: it is now the one fired last (R44). -/
def Pos.touchLine (p : Pos) (ctx now : Nat) : Pos :=
  { p with lines := p.lines.map (fun l => if l.fr.ctx = ctx then { l with used := now } else l) }

/-- Install a frame line in a position's cache, evicting where the set is full. -/
def Dev.installLine (d : Dev) (k : Nat) (f : Frame) : Dev :=
  let p := d.pos k
  let d := if (p.set f.ctx).length < 16 then d else match d.frameVictim p f.ctx with
    | some v => d.evictLine k v
    | none => d
  d.modPos k (fun p => { p with lines := p.lines.filter (fun x => x.fr.ctx != f.ctx) ++ [⟨f, false, d.up⟩] })

/-- Drop a context's line without write-back. -/
def Dev.dropLine (d : Dev) (ctx : Nat) : Dev :=
  match d.homePos ctx with
  | some k => d.modPos k (fun p => { p with lines := p.lines.filter (fun x => x.fr.ctx != ctx) })
  | none => d

/-! ### Allocation (R39, R51) -/

/-- Context numbers in all. -/
def ctxCount : Nat := 2 ^ 24

/-- The number at the head of the free queue, if eligible (R51). -/
def Dev.freeHead (d : Dev) : Option Nat :=
  if d.key.freshCtx < ctxCount then some d.key.freshCtx
  else match d.key.freeTail with
    | (c, none) :: _ => some c
    | (c, some n) :: _ => if n + 64 ≤ d.obj 0x2106 1 then some c else none
    | [] => none

/-- Take the number at the head. -/
def Dev.takeHead (d : Dev) : Dev :=
  if d.key.freshCtx < ctxCount then { d with key := { d.key with freshCtx := d.key.freshCtx + 1 } }
  else { d with key := { d.key with freeTail := d.key.freeTail.drop 1 } }

/-- Move the eligible head, still eligible, to the tail (R39). -/
def Dev.requeueHead (d : Dev) : Dev :=
  match d.freeHead with
  | some c =>
    let d := d.takeHead
    { d with key := { d.key with freeTail := d.key.freeTail ++ [(c, none)] } }
  | none => d

/-- R39: the home cluster for `ctx` among the mapped ones, in rotation: its index in the list and its number. -/
def Dev.pickHome (d : Dev) (g ctx : Nat) : Option (Nat × Nat) :=
  let ms := d.mappedOf g
  let r := tget 0 d.key.rot g % (max 1 ms.length)
  ((upFrom r ms.length).map (· % (max 1 ms.length))).findSome? (fun i =>
    match ms[i]? with
    | some lc => match d.posOf lc with
      | some k => if d.canPin ctx k then some (i, lc) else none
      | none => none
    | none => none)

/-- The frame a new life gets (R41, R42). -/
def Dev.newFrame (d : Dev) (l : Life) : Frame :=
  let o := d.tpl l.tpl
  let (m, e, b) := match d.graph l.graph with | some g => (g.modes, g.exc, g.bankIni) | none => (0, 0, [0, 0, 0, 0])
  { ctx := l.ctx, gen := l.gen, rolledBack := false, template := l.tpl, classPri := tClass o, effPri := tClass o,
    trapMask := bits m 7 3, subnormal := bit m 2, rounding := bits m 1 0, excEntry := e, resumeNode := 0,
    resumePort := 0, partner := l.partner, ring := l.ring, ingressNs := l.ingress, deadlineUs := l.ddlUs, banks := b,
    flags := 0, slots := List.replicate 32 0 }

/-- R39: install a new life at the head number with home `lc`; reservations, frame, generation table, home map. -/
def Dev.allocate (d : Dev) (l : Life) (i lc : Nat) : Dev :=
  let d := d.takeHead
  let d := { d with key := { d.key with rot := tset d.key.rot l.graph (i + 1), lives := tset d.key.lives l.ctx l } }
  let f := d.newFrame l
  let d := { d with fab := { d.fab with
    gens := tset d.fab.gens l.ctx (l.gen + 64), reserved := d.fab.reserved + l.match_,
    spillRes := d.fab.spillRes + l.spill, noc := { d.fab.noc with home := tset d.fab.noc.home l.ctx (128 + lc) } } }
  let d := (d.putRecord f).poolStates.jnlState
  let d := match d.posOf lc with | some k => d.installLine k f | none => d
  d.bump 0x2800 1

/-! ### Tokens of the timer wheel -/

/-- R33 and R21: a deadline token with a reason; the entry moves to Standing in, its charge and commitments end and the
stand-in work is charged to class 7 (R137). -/
def Dev.deadlineToken (d : Dev) (l : Life) (reason : Nat) : Dev :=
  let us := min 0xFFFFFFFF ((l.fb - d.tai) / 1000)
  let fl := if reason = 1 then 0x20 else if reason = 2 then 0x10 else 0
  let l := { l.release with
    st := .standing, byStandin := true, flags := l.flags ||| fl,
    charge := some (d.mkCharge 7 (d.shares l.tpl).2.2 (tStandin (d.tpl l.tpl))) }
  let d := ((d.setLife l).bump 0x3040 3).hubEvent 0x43 0
  let d := if reason = 2 then d.bump 0x2120 2 else d
  d.hubToken agKeyway 7 (mkTok (mkTag l.ctx l.gen 0 (tStandinEntry (d.tpl l.tpl)) 0) (reason * 2 ^ 32 + us) kDeadline 0)

/-! ### The purge (R123) -/

/-- The slots that the journal map names, in order (R296). -/
def Dev.appSlots (d : Dev) (l : Life) : List Nat :=
  match d.graph l.graph, d.frame l.ctx with
  | some g, some f => (g.jmap.take 9).map f.slot
  | _, _ => []

/-- The journal record of a purge, of type 0x01, or 0x02 at the fallback point. -/
def Dev.purgeRec (d : Dev) (l : Life) (fallback : Bool) (flags : Nat) : JRec :=
  let rb := match d.frame l.ctx with | some f => f.rolledBack | none => false
  { jrec0 with
    lane := l.ctx % 16, time := d.time80, typ := if fallback then 2 else 1,
    flags := l.flags ||| flags ||| (if rb then 8 else 0), session := l.session, partner := l.partner, ring := l.ring,
    tpl := l.tpl, corr := l.ctx * 64 + l.gen, ingress := l.ingress, resp := l.respNs.map (· - l.ingress),
    typeCode := l.typeCode, app := d.appSlots l }

/-- R123 steps 1 to 6, at the trigger; step 7 and what follows are RECLAIM_DONE's. -/
def Dev.purge (d : Dev) (l : Life) (fallback : Bool) (flags : Nat) : Dev :=
  let r := d.purgeRec l fallback flags
  let orphaning := match d.slotOf l.ctx l.gen with | some (_, s) => !s.held.isEmpty | none => false
  let r := if orphaning then { r with flags := r.flags ||| 0x80 } else r
  let g := (l.gen + 1) % 64
  let d := (d.modFrame l.ctx (fun f => { f with gen := g })).modRecord l.ctx (fun f => { f with gen := g })
  let d := { d with
    key := { d.key with lives := terase d.key.lives l.ctx, reclaim := d.key.reclaim ++ [(⟨{ l with timer := false }, r, d.up, []⟩ : Reclaim)] },
    fab := { d.fab with gens := tset d.fab.gens l.ctx g },
    lnk := { d.lnk with proxies := d.lnk.proxies.filter (fun p => !(p.ctx == l.ctx && p.gen == l.gen)) } }
  let d := ((d.haspPurge l.ctx l.gen).dropLine l.ctx).jnlState
  if fallback then d.bump 0x2106 2 else d

/-! ### Entry format (R57) -/

/-- An arrival record: 51 bits, port first. -/
def Arr.pack (a : Arr) : Nat := a.port * 2 ^ 49 + b2n a.half * 2 ^ 48 + a.value % 2 ^ 40 * 2 ^ 8 + a.kind % 8 * 2 ^ 5 + a.st % 32

def Arr.unpack (v : Nat) : Arr := ⟨bits v 50 49, bit v 48, bits v 47 8, bits v 7 5, bits v 4 0⟩

/-- The four words of an entry, each with its check field; `next` is the pool index of the next entry. -/
def MEntry.words (e : MEntry) (next : Nat) : List W128 :=
  let r (i : Nat) : Nat := match e.arrs[i]? with | some a => a.pack | none => 0
  [withCheck (e.key * 2 ^ 52 + e.need * 2 ^ 49 + e.arrs.length * 2 ^ 46 + e.pri * 2 ^ 43 + next * 2 ^ 18),
   withCheck (r 0 * 2 ^ 61 + r 1 * 2 ^ 10), withCheck (r 2 * 2 ^ 61 + r 3 * 2 ^ 10), withCheck 0]

/-- An entry from its words. -/
def MEntry.ofWords (w : List W128) : MEntry :=
  let h := (w.getD 0 0).toNat
  let rec_ (i : Nat) : Arr :=
    let v := (w.getD (1 + i / 2) 0).toNat
    Arr.unpack (if i % 2 = 0 then bits v 127 77 else bits v 76 26)
  ⟨bits h 127 68, bits h 67 65, bits h 61 59, (List.range (bits h 64 62)).map rec_⟩

/-- The entry that a linked overflow entry holds. -/
def OvfEnt.ent (x : OvfEnt) : MEntry := MEntry.ofWords x.ws

/-! ### Tokens held by a life (R23) -/

/-- A token belongs to a life. -/
def tokOf (ctx gen : Nat) (t : W128) : Bool := tCtx t == ctx && tGen t == gen

def Firing.of (ctx gen : Nat) (f : Firing) : Bool := f.toks.any (tokOf ctx gen)

/-- A match entry belongs to a life: its key holds `CTX` and `GEN`. -/
def MEntry.of (ctx gen : Nat) (e : MEntry) : Bool := e.key / 2 ^ 36 == ctx && e.key / 2 ^ 30 % 64 == gen

/-- Everything a cluster holds for a life. -/
def Pos.holds (p : Pos) (ctx gen : Nat) : Bool :=
  p.rq.any (fun q => (sqCells q ++ q.held).any (·.of ctx gen)) || p.fwait.any (·.f.of ctx gen)
    || p.ways.any (·.ent.of ctx gen) || p.wb.any (·.1.of ctx gen)
    || p.probes.any (fun b => b.arrs.any (fun a => tokOf ctx gen a.pl))
    || p.in1.any (fun a => tokOf ctx gen a.pl) || p.in0.any (fun a => tokOf ctx gen a.pl)
    || p.cells.any (fun c => c.2.pipe.any (·.f.of ctx gen))

/-- A token of the life is anywhere in the device: in a cluster, in overflow, in a router, held, parked or at the link
agent. -/
def Dev.holdsToken (d : Dev) (ctx gen : Nat) : Bool :=
  let n := d.fab.noc
  let fl (f : Flit) : Bool := hVc f.hdr != 3 && tokOf ctx gen f.pl
  d.fab.pos.any (fun e => e.2.holds ctx gen)
    || d.fab.heads.any (fun h => h.2.any (fun x => x.ent.of ctx gen))
    || n.routers.any (fun r => r.2.inj.any (fun x => fl x.f) || r.2.bufs.any (fun b => b.2.any (fun x => fl x.f)))
    || n.held.any (fun h => fl h.2) || n.linkOut.any fl || n.parkIn.any fl
    || n.park.any (fun q => (sqCells q.2 ++ q.2.held).any fl)

/-- R23: a Claimed context whose response is complete and that holds no token is purged. -/
def Dev.quiesce (d : Dev) (ctx : Nat) : Dev :=
  match d.life ctx with
  | some l => if l.st == .claimed && l.respDone && !d.holdsToken l.ctx l.gen then d.purge l false 0 else d
  | none => d

/-- Every context is looked at (R23): what a position held was lost. -/
def Dev.quiesceAll (d : Dev) : Dev := d.key.lives.foldl (fun d (e : Nat × Life) => d.quiesce e.1) d

end Sys2Proof.Machine
end

