-- ==== Sys2Proof/Machine/Tcp.lean ====
section
/-! DEFINITION. The session engines' TCP (R246): RFC 9293 over one session, with window scaling, SACK, the retransmission
timer of RFC 6298 and the congestion control of RFC 5681 and 6582. -/

namespace Sys2Proof.Machine

/-- Sequence numbers wrap modulo 2^32. -/
def seqSub (a b : Nat) : Nat := (a + 2 ^ 32 - b % 2 ^ 32) % 2 ^ 32
def seqAdd (a n : Nat) : Nat := (a + n) % 2 ^ 32

/-- `a` comes before `b`, or is it. -/
def seqLe (a b : Nat) : Bool := decide (seqSub b a < 2 ^ 31)
def seqLt (a b : Nat) : Bool := seqLe a b && a != b

/-- Fields of a session's configuration word (R244). -/
def cfgPartner (w : Nat) : Nat := bits w 63 52
def cfgRing (w : Nat) : Nat := bits w 51 44
def cfgActive (w : Nat) : Bool := bit w 43
def cfgPort (w : Nat) : Nat := bits w 42 40
def cfgV6 (w : Nat) : Bool := bit w 39
def cfgLocal (w : Nat) : Nat := bits w 31 16
def cfgRemote (w : Nat) : Nat := bits w 15 0

/-- Receive and send buffers of a session (R254). -/
def rxCap : Nat := 98304
def txCap : Nat := 65536

/-- Octets in the receive buffer. -/
def Ses.rxUsed (s : Ses) : Nat := s.rxbuf.length + s.plain.length + lsum (s.tcb.ooo.map (fun x => x.2.length))

/-- The receive shift (R246). -/
def rxShift : Nat := 2

/-- The advertised right edge: it follows the free space of the receive buffer, never moves back, moves by a segment
or half the buffer at least (RFC 9293, silly windows), and stands while the session's ring is Above (R252). -/
def Ses.newEdge (s : Ses) (above : Bool) : Nat :=
  let e := seqAdd s.tcb.rcvNxt (rxCap - s.rxUsed)
  if above || seqLe e s.tcb.edge || decide (seqSub e s.tcb.edge < min (rxCap / 2) s.tcb.mss) then s.tcb.edge else e

/-- The window field of a segment. -/
def Tcb.wnd (t : Tcb) (syn : Bool) : Nat :=
  let w := seqSub t.edge t.rcvNxt
  min 65535 (if t.scaleOk && !syn then w / 2 ^ rxShift else w)

/-- Up to four SACK blocks over what waits out of order. -/
def Tcb.blocks (t : Tcb) : List (Nat × Nat) :=
  if t.sackOk then (t.ooo.map (fun x => (x.1, seqAdd x.1 x.2.length))).take 4 else []

/-- A segment of a session. -/
def Ses.seg (s : Ses) (seq : Nat) (syn fin rst ackF : Bool) (data : List Byte) : Seg :=
  { sport := cfgLocal s.cfg, dport := s.tcb.rport, addr := s.tcb.raddr, seq := seq, ack := s.tcb.rcvNxt, fin := fin,
    syn := syn, rst := rst, ackF := ackF, wnd := s.tcb.wnd syn, mss := none, scale := none, sackOk := false,
    sacks := if ackF && !syn then s.tcb.blocks else [], data := data, net := netInit }

/-- A pure acknowledgement. -/
def Ses.ackSeg (s : Ses) : Seg := s.seg s.tcb.sndNxt false false false true []

/-- The send MSS where the peer names none (RFC 9293, RFC 8200). -/
def mssDefault (v6 : Bool) : Nat := if v6 then 1220 else 536

/-- The MSS that a port's MTU gives (R246). -/
def mssOf (mtu : Nat) (v6 : Bool) : Nat := mtu - (if v6 then 60 else 40)

/-- A SYN with its options; an answer to a SYN offers what the peer offered. -/
def Ses.synSeg (s : Ses) (mss : Nat) (ackF scale sack : Bool) : Seg :=
  { s.seg s.tcb.iss true false false ackF [] with
    mss := some mss, scale := if scale then some rxShift else none, sackOk := sack }

/-- Octets in flight. -/
def Tcb.flight (t : Tcb) : Nat := seqSub t.sndNxt t.sndUna

/-- The initial congestion window (RFC 5681). -/
def initCwnd (mss : Nat) : Nat := if 2190 < mss then 2 * mss else if 1095 < mss then 3 * mss else 4 * mss

/-- Retransmission timer limits: 1 ms to 1 s. -/
def rtoClamp (n : Nat) : Nat := max 1000000 (min 1000000000 n)

/-- A segment of `k` octets, of `rest` that wait, may go now: it is full, takes all that waits, or half the widest window that
the peer has advertised (RFC 9293, silly windows). -/
def Tcb.mayGo (t : Tcb) (k rest : Nat) : Bool := decide (0 < k) && (k == t.mss || k == rest || decide (t.maxWnd ≤ 2 * k))

/-- The timer runs while something is unacknowledged. -/
def Tcb.arm (t : Tcb) (now : Nat) : Tcb := { t with timer := if t.flight = 0 then none else some (now + t.rto) }

/-- A round-trip sample (RFC 6298). -/
def Tcb.sample (t : Tcb) (r : Nat) : Tcb :=
  if t.srtt = 0 then { t with srtt := r, rttvar := r / 2, rto := rtoClamp (r + max 1 (2 * r)) }
  else
    let dlt := if t.srtt < r then r - t.srtt else t.srtt - r
    let v := (3 * t.rttvar + dlt) / 4
    let m := (7 * t.srtt + r) / 8
    { t with srtt := m, rttvar := v, rto := rtoClamp (m + max 1 (4 * v)) }

/-- Send what the windows allow, at most `n` segments; in Closing the FIN follows the data. Where nothing is in flight and the
window lets nothing go, the timer runs to a probe (RFC 9293). -/
def Ses.trySend (now : Nat) : Nat → Ses → Ses × List Seg
  | 0, s => (s, [])
  | n + 1, s =>
    let t := s.tcb
    if !t.conn || t.synSent then (s, [])
    else
      let room := min t.cwnd t.sndWnd - t.flight
      let rest := s.sndbuf.drop t.flight
      let k := min t.mss (min room rest.length)
      if t.mayGo k rest.length then
        let sg := s.seg t.sndNxt false false false true (rest.take k)
        let t' := { t with sndNxt := seqAdd t.sndNxt k,
                           timing := match t.timing with | none => some (t.sndNxt, now) | x => x,
                           timer := match t.timer with | none => some (now + t.rto) | x => x }
        let q := Ses.trySend now n { s with tcb := t' }
        (q.1, sg :: q.2)
      else if s.st = .closing && t.flight = s.sndbuf.length then
        ({ s with tcb := ({ t with sndNxt := seqAdd t.sndNxt 1 } : Tcb).arm now }, [s.seg t.sndNxt false true false true []])
      else if t.flight = 0 && !rest.isEmpty && t.timer.isNone then ({ s with tcb := { t with timer := some (now + t.rto) } }, [])
      else (s, [])

/-- Most segments that one call sends: a full send buffer of the smallest segments. -/
def sendFuel : Nat := txCap + 1

/-- The first unacknowledged segment again, up to the next block the peer holds. -/
def Ses.resend (s : Ses) : List Seg :=
  let t := s.tcb
  let hole := (t.sacked.map (fun b => seqSub b.1 t.sndUna)).filter (fun x => decide (0 < x && x < 2 ^ 31))
  let k := min t.mss (min s.sndbuf.length (match minBy id hole with | some h => h | none => t.mss))
  if 0 < k then [s.seg t.sndUna false false false true (s.sndbuf.take k)]
  else if s.st = .closing && 0 < t.flight then [s.seg t.sndUna false true false true []]
  else []

/-- The window probe: an octet, or what the window has room for (RFC 9293). -/
def Ses.probe (s : Ses) : Ses × List Seg :=
  let t := s.tcb
  let k := max 1 (min t.mss (min t.sndWnd s.sndbuf.length))
  ({ s with tcb := { t with sndNxt := seqAdd t.sndUna (min k s.sndbuf.length), timing := none } },
    if s.sndbuf.isEmpty then [] else [s.seg t.sndUna false false false true (s.sndbuf.take k)])

/-- An acknowledgement that covers new octets: window growth, NewReno's partial and full acknowledgements, sampling. -/
def Ses.ackNew (now : Nat) (s : Ses) (ack : Nat) : Ses × List Seg :=
  let t := s.tcb
  let n := seqSub ack t.sndUna
  let t := match t.timing with
    | some (q, at_) => if seqLt q ack then { t.sample (now - at_) with timing := none } else t
    | none => t
  let s := { s with sndbuf := s.sndbuf.drop n }
  let t := { t with sndUna := ack, dup := 0, sacked := t.sacked.filter (fun b => seqLt ack b.2) }
  if t.inRec then
    if seqLt t.recover ack then
      ({ s with tcb := ({ t with inRec := false, cwnd := t.ssthresh } : Tcb).arm now }, [])
    else
      let t := { t with cwnd := t.cwnd - min n t.cwnd + t.mss }
      let s := { s with tcb := t.arm now }
      (s, s.resend)
  else
    let t := if t.cwnd < t.ssthresh then { t with cwnd := t.cwnd + min n t.mss }
      else { t with cwnd := t.cwnd + max 1 (t.mss * t.mss / max 1 t.cwnd) }
    ({ s with tcb := t.arm now }, [])

/-- A duplicate acknowledgement: the third begins fast recovery where the acknowledgement is beyond what the last recovery or
timeout had sent (RFC 6582); nothing sent again is timed (RFC 6298). -/
def Ses.ackDup (now : Nat) (s : Ses) : Ses × List Seg :=
  let t := { s.tcb with dup := s.tcb.dup + 1 }
  if t.inRec then ({ s with tcb := { t with cwnd := t.cwnd + t.mss } }, [])
  else if t.dup = 3 && seqLt t.recover t.sndUna then
    let th := max (t.flight / 2) (2 * t.mss)
    let t := { t with ssthresh := th, cwnd := th + 3 * t.mss, inRec := true, recover := seqSub t.sndNxt 1, timing := none }
    let s := { s with tcb := t.arm now }
    (s, s.resend)
  else ({ s with tcb := t }, [])

/-- Take an acknowledgement. -/
def Ses.takeAck (now : Nat) (s : Ses) (g : SegIn) : Ses × List Seg :=
  if !g.ackF then (s, [])
  else
    let t := s.tcb
    let w := if t.scaleOk && !g.syn then g.wnd * 2 ^ t.scale else g.wnd
    let s1 := { s with tcb := { t with sndWnd := w, maxWnd := max w t.maxWnd, sacked := if t.sackOk && !g.sacks.isEmpty then g.sacks.take 4 else t.sacked } }
    if seqLt t.sndUna g.ack && seqLe g.ack t.sndNxt then s1.ackNew now g.ack
    else if g.ack = t.sndUna && g.data.isEmpty && !g.fin && 0 < t.flight && w = t.sndWnd then s1.ackDup now
    else (s1, [])

/-- A segment is acceptable (RFC 9293): some of it, or its number where it is empty, lies in the window. -/
def Ses.acceptable (s : Ses) (g : SegIn) : Bool :=
  let t := s.tcb
  let n := g.data.length + b2n g.fin
  let inWnd (q : Nat) : Bool := seqLe t.rcvNxt q && seqLt q t.edge
  if t.edge = t.rcvNxt then n == 0 && g.seq == t.rcvNxt
  else if n = 0 then inWnd g.seq
  else inWnd g.seq || inWnd (seqAdd g.seq (n - 1))

/-- Merge out-of-order data that has become in-order. -/
def Ses.drainOoo : Nat → Ses → Ses
  | 0, s => s
  | n + 1, s =>
    match s.tcb.ooo.find? (fun x => seqLe x.1 s.tcb.rcvNxt) with
    | none => s
    | some x =>
      let rest := s.tcb.ooo.erase x
      let new := x.2.drop (seqSub s.tcb.rcvNxt x.1)
      Ses.drainOoo n { s with rxbuf := s.rxbuf ++ new,
                              tcb := { s.tcb with rcvNxt := seqAdd s.tcb.rcvNxt new.length, ooo := rest } }

/-- Take data (R246): in-order octets go to the receive buffer, later ones wait, none past the advertised edge. -/
def Ses.takeData (s : Ses) (g : SegIn) : Ses :=
  if g.data.isEmpty then s
  else
    let t := s.tcb
    let room := seqSub t.edge g.seq
    let data := if room < 2 ^ 31 then g.data.take room else []
    if seqLe g.seq t.rcvNxt then
      let new := data.drop (seqSub t.rcvNxt g.seq)
      let s := { s with rxbuf := s.rxbuf ++ new, tcb := { t with rcvNxt := seqAdd t.rcvNxt new.length } }
      Ses.drainOoo s.tcb.ooo.length s
    else if data.isEmpty || t.ooo.any (fun x => x.1 == g.seq) then s
    else { s with tcb := { t with ooo := (g.seq, data) :: t.ooo } }

end Sys2Proof.Machine
end

