-- ==== Sys2Proof/Machine/Rings.lean ====
section
/-! DEFINITION. Partners, sessions and message rings (R242–R255): framing, ring writes, descriptors and cut-through signals,
loss, flow control, and the reading of egress rings. -/

namespace Sys2Proof.Machine

/-! ### Tables -/

def Dev.sess (d : Dev) (s : Nat) : Ses := tget sesInit d.ses.ses s
def Dev.setSes (d : Dev) (s : Nat) (x : Ses) : Dev := { d with ses := { d.ses with ses := tset d.ses.ses s x } }
def Dev.modSes (d : Dev) (s : Nat) (f : Ses → Ses) : Dev := d.setSes s (f (d.sess s))
def Dev.partner (d : Dev) (p : Nat) : Nat := tget 0 d.ses.partner p
def ptrValid (w : Nat) : Bool := bit w 63
def ptrSize (w : Nat) : Nat := if bit w 62 then 4 else 2
def ptrAscii (w : Nat) : Bool := bit w 61
def ptrFormat (w : Nat) : Nat := bits w 60 55
def ptrReject (w : Nat) : Nat := bits w 54 47

def Dev.ing (d : Dev) (r : Nat) : InRing := tget inRingInit d.ses.ing r
def Dev.egr (d : Dev) (r : Nat) : EgRing := tget egRingInit d.ses.egr r

/-- Sessions that name a ring and are not Disabled (log 42). -/
def Dev.namers (d : Dev) (r : Nat) : List (Nat × Ses) :=
  d.ses.ses.filter (fun (e : Nat × Ses) => cfgRing e.2.cfg == r && e.2.st != .disabled)

/-- The format table of a partner. -/
def Dev.fmtOf (d : Dev) (p : Nat) : Option (List Byte) := tget? d.wrd.fmts (ptrFormat (d.partner p))

/-! ### Ring parameters (R249, R254) -/

/-- 4 KiB blocks for ring middles. -/
def Dev.ringBlocks (d : Dev) : Nat := d.xs 1482752 303104

/-- Blocks that ring middles hold. -/
def Dev.ringUsed (d : Dev) : Nat :=
  lsum (d.ses.ing.map (fun e => sqBlocks e.2.q)) + lsum (d.ses.egr.map (fun e => sqBlocks e.2.q))

/-- A message ring's parameters: objects at `base`, and what its middle can still take of the free blocks. -/
def Dev.ringCfg (d : Dev) (base r : Nat) (q : SQ RCell) : SqCfg :=
  ⟨d.obj (base + r) 2, sqRoom q (d.ringBlocks - d.ringUsed), d.obj (base + r) 3, d.obj (base + r) 4, 0⟩

/-- Record descriptors of a ring (R250). -/
def descCap : Nat := 32768

/-! ### Flow control (R252, R253) -/

/-- Logical Ethernet ports. -/
def Dev.ports (d : Dev) : Nat := d.xs 8 4

/-- What flow control a port asserts now: bit 8 PAUSE, bits 7:0 PFC priorities. -/
def Dev.fcWant (d : Dev) (port : Nat) : Nat :=
  let above := (d.ses.ing.filter (fun (e : Nat × InRing) => e.2.q.above)).filter (fun (e : Nat × InRing) =>
    (d.namers e.1).any (fun s => cfgPort s.2.cfg == port))
  match d.obj 0x4020 (port + 2) with
  | 1 => if above.isEmpty then 0 else 256
  | 2 => above.foldl (fun m (e : Nat × InRing) => m ||| 2 ^ (d.obj (0x4100 + e.1) 6 % 8)) 0
  | _ => 0

/-- Frames for a change of a port's flow control. -/
def fcFrames (port old new : Nat) : List (Nat × Nat × Nat × Bool) :=
  (if bit old 8 == bit new 8 then [] else [(port, 1, 0, bit new 8)])
    ++ ((List.range 8).filter (fun i => bit old i != bit new i)).map (fun i => (port, 2, i, bit new i))

/-- Bring a port's flow control up to date. -/
def Dev.fcPort (d : Dev) (port : Nat) : Dev :=
  let old := tget 0 d.ses.fcOn port
  let new := d.fcWant port
  if old = new then d
  else { d with ses := { d.ses with fcOn := tput 0 d.ses.fcOn port new, fcOut := d.ses.fcOut ++ fcFrames port old new } }

/-- Flow control of every port. -/
def Dev.flow (d : Dev) : Dev := (List.range d.ports).foldl Dev.fcPort d

/-- `XOFF_N`[g] is driven low (R253). -/
def Dev.xoffLow (d : Dev) (g : Nat) : Bool :=
  !d.flag 0x4020 1 || d.ses.ing.any (fun (e : Nat × InRing) => e.2.q.on && e.2.q.above && d.obj (0x4100 + e.1) 7 % 8 == g)

def Dev.setEgr (d : Dev) (r : Nat) (x : EgRing) : Dev := { d with ses := { d.ses with egr := tset d.ses.egr r x } }

/-! ### Segments -/

/-- A logical port exists in the mode in force (R352). -/
def Dev.portOn (d : Dev) (e : Nat) : Bool := decide (e < d.ports) && (e % 2 == 0 || tget false d.lnk.split (e / 2))

/-- A port's MAC address as its object holds it; its default follows `MAC_BASE`. -/
def Dev.ethMac (d : Dev) (e : Nat) : Nat :=
  match tget? d.objs (okey (0x8200 + e) 3) with
  | some v => v
  | none => leNat (beOctets 6 (beNat d.ident.mac + e))

/-- The tag control word of frames that a port sends with its VLAN: `PCP` and VLAN ID; 0 untagged (R353, R357). -/
def Dev.ethTci (d : Dev) (e : Nat) : Nat :=
  let v := d.obj (0x8200 + e) 7
  if v % 4096 = 0 then 0 else bits v 14 12 * 8192 + v % 4096

/-- How a segment to an address leaves a port: by the gateway where the port has one, else to the address itself (log 123). -/
def Dev.netHdr (d : Dev) (e : Nat) (v6 : Bool) (addr : Nat) : NetHdr :=
  let g := d.obj (0x8200 + e) 6
  ⟨e, v6, !v6, d.ethTci e, d.ethMac e, d.obj (0x8200 + e) (if v6 then 5 else 4), if g = 0 then addr else g⟩

/-- Segments leave a logical port. -/
def Dev.emit (d : Dev) (e : Nat) (v6 : Bool) (l : List Seg) : Dev :=
  if d.portOn e then
    { d with ses := { d.ses with segs := d.ses.segs ++ l.map (fun g => { g with net := d.netHdr e v6 g.addr }) } }
  else d

/-- Segments of a session leave its port. -/
def Dev.emitOf (d : Dev) (x : Ses) (l : List Seg) : Dev := d.emit (cfgPort x.cfg) (cfgV6 x.cfg) l

def Dev.alert (d : Dev) (s : Nat) (a : Alert) : Dev := { d with ses := { d.ses with alerts := d.ses.alerts ++ [(s, a)] } }

/-- The ring of a session is Above. -/
def Dev.sesAbove (d : Dev) (s : Nat) : Bool := (d.ing (cfgRing (d.sess s).cfg)).q.above

/-- A port's transmission is held by received flow control (R252, R353): PAUSE, or PFC at the port's own priority. -/
def Dev.txHeld (d : Dev) (port : Nat) : Bool :=
  match d.obj 0x4020 (port + 2) with
  | 1 => decide (d.up < tget 0 d.ses.fcRx (port * 16 + 8))
  | 2 => decide (d.up < tget 0 d.ses.fcRx (port * 16 + bits (d.obj (0x8200 + port) 7) 14 12))
  | _ => false

/-- Move a session's advertised edge and send what its windows allow. -/
def Dev.pump (d : Dev) (s : Nat) : Dev :=
  let x := d.sess s
  let x := { x with tcb := { x.tcb with edge := x.newEdge (d.sesAbove s) } }
  if d.txHeld (cfgPort x.cfg) then d.setSes s x else
  let q := Ses.trySend d.up sendFuel x
  (d.setSes s q.1).emitOf x q.2

/-- Replace an ingress ring. Where its watermark state changes, the ports' flow control follows it, and where it goes
Below the windows of its sessions advance again (R252). -/
def Dev.setIng (d : Dev) (r : Nat) (x : InRing) : Dev :=
  let was := (d.ing r).q.above
  let d := { d with ses := { d.ses with ing := tset d.ses.ing r x } }
  if was == x.q.above then d
  else if was then (d.namers r).foldl (fun d e => d.pump e.1) d.flow
  else d.flow

/-! ### Records in a ring -/

/-- Cells of a record that its reader has not read. -/
def Desc.unread (c : Desc) : Nat := c.cells - c.read

/-- Octets of the record at descriptor `k`. -/
def InRing.octetsOf (x : InRing) (k : Nat) : List Byte :=
  let skip := lsum ((x.descs.take k).map (·.unread))
  match x.descs[k]? with
  | some c => c.got ++ (((sqCells x.q).drop skip).take c.unread).flatMap (·.oct)
  | none => []

/-- What the descriptor's scan finds in the octets written so far (R255). -/
def Dev.scanDesc (d : Dev) (c : Desc) (o : List Byte) : Desc :=
  if c.typeOk && c.corrOk then c
  else match d.fmtOf c.partner with
    | none => c
    | some t =>
      let p := parseMsg t (o.drop (ptrSize (d.partner c.partner)))
      let c := match c.typeOk, p.type with | false, some v => { c with typeCode := v, typeOk := true } | _, _ => c
      match c.corrOk, p.corr with | false, some v => { c with corr := v, corrOk := true } | _, _ => c

/-- R96: the record at `RD` has reached its cut-through threshold, or was abandoned. -/
def Dev.sigDue (d : Dev) (r : Nat) (c : Desc) : Bool :=
  !c.raised && (c.eor || c.aborted || decide (d.obj (0x4100 + r) 5 ≤ c.written))

/-- Raise the signal of the record at `RD` where it is due. -/
def Dev.raiseSig (d : Dev) (r : Nat) : Dev :=
  let x := d.ing r
  match x.descs with
  | c :: rest =>
    if d.sigDue r c then
      let d := d.setIng r { x with descs := { c with raised := true } :: rest }
      { d with key := { d.key with signals := d.key.signals ++ [⟨r, d.tai⟩] } }
    else d
  | [] => d

/-- Change the newest descriptor of a ring. -/
def InRing.modLast (x : InRing) (f : Desc → Desc) : InRing :=
  match x.descs.reverse with
  | c :: r => { x with descs := (f c :: r).reverse }
  | [] => x

/-! ### Closing (R245, R251) -/

/-- The last byte of an accepted record is in the ring: the context's frame takes its ingress instant (R40) and its timer
counts from there (R17, R20). -/
def Dev.ingressKnown (d : Dev) (ctx gen t : Nat) : Dev :=
  match d.life ctx with
  | some l =>
    if l.gen = gen && !l.arrived then
      let l := { l with ingress := t, arrived := true }
      let (l, d) := if l.timer then d.retime l else (l, d)
      (d.setLife l).modFrame ctx (fun f => { f with ingressNs := t })
    else d
  | none => d

/-- A session's open record ends `ABORTED`; its ingress instant is this moment. -/
def Dev.abortRec (d : Dev) (s : Nat) : Dev :=
  let r := cfgRing (d.sess s).cfg
  let d := if (d.ing r).wait = some s then d.setIng r { d.ing r with wait := none } else d
  match (d.ing r).descs.getLast? with
  | some c =>
    if c.session = s && !c.eor && !c.aborted then
      let d := d.setIng r ((d.ing r).modLast (fun c => { c with aborted := true, ingressNs := d.tai }))
      let d := match c.owner with | some (ctx, gen) => d.ingressKnown ctx gen d.tai | none => d
      d.raiseSig r
    else d
  | none => d

/-- The job leaves its slot 8 (R273). -/
def Dev.dropJob (d : Dev) (j : Job) : Dev :=
  { d with cry := { d.cry with slot8 := d.cry.slot8.map (fun (e : Nat × List Job) => (e.1, e.2.erase j)) } }

/-- R302: what the export session had not acknowledged is to be exported again. -/
def Dev.unpost (d : Dev) (s : Nat) : Dev :=
  if d.obj 0x7000 8 = 2 && d.obj 0x7000 9 = s then { d with jnl := { d.jnl with posted := 0, marks := [] } } else d

/-- R245: the connection of a Closing session is released. -/
def Dev.releaseConn (d : Dev) (s : Nat) : Dev :=
  (d.unpost s).modSes s (fun x =>
    { x with tcb := tcbInit, rxbuf := [], plain := [], msg := none, sndbuf := [], hsOn := false,
             st := if cfgActive x.cfg then .backoff else .listening, since := d.up })

/-- A session leaves for Closing with an alert: pending data dropped, the open record aborted, FIN sent. -/
def Dev.closeSes (d : Dev) (s : Nat) (a : Option Alert) : Dev :=
  let d := match a with | some a => d.alert s a | none => d
  let d := (d.unpost s).abortRec s
  let r := cfgRing (d.sess s).cfg
  let x := d.ing r
  let d := d.setIng r { x with whole := x.whole.filter (· != s) }
  let d := { d with ses := { d.ses with hsQ := d.ses.hsQ.filter (· != s) } }.dropJob (.handshake s)
  let d := d.modSes s (fun x => { x with st := .closing, since := d.up, plain := [], rxbuf := [], msg := none, hsOn := false })
  d.pump s

/-- R251: a refused ingress write loses the message. -/
def Dev.loseMsg (d : Dev) (s : Nat) : Dev :=
  let r := cfgRing (d.sess s).cfg
  let x := d.ing r
  let d := d.setIng r { x with q := { x.q with overrun := true } }
  (d.modSes s (fun x => { x with lost := x.lost + 1 })).closeSes s (some .closeNotify)

/-! ### Writing a message (R243, R249–R251) -/

/-- What a length prefix says. -/
inductive Prefix where
  | wait | bad | beat | len (n : Nat)
  deriving DecidableEq, Repr

/-- Read the length prefix of a partner's framing (R243). -/
def readPrefix (w : Nat) (l : List Byte) : Prefix :=
  let k := ptrSize w
  if l.length < k then .wait
  else
    let v := if ptrAscii w then (digitsOf 0 (l.take k)).map (numOf 10) else some (beNat (l.take k))
    match v with
    | none => .bad
    | some n => if 65536 < n then .bad else if n = 0 then .beat else .len n

/-- Take a descriptor for a record at its `SOR` cell. -/
def Dev.newDesc (d : Dev) (s n : Nat) : Dev :=
  let r := cfgRing (d.sess s).cfg
  let x := d.ing r
  d.setIng r { x with descs := x.descs ++
    [⟨0, s, cfgPartner (d.sess s).cfg, n, 0, false, false, false, 0, 0, 0, false, false, false, none, 0, 0, [], 0, false⟩] }

/-- A write to a ring is held: its tail window is full (R91). -/
def Dev.writeHeld (d : Dev) (r : Nat) : Bool :=
  let x := d.ing r
  sqTakes (d.ringCfg 0x4100 r x.q) x.q && decide (window ≤ x.q.tail.length)

/-- Write one cell of a session's record; `none` where the ring ignores it. -/
def Dev.writeCell (d : Dev) (s : Nat) (c : RCell) (n : Nat) : Option Dev :=
  let r := cfgRing (d.sess s).cfg
  let x := d.ing r
  if !sqTakes (d.ringCfg 0x4100 r x.q) x.q || (c.sor && descCap ≤ x.descs.length) then none
  else
    let d := if c.sor then d.newDesc s n else d
    let x := d.ing r
    let x := { x with q := sqWrite (d.ringCfg 0x4100 r x.q) x.q c }
    let x := x.modLast (fun k => { k with cells := k.cells + 1, written := k.written + c.oct.length,
                                          eor := c.eor, ingressNs := if c.eor then d.tai else 0 })
    some (d.setIng r x)

/-- After a write: the scan of the newest record, the signal, and the session's message count. -/
def Dev.afterWrite (d : Dev) (s : Nat) : Dev :=
  let r := cfgRing (d.sess s).cfg
  let x := d.ing r
  let o := x.octetsOf (x.descs.length - 1)
  let d := d.setIng r (x.modLast (fun c => d.scanDesc c o))
  let d := match (d.ing r).descs.getLast? with
    | some c =>
      let d := if c.eor then d.modSes s (fun x => { x with rx := x.rx + 1 }) else d
      match c.eor, c.owner with
      | true, some (ctx, gen) => d.ingressKnown ctx gen c.ingressNs
      | _, _ => d
    | none => d
  d.raiseSig r

/-- Write cells of a session's open message from its plaintext, up to `k` of them: whole cells, and the last one. A
write that the full tail window holds waits at the ring and is stored once there is room (R91): its instant is that of
the store (R17). -/
def Dev.writeMsg (d : Dev) (s : Nat) : Nat → Dev
  | 0 => d
  | k + 1 =>
    let x := d.sess s
    match x.msg with
    | none => d
    | some (total, done) =>
      let left := total - done
      let n := min 64 left
      if x.plain.length < n || left = 0 || (d.ing (cfgRing x.cfg)).wait.isSome then d
      else if d.writeHeld (cfgRing x.cfg) then
        d.setIng (cfgRing x.cfg) { d.ing (cfgRing x.cfg) with wait := some s }
      else
        let c : RCell := ⟨x.plain.take n, done == 0, done + n == total⟩
        match d.writeCell s c (total - ptrSize (d.partner (cfgPartner x.cfg))) with
        | none => d.loseMsg s
        | some d =>
          let d := d.modSes s (fun x => { x with
            plain := x.plain.drop n, msg := if done + n = total then none else some (total, done + n) })
          Dev.writeMsg (d.afterWrite s) s k

/-- Exactly one session names the ring of `s` (R249). -/
def Dev.dedicated (d : Dev) (s : Nat) : Bool := (d.namers (cfgRing (d.sess s).cfg)).length == 1

/-- Whole messages at the front of plaintext; heartbeats count for none. -/
def wholeCount (w : Nat) : Nat → List Byte → Nat
  | 0, _ => 0
  | k + 1, l => match readPrefix w l with
    | .len n => if ptrSize w + n ≤ l.length then wholeCount w k (l.drop (ptrSize w + n)) + 1 else 0
    | .beat => wholeCount w k (l.drop (ptrSize w))
    | _ => 0

/-- Take messages from a session's plaintext: a message begun is written on; on a dedicated ring the next one is begun
as its octets come, on a shared one each whole message joins the ring's order (R249). -/
def Dev.frameSes (d : Dev) (s : Nat) : Nat → Dev
  | 0 => d
  | k + 1 =>
    let x := d.sess s
    let r := cfgRing x.cfg
    let w := d.partner (cfgPartner x.cfg)
    if x.st ≠ .opened then d
    else match x.msg with
    | some (_, done) =>
      if done = 0 && (d.ing r).wait ≠ some s && !d.dedicated s then Dev.frameSes (d.modSes s (fun x => { x with msg := none })) s k
      else
        let d' := d.writeMsg s 1026
        if (d'.sess s).msg.isSome then d' else Dev.frameSes d' s k
    | none => match readPrefix w x.plain with
      | .wait => d
      | .bad => d.closeSes s (some .closeNotify)
      | .beat => Dev.frameSes (d.modSes s (fun x => { x with plain := x.plain.drop (ptrSize w), hb := x.hb + 1 })) s k
      | .len n =>
        let y := d.ing r
        if d.dedicated s then
          Dev.frameSes ((d.setIng r { y with whole := y.whole.erase s }).modSes s
            (fun x => { x with msg := some (ptrSize w + n, 0) })) s k
        else
          let more := wholeCount w x.plain.length x.plain - (y.whole.filter (· == s)).length
          d.setIng r { y with whole := y.whole ++ List.replicate more s }

/-- Messages that a receive buffer can hold. -/
def frameFuel : Nat := rxCap

/-- TLS_RECORD_RECEIVE (R249): `wire` octets of the receive buffer are the next TLS record. Application data received on
the journal's export session is discarded (R302). -/
def Dev.tlsRecord (d : Dev) (s wire : Nat) (rec : TlsRec) : Dev :=
  let x := d.sess s
  if x.st ≠ .opened || wire = 0 || x.rxbuf.length < wire then d
  else
    let d := (d.modSes s (fun x => { x with rxbuf := x.rxbuf.drop wire })).bumpBy 0x5031 3 wire
    match rec with
    | .data p =>
      if d.obj 0x7000 8 = 2 && d.obj 0x7000 9 = s then d.pump s
      else
      let d := d.modSes s (fun x => { x with plain := x.plain ++ p })
      (d.frameSes s frameFuel).pump s
    | .closeNotify => d.closeSes s (some .closeNotify)
    | .keyUpdate => d.pump s
    | .bad => d.closeSes s (some .badRecordMac)

/-- The whole message at the front of a session's plaintext is written without a break; the session's next messages follow. -/
def Dev.sharedMsg (d : Dev) (s : Nat) : Dev :=
  let x := d.sess s
  match readPrefix (d.partner (cfgPartner x.cfg)) x.plain with
  | .len n =>
    let total := ptrSize (d.partner (cfgPartner x.cfg)) + n
    if x.st ≠ .opened || x.plain.length < total then d
    else
      let d := (d.modSes s (fun x => { x with msg := some (total, 0) })).writeMsg s 1026
      (d.frameSes s frameFuel).pump s
  | _ => d.frameSes s frameFuel

/-- SHARED_RING_MESSAGE_WRITE (R249): the message that became whole first is written without a break, once the record
before it has ended. -/
def Dev.sharedWrite (d : Dev) (r : Nat) : Dev :=
  match (d.ing r).whole with
  | [] => d
  | s :: rest =>
    if (d.ing r).wait.isSome || (d.ing r).descs.any (fun c => !c.eor && !c.aborted) then d
    else (d.setIng r { d.ing r with whole := rest }).sharedMsg s

/-- R91: the held write at a ring is stored once its tail window has room, and its session goes on. -/
def Dev.resume (d : Dev) (r : Nat) : Dev :=
  let x := d.ing r
  match x.wait with
  | none => d
  | some s =>
    if x.q.full || decide (window ≤ x.q.tail.length) then d
    else ((d.setIng r { x with wait := none }).frameSes s frameFuel).pump s

/-! ### Releasing a record -/

/-- Read `n` cells in marked mode: the cells, the number of marks lost, the queue. -/
def readCells (c : SqCfg) : Nat → SQ RCell → List RCell × Nat × SQ RCell
  | 0, q => ([], 0, q)
  | n + 1, q => match sqReadMarked c q with
    | none => ([], 0, q)
    | some (x, q, lost) => let r := readCells c n q; (x :: r.1, b2n lost + r.2.1, r.2.2)

/-- The reader reads the cells of the record at `RD` that are there (R97): its octets so far gather in the descriptor. -/
def Dev.readRecord (d : Dev) (r : Nat) : Dev :=
  let x := d.ing r
  match x.descs with
  | [] => d
  | c :: rest =>
    let q := readCells (d.ringCfg 0x4100 r x.q) c.unread x.q
    let c := { c with read := c.read + q.1.length, got := c.got ++ q.1.flatMap (·.oct) }
    (d.bumpBy (0x4100 + r) 0x0A q.2.1).setIng r { x with q := q.2.2, descs := c :: rest }

/-- The record at `RD`, read to its last cell, is released (R97) and leaves its descriptor. -/
def Dev.takeRecord (d : Dev) (r : Nat) : Dev :=
  let x := d.ing r
  match x.descs with
  | [] => d
  | c :: rest =>
    if (c.eor || c.aborted) && c.unread = 0 then
      (d.setIng r { x with q := sqRelease (d.ringCfg 0x4100 r x.q) x.q, descs := rest }).raiseSig r
    else d

/-- The record at `RD` was turned away: its cells are read and released as they come (R131 step 5). -/
def Dev.turnedAway (d : Dev) (r : Nat) : Bool :=
  match (d.ing r).descs with
  | c :: _ => c.taken && c.owner.isNone
  | [] => false

/-- Records that the keyway turned away leave their rings, and writers that waited go on. -/
def Dev.settle (d : Dev) : Dev :=
  d.ses.ing.foldl (fun d (e : Nat × InRing) =>
    if d.turnedAway e.1 then ((d.readRecord e.1).takeRecord e.1).resume e.1 else d) d

/-! ### Egress (R249, R254) -/

/-- Cells that `n` octets take. -/
def cellsOf (n : Nat) : Nat := (n + 63) / 64

/-- An egress ring can take a whole record of `n` octets. -/
def Dev.egRoom (d : Dev) (r n : Nat) : Bool :=
  let x := d.egr r
  decide (cellsOf n ≤ sqSure (d.ringCfg 0x4200 r x.q) x.q) && decide (x.descs.length < descCap)

/-- The cells of a record. -/
def toCells : Nat → Bool → List Byte → List RCell
  | 0, _, _ => []
  | k + 1, first, l => if l.length ≤ 64 then [⟨l, first, true⟩] else ⟨l.take 64, first, false⟩ :: toCells k false (l.drop 64)

/-- Write a whole record to an egress ring (R249). -/
def Dev.egWrite (d : Dev) (r s p len : Nat) (o : List Byte) : Dev :=
  let x := d.egr r
  let cf := d.ringCfg 0x4200 r x.q
  let q := (toCells (o.length + 1) true o).foldl (fun q c => sqWrite cf q c) x.q
  d.setEgr r { q := q, descs := x.descs ++ [⟨s, len, p⟩] }

/-- Read the cells of the egress record at `RD`. -/
def readEgress (c : SqCfg) : Nat → SQ RCell → List Byte × Bool × SQ RCell
  | 0, q => ([], false, q)
  | n + 1, q => match sqReadAuto c q with
    | none => ([], false, q)
    | some (x, q) =>
      if x.eor then (x.oct, true, q) else let r := readEgress c n q; (x.oct ++ r.1, r.2.1, r.2.2)

/-- Octets that TLS adds to a record: header, content type and tag. -/
def tlsOver : Nat := 22

/-- A TLS record with a plaintext in a session's send buffer. The octets on the wire are free (log 43). -/
def Dev.tlsSend (d : Dev) (s : Nat) (o : List Byte) : Dev :=
  let (w, d) := d.draw (o.length + tlsOver - 5)
  let wire := [0x17, 3, 3] ++ beOctets 2 w.length ++ w
  let d := (d.modSes s (fun x => { x with sndbuf := x.sndbuf ++ wire })).bumpBy 0x5031 3 wire.length
  ({ d with ses := { d.ses with records := d.ses.records ++ [(s, o)] } }).pump s

/-- EGRESS_RECORD_SEND (R254): the next record of an egress ring becomes one TLS record in its session's send buffer, or is
discarded. The octets on the wire are free (log 43). -/
def Dev.egressSend (d : Dev) (r : Nat) : Dev :=
  let x := d.egr r
  match x.descs with
  | [] => d
  | c :: rest =>
    let rd := readEgress (d.ringCfg 0x4200 r x.q) 1026 x.q
    if !rd.2.1 then d
    else
      let o := rd.1
      let d := d.setEgr r { q := rd.2.2, descs := rest }
      let s := d.sess c.session
      let reason := if s.st ≠ .opened then 1 else if txCap < s.sndbuf.length + o.length + tlsOver then 2 else 0
      if reason = 0 then (d.tlsSend c.session o).modSes c.session (fun s => { s with tx := s.tx + 1 })
      else
        (d.modSes c.session (fun s => { s with disc := s.disc + 1 })).journal
          { jrec0 with lane := c.session % 16, typ := 0x0A, reason := reason, session := c.session, partner := c.partner,
                       ring := r, detail := o.length }

/-! ### Ring objects -/

/-- The ring pair of a ring object: ingress or egress, and the number. -/
def ringOf (idx : Nat) : Bool × Nat := (inPage idx 0x41, idx % 256)

/-- RING_ENABLE (R92, R249). -/
def Dev.ringEnable (d : Dev) (idx : Nat) : Dev :=
  let r := (ringOf idx).2
  if !(d.namers r).isEmpty then d
  else if (ringOf idx).1 then
    if (d.ing r).q.on then d else d.setIng r { q := sqEnable (d.ing r).q, descs := [], whole := [], wait := none }
  else if (d.egr r).q.on then d else d.setEgr r { q := sqEnable (d.egr r).q, descs := [] }

/-- RING_DISABLE (R92, R249): contents and descriptors discarded. -/
def Dev.ringDisable (d : Dev) (idx : Nat) : Dev :=
  let r := (ringOf idx).2
  if !(d.namers r).isEmpty then d
  else if (ringOf idx).1 then
    let d := d.setIng r { q := sqDisable (d.ing r).q, descs := [], whole := [], wait := none }
    { d with key := { d.key with signals := d.key.signals.filter (fun s => s.ring != r) } }
  else d.setEgr r { q := sqDisable (d.egr r).q, descs := [] }

/-- OVERRUN_CLEAR (R93): of a message ring, or of the ready queues whose bit is written 1. -/
def Dev.overrunClear (d : Dev) (idx sub v : Nat) : Dev :=
  if idx = 0x2318 then
    if sub = 0 || d.dies * 34 < sub then d
    else (List.range 8).foldl (fun d p =>
      if bit v (8 + p) then d.setRq (sub - 1) p { (d.pos (sub - 1)).queue p with overrun := false } else d) d
  else
    let r := (ringOf idx).2
    if (ringOf idx).1 then d.setIng r { d.ing r with q := { (d.ing r).q with overrun := false } }
    else d.setEgr r { d.egr r with q := { (d.egr r).q with overrun := false } }

/-- Ready queues take their watermark state anew (R98). -/
def Dev.rqWater (d : Dev) : Dev :=
  d.fab.pos.foldl (fun d e => (List.range 8).foldl (fun d p =>
    let q := (d.pos e.1).queue p
    if q.on then d.setRq e.1 p (sqWater (d.rqCfg e.1 p q) q) else d) d) d

/-- WATERMARK_WRITE (R95): ignored where it breaks the order; the state is taken anew. -/
def Dev.watermark (d : Dev) (idx sub v : Nat) : Dev :=
  let hi := if idx = 0x2301 then 1 else 3
  let lo := hi + 1
  let h := if sub = hi then v else d.obj idx hi
  let l := if sub = lo then v else d.obj idx lo
  if h ≤ l then d
  else
    let d := d.setObj idx sub v
    if idx = 0x2301 then d.rqWater
    else
      let r := (ringOf idx).2
      if (ringOf idx).1 then d.setIng r { d.ing r with q := sqWater (d.ringCfg 0x4100 r (d.ing r).q) (d.ing r).q }
      else d.setEgr r { d.egr r with q := sqWater (d.ringCfg 0x4200 r (d.egr r).q) (d.egr r).q }

/-- PFC_RENEW (R252): what a port asserts is sent again. -/
def Dev.pfcRenew (d : Dev) (port : Nat) : Dev :=
  { d with ses := { d.ses with fcOut := d.ses.fcOut ++ fcFrames port 0 (tget 0 d.ses.fcOn port) } }

/-! ### Meanings -/

/-- TLS_RECORD_RECEIVE (R249). -/
def execTlsRecordReceive (ses wire : Nat) (rec : TlsRec) (s : State) : Res := s.act (fun d => (d.tlsRecord ses wire rec).settle)
/-- SHARED_RING_MESSAGE_WRITE (R249). -/
def execSharedRingMessageWrite (ring : Nat) (s : State) : Res := s.act (fun d => (d.sharedWrite ring).settle)
/-- EGRESS_RECORD_SEND (R254). -/
def execEgressRecordSend (ring : Nat) (s : State) : Res := s.act (fun d => d.egressSend ring)
/-- PFC_RENEW (R252). -/
def execPfcRenew (port : Nat) (s : State) : Res := s.act (fun d => d.pfcRenew port)
/-- INGRESS_ENABLE_WRITE (R253): `XOFF_N` follows the object. -/
def execIngressEnableWrite (r : DReq) (s : State) : Res :=
  s.act (fun d => d.command r .ingressEnable (fun _ v d => d.setObj 0x4020 1 v))
/-- RING_ENABLE (R92). -/
def execRingEnable (r : DReq) (s : State) : Res := s.act (fun d => d.command r .ringEnable (fun _ _ d => d.ringEnable r.idx))
/-- RING_DISABLE (R92). -/
def execRingDisable (r : DReq) (s : State) : Res := s.act (fun d => d.command r .ringDisable (fun _ _ d => d.ringDisable r.idx))
/-- OVERRUN_CLEAR (R93). -/
def execOverrunClear (r : DReq) (s : State) : Res :=
  s.act (fun d => d.command r .overrunClear (fun _ v d => d.overrunClear r.idx r.sub v))
/-- WATERMARK_WRITE (R95). -/
def execWatermarkWrite (r : DReq) (s : State) : Res :=
  s.act (fun d => d.command r .watermark (fun _ v d => d.watermark r.idx r.sub v))

end Sys2Proof.Machine
end

