-- ==== Sys2Proof/Machine/Sessions.lean ====
section
/-! DEFINITION. Session states and connections (R245–R248): opening, handshakes, timeouts, closing, TCP segments. -/

namespace Sys2Proof.Machine

/-- Engines (R269) by configuration: 64 or 16 tumbler engines, 16 or 4 symmetric lanes. -/
def Dev.engines (d : Dev) : Nat := d.xs 64 16
def Dev.lanes (d : Dev) : Nat := d.xs 16 4

/-- Work for the slot 8 of an engine, chosen in rotation (R273). -/
def Dev.addJob (d : Dev) (j : Job) : Dev :=
  let e := d.cry.rot8 % d.engines
  { d with cry := { d.cry with slot8 := tmod [] d.cry.slot8 e (· ++ [j]), rot8 := (e + 1) % d.engines } }

/-- The job stands at the head of a slot 8. -/
def Dev.jobReady (d : Dev) (j : Job) : Bool := d.cry.slot8.any (fun (e : Nat × List Job) => e.2.head? == some j)

/-- Handshake rate, burst and queue (R248). -/
def Dev.hsRate (d : Dev) : Nat := d.xs 20000 5000
def Dev.hsBurst (d : Dev) : Nat := d.xs 512 128
def Dev.hsQueue (d : Dev) : Nat := d.xs 4096 1024

/-- The MSS of a session's port. -/
def Dev.sesMss (d : Dev) (x : Ses) : Nat := mssOf (d.obj (0x8200 + cfgPort x.cfg) 2) (cfgV6 x.cfg)

/-- Begin to connect: a SYN is sent. -/
def Dev.connect (d : Dev) (s : Nat) : Dev :=
  let x := d.sess s
  let (iss, d) := d.drawNat (2 ^ 32)
  let mss := d.sesMss x
  let t := { tcbInit with conn := true, raddr := x.addr, rport := cfgRemote x.cfg, synSent := true, iss := iss,
                          sndUna := iss, sndNxt := seqAdd iss 1, recover := iss, mss := mss, cwnd := initCwnd mss, ssthresh := 2 ^ 30,
                          timer := some (d.up + 1000000000), rto := 1000000000, lastRx := d.up }
  let x := { x with st := .connecting, since := d.up, tcb := t, rxbuf := [], plain := [], msg := none, sndbuf := [] }
  (d.setSes s x).emitOf x [x.synSeg mss false true true]

/-- A connection that finds the handshake queue full (R248), refused with RST. -/
def Dev.hsRefuse (d : Dev) (x : Ses) (g : Seg) : Dev := (d.bump 0x4000 6).emitOf x [g]

/-- The session enters Handshaking and waits for a handshake to begin. -/
def Dev.toHandshake (d : Dev) (s : Nat) : Dev :=
  let d := d.modSes s (fun x => { x with st := .handshaking, since := d.up, hsOn := false })
  { d with ses := { d.ses with hsQ := d.ses.hsQ ++ [s] } }

/-- A reset in answer to a segment (RFC 9293). -/
def rstFor (g : SegIn) : Seg :=
  { sport := g.dport, dport := g.sport, addr := g.addr, seq := if g.ackF then g.ack else 0,
    ack := seqAdd g.seq (g.data.length + b2n g.syn + b2n g.fin), fin := false, syn := false, rst := true,
    ackF := !g.ackF, wnd := 0, mss := none, scale := none, sackOk := false, sacks := [], data := [], net := netInit }

/-- The session of a segment's connection. -/
def Dev.connOf (d : Dev) (port : Nat) (g : SegIn) : Option (Nat × Ses) :=
  d.ses.ses.find? (fun (e : Nat × Ses) => e.2.tcb.conn && cfgPort e.2.cfg == port && cfgV6 e.2.cfg == g.v6
    && cfgLocal e.2.cfg == g.dport && e.2.tcb.rport == g.sport && e.2.tcb.raddr == g.addr)

/-- The lowest-numbered Listening session that a SYN matches (R245). -/
def Dev.listener (d : Dev) (port : Nat) (g : SegIn) : Option (Nat × Ses) :=
  d.ses.ses.find? (fun (e : Nat × Ses) => e.2.st == .listening && cfgPort e.2.cfg == port && cfgV6 e.2.cfg == g.v6
    && cfgLocal e.2.cfg == g.dport && (e.2.addr == 0 || e.2.addr == g.addr)
    && (cfgRemote e.2.cfg == 0 || cfgRemote e.2.cfg == g.sport))

/-- A SYN accepted by a Listening session. -/
def Dev.accept (d : Dev) (s : Nat) (g : SegIn) : Dev :=
  let x := d.sess s
  if d.hsQueue ≤ d.ses.hsQ.length then d.hsRefuse x (rstFor g)
  else
    let (iss, d) := d.drawNat (2 ^ 32)
    let mss := min (d.sesMss x) (g.mss.getD (mssDefault g.v6))
    let t := { tcbInit with conn := true, raddr := g.addr, rport := g.sport, synSent := true, iss := iss, sndUna := iss,
                            sndNxt := seqAdd iss 1, rcvNxt := seqAdd g.seq 1, sndWnd := g.wnd, maxWnd := g.wnd, recover := iss,
                            mss := mss,
                            scaleOk := g.scale.isSome, scale := min 14 (g.scale.getD 0), sackOk := g.sackOk,
                            cwnd := initCwnd mss, ssthresh := 2 ^ 30, timer := some (d.up + 1000000000),
                            rto := 1000000000, edge := seqAdd g.seq (1 + 65535), lastRx := d.up }
    let x := { x with tcb := t, rxbuf := [], plain := [], msg := none, sndbuf := [] }
    ((d.setSes s x).toHandshake s).emitOf x [x.synSeg (d.sesMss x) true g.scale.isSome g.sackOk]

/-- An RST or a refusal ends a connection: an Open session leaves for Closing; one that connects has no connection and leaves
for Backoff with its 3 s (R245). -/
def Dev.connLost (d : Dev) (s : Nat) : Dev :=
  match (d.sess s).st with
  | .opened => (d.closeSes s none).releaseConn s
  | .handshaking => ((d.bump 0x4000 3).closeSes s none).releaseConn s
  | .connecting => d.modSes s (fun x => { x with tcb := tcbInit })
  | .closing => d.releaseConn s
  | _ => d

/-- The SYN and ACK that completes an active open. -/
def Dev.established (d : Dev) (s : Nat) (g : SegIn) : Dev :=
  let x := d.sess s
  if d.hsQueue ≤ d.ses.hsQ.length then (d.hsRefuse x (rstFor g)).connLost s
  else
    let t := { x.tcb with synSent := false, sndUna := g.ack, rcvNxt := seqAdd g.seq 1, sndWnd := g.wnd, maxWnd := g.wnd,
                          mss := min x.tcb.mss (g.mss.getD (mssDefault g.v6)), scaleOk := g.scale.isSome,
                          scale := min 14 (g.scale.getD 0), sackOk := g.sackOk, timer := none,
                          edge := seqAdd g.seq (1 + 65535), lastRx := d.up }
    let x := { x with tcb := t }
    ((d.setSes s x).toHandshake s).emitOf x [x.ackSeg]

/-- The peer's acknowledgement of the SYN of a passive open. -/
def Ses.synAcked (x : Ses) (g : SegIn) : Ses :=
  if x.tcb.synSent && g.ackF && g.ack == x.tcb.sndNxt then
    { x with tcb := { x.tcb with synSent := false, sndUna := g.ack, timer := none } }
  else x

/-- A segment outside the window is answered with an acknowledgement; while the window is shut its own acknowledgement is
still taken (RFC 9293). -/
def Dev.outsideSeg (d : Dev) (s : Nat) (g : SegIn) : Dev :=
  let x := d.sess s
  let x := { x with tcb := { x.tcb with lastRx := d.up } }
  let q := if x.tcb.edge = x.tcb.rcvNxt then x.takeAck d.up g else (x, [])
  let d := ((d.setSes s q.1).emitOf x q.2).pump s
  d.emitOf x [(d.sess s).ackSeg]

/-- An acceptable segment of a synchronised connection. -/
def Dev.connSeg (d : Dev) (s : Nat) (g : SegIn) : Dev :=
  let x := d.sess s
  let t := x.tcb
  let x := { x.synAcked g with tcb := { (x.synAcked g).tcb with lastRx := d.up } }
  let q := x.takeAck d.up g
  let x : Ses := q.1
  let wasNxt := t.rcvNxt
  let x := if x.st = .closing then { x with tcb := { x.tcb with rcvNxt := if g.seq = wasNxt then seqAdd wasNxt g.data.length else wasNxt } }
    else x.takeData g
  let finSeq := seqAdd g.seq g.data.length
  let fin := g.fin && finSeq == x.tcb.rcvNxt && !x.tcb.finIn
  let x := if fin then { x with tcb := { x.tcb with rcvNxt := seqAdd x.tcb.rcvNxt 1, finIn := true } } else x
  let need := !g.data.isEmpty || g.fin
  let d := (d.setSes s x).emitOf x q.2
  let d := d.pump s
  let d := if need then d.emitOf x [(d.sess s).ackSeg] else d
  let d := if fin && x.st = .opened then d.closeSes s (some .closeNotify)
    else if fin && x.st = .handshaking then (d.bump 0x4000 3).closeSes s (some .handshakeFailure) else d
  let y := d.sess s
  if y.st = .closing && y.tcb.finIn && y.sndbuf.isEmpty && y.tcb.flight = 0 then d.releaseConn s else d

/-- TCP_SEGMENT_RECEIVE (R246). -/
def Dev.segment (d : Dev) (port : Nat) (g : SegIn) : Dev :=
  if !d.portOn port then d
  else match d.connOf port g with
  | some (s, x) =>
    if x.st = .connecting then
      if g.rst then (if g.ackF && g.ack == x.tcb.sndNxt then d.connLost s else d)
      else if g.syn && g.ackF && g.ack == x.tcb.sndNxt then d.established s g
      else d
    else if g.rst then (if seqLe x.tcb.rcvNxt g.seq && seqLt g.seq (seqAdd x.tcb.edge 1) then d.connLost s else d)
    else if g.syn then d.emitOf x [x.ackSeg]
    else if x.acceptable g then d.connSeg s g
    else d.outsideSeg s g
  | none =>
    if g.rst then d
    else if g.syn && !g.ackF then
      match d.listener port g with
      | some (s, _) => d.accept s g
      | none => d.emit port g.v6 [rstFor g]
    else d.emit port g.v6 [rstFor g]

/-- The retransmission timer of a session runs off (R246, RFC 6298): it backs off and what is unacknowledged is sent again; into a
shut window goes a probe (RFC 9293). -/
def Ses.onRto (x : Ses) (now mss : Nat) : Ses × List Seg :=
  let rto := rtoClamp (2 * x.tcb.rto)
  let y := { x with tcb := { x.tcb with rto := rto, timer := some (now + rto) } }
  if x.tcb.synSent then
    let y := { y with tcb := { y.tcb with timing := none } }
    (y, [y.synSeg mss (x.st == .handshaking) (x.st == .connecting || x.tcb.scaleOk) (x.st == .connecting || x.tcb.sackOk)])
  else if x.tcb.flight = 0 && x.sndbuf.isEmpty then ({ x with tcb := { x.tcb with timer := none } }, [])
  else if x.tcb.flight = 0 || (x.tcb.sndWnd = 0 && !x.sndbuf.isEmpty) then y.probe
  else
    let th := max (x.tcb.flight / 2) (2 * x.tcb.mss)
    let y := { y with tcb := { y.tcb with timing := none, ssthresh := th, cwnd := x.tcb.mss, inRec := false, dup := 0, sacked := [],
                                          recover := seqSub x.tcb.sndNxt 1 } }
    (y, y.resend)

/-- TCP_RETRANSMIT_TIMEOUT (R246). -/
def Dev.rtoExpired (d : Dev) (s : Nat) : Dev :=
  let x := d.sess s
  match x.tcb.timer with
  | none => d
  | some t =>
    if d.up < t then d
    else
      let r := x.onRto d.up (d.sesMss x)
      (d.setSes s r.1).emitOf x r.2

/-- KEEPALIVE_TIMER (R246): a probe once the interval has passed without a segment from the peer. -/
def Dev.keepalive (d : Dev) (s : Nat) : Dev :=
  let x := d.sess s
  let k := d.obj 0x4000 8
  if k = 0 || !x.tcb.conn || x.tcb.synSent || d.up < x.tcb.lastRx + k * 1000000000 then d
  else
    let d := d.modSes s (fun x => { x with tcb := { x.tcb with lastRx := d.up } })
    d.emitOf x [x.seg (seqSub x.tcb.sndNxt 1) false false false true []]

/-! ### State transitions (R245) -/

/-- The session that `SES_SELECT` shows. -/
def Dev.selSes (d : Dev) : Nat := d.obj 0x4001 1

/-- SES_ENABLE: `ACTIVE_OPEN` with `REMOTE_TCP` 0 is not legal (R244) and leaves the session Disabled (log 44). -/
def Dev.sesEnable (d : Dev) (s : Nat) : Dev :=
  let x := d.sess s
  let r := cfgRing x.cfg
  if x.st ≠ .disabled || !ptrValid (d.partner (cfgPartner x.cfg)) || !(d.ing r).q.on || !(d.egr r).q.on
      || (cfgActive x.cfg && cfgRemote x.cfg == 0) then d
  else if cfgActive x.cfg then (d.connect s).flow
  else (d.modSes s (fun x => { x with st := .listening, since := d.up, tcb := tcbInit })).flow

/-- SES_OPERATOR_CLOSE. -/
def Dev.sesClose (d : Dev) (s : Nat) : Dev :=
  if (d.sess s).st = .opened then d.closeSes s (some .closeNotify) else d

/-- SES_DISABLE: RST sent; an open record is aborted. -/
def Dev.sesDisable (d : Dev) (s : Nat) : Dev :=
  let x := d.sess s
  if x.st = .disabled then d
  else
    let d := if x.tcb.conn then d.emitOf x [x.seg x.tcb.sndNxt false false true true []] else d
    let d := d.abortRec s
    let r := cfgRing x.cfg
    let y := d.ing r
    let d := d.setIng r { y with whole := y.whole.filter (· != s) }
    let d := { d with ses := { d.ses with hsQ := d.ses.hsQ.filter (· != s) } }.dropJob (.handshake s)
    (d.modSes s (fun x => { x with st := .disabled, since := d.up, tcb := tcbInit, rxbuf := [], plain := [], msg := none,
                                   sndbuf := [], hsOn := false, tls := none })).flow

/-- R352: a physical port takes the mode that `ETH_SPLIT` asks for once every session on it is Disabled. -/
def Dev.splitSettle (d : Dev) : Dev :=
  (List.range (d.ports / 2)).foldl (fun d p =>
    let want := d.flag (0x8200 + 2 * p) 1
    let busy := d.ses.ses.any (fun (e : Nat × Ses) => cfgPort e.2.cfg / 2 == p && e.2.st != .disabled)
    if busy || tget false d.lnk.split p == want then d
    else { d with lnk := { d.lnk with split := tput false d.lnk.split p want } }) d

/-- CONNECT_TIMEOUT: 3 s. -/
def Dev.connectTimeout (d : Dev) (s : Nat) : Dev :=
  let x := d.sess s
  if x.st = .connecting && decide (x.since + 3000000000 ≤ d.up) then
    d.modSes s (fun x => { x with st := .backoff, since := d.up, tcb := tcbInit })
  else d

/-- HANDSHAKE_START (R248): the session at the head of the queue begins, at the rate allowed; its public-key work goes to a
slot 8 (R273). None begins while the session engines' DRBG is stopped (R290, log 124). -/
def Dev.hsStart (d : Dev) (s : Nat) : Dev :=
  if d.ses.hsQ.head? ≠ some s || !d.drbgOn drbgSession then d
  else
    let debt := d.ses.hsTok - (d.up - d.ses.hsAt) * d.hsRate
    if d.hsBurst * 1000000000 < debt + 1000000000 then d
    else
      let d := { d with ses := { d.ses with hsQ := d.ses.hsQ.drop 1, hsTok := debt + 1000000000, hsAt := d.up } }
      (d.modSes s (fun x => { x with hsOn := true })).addJob (.handshake s)

/-- A handshake fails (R245). -/
def Dev.hsFail (d : Dev) (s : Nat) (a : Alert) : Dev := (d.bump 0x4000 3).closeSes s (some a)

/-- The profile word of a session (R247): the one that its partner names. -/
def Dev.profile (d : Dev) (x : Ses) : Nat := d.obj (0x4010 + bits (d.partner (cfgPartner x.cfg)) 46 43) 1

/-- The key of `CERT_KEY` may sign for the device (R283). -/
def Dev.certOk (d : Dev) (w : Nat) : Bool :=
  match d.key? (bits w 63 48) with
  | some k => aUsage k.attr == uS0 && aFwd k.attr
  | none => false

/-- The first number at or after `k`, round `n`, whose bit is set: a choice among what both sides allow. -/
def chooseBit (m n k : Nat) : Nat := (((List.range n).map (fun i => (k + i) % n)).find? (fun i => bit m i)).getD 0

/-- The peer's chain verifies to depth 4 against the profile's anchor set. -/
def chainOk (w : Nat) (c : Option (Nat × Nat)) : Bool :=
  match c with | some (k, set) => decide (k ≤ 4) && set == bits w 47 40 | none => false

/-- How a handshake under profile word `w` comes out (R247), as server or client: what it settles, with `free` choosing among
what both allow, or the alert that ends it (log 45). -/
def Dev.hsOutcome (d : Dev) (w free : Nat) (client : Bool) (h : HsIn) : Except Alert TlsSet :=
  let suites := bits w 37 36 &&& h.suites
  let groups := bits w 35 34 &&& h.groups
  let sigs := bits w 33 30 &&& h.sigs
  let resumed := bit w 38 && (match h.ticket with | some t => decide (t ≤ bits w 29 14) | none => false)
  let auth := resumed || (sigs != 0
    && (if client then chainOk w h.chain else d.certOk w && (!bit w 39 || chainOk w h.chain)))
  if !h.tls13 then .error .protocolVersion
  else if suites = 0 || groups = 0 || !auth || !h.proved then .error .handshakeFailure
  else .ok ⟨chooseBit suites 2 free, chooseBit groups 2 (free / 2), chooseBit sigs 4 (free / 4), resumed⟩

/-- HANDSHAKE_COMPLETE: the handshake has come to its end with what the peer brought. -/
def Dev.hsDone (d : Dev) (s : Nat) (h : HsIn) : Dev :=
  let x := d.sess s
  if x.st ≠ .handshaking || !x.hsOn || !d.jobReady (.handshake s) then d
  else
    let (f, d) := d.drawNat 16
    match d.hsOutcome (d.profile x) f (cfgActive x.cfg) h with
    | .ok t =>
      ((d.bump 0x4000 2).dropJob (.handshake s)).modSes s
        (fun x => { x with st := .opened, since := d.up, hsOn := false, tls := some t })
    | .error a => d.hsFail s a

/-- HANDSHAKE_TIMEOUT: 10 s. -/
def Dev.hsTimeout (d : Dev) (s : Nat) : Dev :=
  let x := d.sess s
  if x.st = .handshaking && decide (x.since + 10000000000 ≤ d.up) then d.hsFail s .handshakeFailure else d

/-- CLOSING_TIMEOUT: 2 s. -/
def Dev.closingTimeout (d : Dev) (s : Nat) : Dev :=
  let x := d.sess s
  if x.st = .closing && decide (x.since + 2000000000 ≤ d.up) then d.releaseConn s else d

/-- BACKOFF_EXPIRY: `SES_RETRY_MS`. -/
def Dev.backoffExpiry (d : Dev) (s : Nat) : Dev :=
  let x := d.sess s
  if x.st = .backoff && decide (x.since + d.obj 0x4000 7 * 1000000 ≤ d.up) then d.connect s else d

/-! ### Meanings -/

/-- TCP_SEGMENT_RECEIVE (R246). -/
def execTcpSegmentReceive (port : Nat) (seg : SegIn) (s : State) : Res := s.act (fun d => (d.segment port seg).settle)
/-- TCP_RETRANSMIT_TIMEOUT (R246). -/
def execTcpRetransmitTimeout (ses : Nat) (s : State) : Res := s.act (fun d => d.rtoExpired ses)
/-- KEEPALIVE_TIMER (R246). -/
def execKeepaliveTimer (ses : Nat) (s : State) : Res := s.act (fun d => d.keepalive ses)
/-- SES_ENABLE (R245). -/
def execSesEnable (r : DReq) (s : State) : Res := s.act (fun d => d.command r .sesEnable (fun _ _ d => d.sesEnable d.selSes))
/-- SES_OPERATOR_CLOSE (R245). -/
def execSesOperatorClose (r : DReq) (s : State) : Res := s.act (fun d => d.command r .sesClose (fun _ _ d => (d.sesClose d.selSes).settle))
/-- SES_DISABLE (R245). -/
def execSesDisable (r : DReq) (s : State) : Res := s.act (fun d => d.command r .sesDisable (fun _ _ d => (d.sesDisable d.selSes).settle.splitSettle))
/-- CONNECT_TIMEOUT (R245). -/
def execConnectTimeout (ses : Nat) (s : State) : Res := s.act (fun d => d.connectTimeout ses)
/-- HANDSHAKE_START (R248). -/
def execHandshakeStart (ses : Nat) (s : State) : Res := s.act (fun d => d.hsStart ses)
/-- HANDSHAKE_COMPLETE (R245). -/
def execHandshakeComplete (ses : Nat) (peer : HsIn) (s : State) : Res := s.act (fun d => d.hsDone ses peer)
/-- HANDSHAKE_TIMEOUT (R245). -/
def execHandshakeTimeout (ses : Nat) (s : State) : Res := s.act (fun d => d.hsTimeout ses)
/-- CLOSING_TIMEOUT (R245). -/
def execClosingTimeout (ses : Nat) (s : State) : Res := s.act (fun d => d.closingTimeout ses)
/-- BACKOFF_EXPIRY (R245). -/
def execBackoffExpiry (ses : Nat) (s : State) : Res := s.act (fun d => d.backoffExpiry ses)

end Sys2Proof.Machine
end

