-- ==== Sys2Proof/Machine/Keyring.lean ====
section
/-! DEFINITION. The keyring (R280–R285), random number instances (R290), tamper mesh and zeroization (R291–R293). Formats of
key octets that the spec leaves open are in log 50. -/

namespace Sys2Proof.Machine

/-- An attribute word that R282 accepts: no reserved value, and TDEA only with P0. -/
def attrOk (a : Nat) : Bool :=
  let u := aUsage a
  let al := aAlg a
  let z := aSize a
  decide (1 ≤ u) && decide (u ≤ 10) && decide (aExport a < 3)
    && ((decide (al = 2) && decide (z ≤ 1) && decide (u = uP0)) || decide (al = 5)
        || (decide (al = 1 ∨ al = 3 ∨ al = 4) && decide (z ≤ 2)))

/-- A private RSA key of 3,072 or 4,096 bits takes two units (R280). -/
def twoUnits (a : Nat) : Bool := aAlg a == algRsa && decide (1 ≤ aSize a) && aUsage a == uS0

/-- Octets of a symmetric key. -/
def symLen (a : Nat) : Nat :=
  match aAlg a with
  | 1 => 16 + 8 * aSize a
  | 2 => 16 + 8 * aSize a
  | _ => 16 * (aSize a + 1)

/-- Octets of an RSA modulus. -/
def rsaLen (a : Nat) : Nat := 256 + 128 * aSize a

/-- The curve of an ECC key that is not Ed25519. -/
def curveOf (a : Nat) : Curve := if aSize a = 0 then p256 else p384

/-! ### Handles -/

/-- A key check value: 5 octets (0x5001:03). -/
def checkValue (k : KeyRec) : List Byte :=
  match aAlg k.attr with
  | 1 => (cmac k.sec (List.replicate 16 0)).take 5
  | 2 => (tdeaEnc k.sec (List.replicate 8 0)).take 3 ++ [0, 0]
  | _ => List.replicate 5 0

/-- The journal record of a keyring command (R295 type 0x06). -/
def Dev.keyRec (d : Dev) (reason h attr sess : Nat) (ro : Role) : JRec :=
  { jrec0 with time := d.time80, typ := 6, reason := reason, detail := h + attr / 65536 * 65536, actor := sess, role := roleNum ro + 1 }

/-- Status 8 and 2 of R284: whether a key with attributes `a` may go to handle `h`; 1 where it may. -/
def Dev.roomFor (d : Dev) (a h : Nat) : Nat :=
  if h = 0 || (twoUnits a && h = 65535) then 8
  else if d.keyTaken h || (twoUnits a && d.keyTaken (h + 1)) then 2
  else 1

/-- Install a key. -/
def Dev.installKey (d : Dev) (h : Nat) (k : KeyRec) : Dev :=
  let a := k.attr / 4 * 4 + (if twoUnits k.attr then 2 else 0) + 1
  { d with cry := { d.cry with keys := tset d.cry.keys h { k with attr := a, ser := d.cry.made }, made := d.cry.made + 1 } }

/-! ### Random numbers (R290) -/

/-- DRBG_RESEED: after 2^20 requests or 1 s. -/
def Dev.drbgReseed (d : Dev) (i : Nat) : Dev :=
  if 4 ≤ i || !d.drbgOn i then d
  else if tget 0 d.cry.reqs i < 2 ^ 20 && d.up < tget 0 d.cry.seededAt i + 1000000000 then d
  else { d with cry := { d.cry with reqs := tset d.cry.reqs i 0, seededAt := tset d.cry.seededAt i d.up } }

/-- ENTROPY_TEST_FAIL: the instances stop producing. -/
def Dev.entropyFail (d : Dev) : Dev :=
  ({ d with cry := { d.cry with drbg := 0 } }.bump 0x5020 2).report 0x32 0

/-- DRBG_RESTART: the instances are seeded afresh. That 4,096 samples have passed is the ward's to know (log 51). -/
def Dev.drbgRestart (d : Dev) (v : Nat) : Dev :=
  if v ≠ 1 then d
  else { d with cry := { d.cry with
    drbg := 15, reqs := [], seededAt := (List.range 4).map (fun i => (i, d.up)) } }

/-! ### Master key, deletion, generation -/

/-- MASTER_KEY_CMD (R281): drawn from the ward's DRBG, none while that is stopped (R290, log 124). -/
def Dev.masterKey (d : Dev) (v : Nat) : Dev :=
  if v ≠ 1 || d.cry.ring = 1 || d.cry.zero.isSome || !d.drbgOn drbgWard then d
  else
    let (k, d) := d.generate drbgWard 32
    { d with cry := { d.cry with ring := 1, keys := if d.cry.ring = 2 then [] else d.cry.keys, cached := [],
                                 master := k, sealed_ := k } }

/-- A slot has fetched a key, by the number of its installation. -/
def CSlot.holds (s : CSlot) (ser : Nat) : Bool :=
  let is (k : Option KeyRec) : Bool := match k with | some k => k.ser == ser | none => false
  is s.key1 || is s.key2

/-- Deletions whose key no slot holds any more report done (R285). -/
def Dev.endDeletes (d : Dev) : Dev :=
  let held (x : Nat × JRec) : Bool := d.cry.slots.any (fun (e : Nat × CSlot) => e.2.holds x.1)
  let done := d.cry.deleting.filter (fun x => !held x)
  let d := { d with cry := { d.cry with deleting := d.cry.deleting.filter held } }
  done.foldl (fun d x => d.journal x.2) d

/-- KEY_DELETE (R285). -/
def Dev.keyDelete (d : Dev) (v sess : Nat) (ro : Role) : Dev :=
  let h := d.obj 0x5001 1
  match d.key? h with
  | some k =>
    if v ≠ 1 then d
    else
      let r := d.keyRec 4 h k.attr sess ro
      { d with cry := { d.cry with keys := terase d.cry.keys h, cached := d.cry.cached.filter (· != h),
                                   deleting := d.cry.deleting ++ [(k.ser, r)] } }.endDeletes
  | none => d

/-- An RSA pair of `n` octets from two odd numbers of half the length that stand for primes (log 50), with public exponent
65,537: modulus and private exponent. -/
def rsaPair (n p q : Nat) : Nat × Nat :=
  let half (x : Nat) : Nat := x % 2 ^ (4 * n) ||| (3 * 2 ^ (4 * n - 2) + 1)
  let phi := (half p - 1) * (half q - 1)
  (half p * half q, (1 + phi * (65537 - invP 65537 (phi % 65537))) / 65537)

/-- A new key of attributes `a`: secret octets drawn, the public part computed. -/
def Dev.makeKey (d : Dev) (a : Nat) : KeyRec × Dev :=
  match aAlg a with
  | 3 =>
    if aSize a = 2 then
      let (s, d) := d.generate drbgWard 32
      (⟨a, s, edPub s, [], 0⟩, d)
    else
      let c := curveOf a
      let (s, d) := d.generate drbgWard (c.len + 8)
      let k := 1 + beNat s % (c.n - 1)
      (⟨a, beOctets c.len k, ecPub c k, [], 0⟩, d)
  | 4 =>
    let n := rsaLen a
    let (p, d) := d.generate drbgWard (n / 2)
    let (q, d) := d.generate drbgWard (n / 2)
    let r := rsaPair n (beNat p) (beNat q)
    (⟨a, beOctets n r.1 ++ beOctets n r.2, beOctets n r.1 ++ [1, 0, 1], [], 0⟩, d)
  | _ =>
    let (s, d) := d.generate drbgWard (symLen a)
    (⟨a, s, [], [], 0⟩, d)

/-- GEN_CMD (R284): status 1 done, 2, 5, 7 or 8; no effect while the ward's DRBG is stopped (log 124). A public verification
key is not generated. -/
def Dev.genKey (d : Dev) (v sess : Nat) (ro : Role) : Dev :=
  if v ≠ 1 || !d.drbgOn drbgWard then d
  else
    let a := d.obj 0x5005 1
    let h := d.obj 0x5005 2
    let pair := aAlg a == algEcc || aAlg a == algRsa
    let st := if !d.ringReady then 7 else if !attrOk a || aUsage a == uPub || (pair != (aUsage a == uS0)) then 5 else d.roomFor a h
    if st ≠ 1 then { d with cry := { d.cry with genSt := st } }
    else
      let (k, d) := d.makeKey a
      let d := d.installKey h k
      { d with cry := { d.cry with genSt := 1 } }.journal (d.keyRec 3 h a sess ro)

/-! ### Key blocks (R284): ANSI X9.143 version D -/

/-- Upper-case hex digits of octets. -/
def toHex (l : List Byte) : List Byte :=
  l.flatMap (fun b => [b.toNat / 16, b.toNat % 16].map (fun n => BitVec.ofNat 8 (if n < 10 then 0x30 + n else 0x37 + n)))

/-- Octets of hex digits. -/
def fromHex : Nat → List Byte → Option (List Byte)
  | 0, _ => some []
  | _, [] => some []
  | _, [_] => none
  | k + 1, a :: b :: r =>
    match hexOf 1 a, hexOf 1 b, fromHex k r with
    | some x, some y, some l => some (BitVec.ofNat 8 (16 * x + y) :: l)
    | _, _, _ => none

/-- The encryption and authentication keys of a block, derived from its AES-256 protection key. -/
def kbpkDerive (k : List Byte) (usage : Nat) : List Byte :=
  cmac k [1, 0, BitVec.ofNat 8 usage, 0, 0, 4, 1, 0] ++ cmac k [2, 0, BitVec.ofNat 8 usage, 0, 0, 4, 1, 0]

/-- AES-CBC over whole blocks. -/
def cbcEnc (k : List Byte) : Nat → List Byte → List Byte → List Byte
  | 0, _, _ => []
  | _, _, [] => []
  | n + 1, iv, l => let c := aesEnc k (xorOct iv (l.take 16)); c ++ cbcEnc k n c (l.drop 16)
def cbcDec (k : List Byte) : Nat → List Byte → List Byte → List Byte
  | 0, _, _ => []
  | _, _, [] => []
  | n + 1, iv, l => xorOct iv (aesDec k (l.take 16)) ++ cbcDec k n (l.take 16) (l.drop 16)

/-- ASCII octets of text. -/
def ascB (s : String) : List Byte := s.toList.map (fun c => BitVec.ofNat 8 c.toNat)

/-- Header codes of usages; `S0` with mode V is a public verification key. -/
def usageCodes : List (String × Nat) :=
  [("K1", 1), ("K0", 2), ("P0", 3), ("M6", 4), ("M7", 5), ("D0", 6), ("B0", 7), ("B1", 8), ("S0", 9)]
def algCodes : List (String × Nat) := [("A", 1), ("T", 2), ("E", 3), ("R", 4), ("H", 5)]
/-- Modes of use with `FWD` and `REV`. -/
def modeCodes : List (String × Bool × Bool) :=
  [("B", true, true), ("C", true, true), ("N", true, true), ("X", true, true), ("E", true, false), ("G", true, false),
   ("S", true, false), ("D", false, true), ("V", false, true)]
def exportCodes : List (String × Nat) := [("N", 0), ("E", 1), ("S", 2)]

def codeOf {α : Type} (t : List (String × α)) (o : List Byte) : Option α := (t.find? (fun e => ascB e.1 == o)).map (·.2)

/-- Optional blocks: `n` of them; the initial key ID and check value found, and the rest. None where one is not accepted. -/
def optBlocks : Nat → List Byte → Option (List Byte × Option (List Byte) × List Byte)
  | 0, l => some ([], none, l)
  | n + 1, l =>
    let id := l.take 2
    match (fromHex 1 ((l.drop 2).take 2)) with
    | some [len] =>
      let k := len.toNat
      if k < 4 || l.length < k then none
      else match optBlocks n (l.drop k) with
        | none => none
        | some (ik, kc, rest) =>
          let data := (l.take k).drop 4
          if id = ascB "IK" then (fromHex k data).map (fun x => (x, kc, rest))
          else if id = ascB "KC" then (fromHex k data).map (fun x => (ik, some x, rest))
          else if id = ascB "KS" || id = ascB "PB" || id = ascB "TS" then some (ik, kc, rest)
          else none
    | _ => none

/-- The size code of key octets; none where there is no such key. -/
def sizeOf (al u n : Nat) : Option Nat :=
  let pick (l : List Nat) : Option Nat := indexOf? (· == n) l
  match al with
  | 1 => pick [16, 24, 32]
  | 2 => pick [16, 24]
  | 3 => if u = uPub then pick [65, 97, 32] else pick [97, 145, 64]
  | 4 => if u = uPub then pick [260, 388, 516] else pick [516, 772, 1028]
  | _ => if n % 16 = 0 && 16 ≤ n && n ≤ 256 then some (n / 16 - 1) else none

/-- The octets of a key as a block carries them, and back (log 50). -/
def keyData (k : KeyRec) : List Byte :=
  let n := rsaLen k.attr
  match aAlg k.attr with
  | 3 => k.sec ++ k.pub
  | 4 =>
    let e := k.pub.drop n
    if aUsage k.attr = uPub then k.pub.take n ++ (List.replicate (4 - e.length) 0 ++ e)
    else k.sec ++ (List.replicate (4 - e.length) 0 ++ e)
  | _ => k.sec
def keyOfData (a : Nat) (ik o : List Byte) : KeyRec :=
  match aAlg a with
  | 3 =>
    if aUsage a = uPub then ⟨a, [], o, ik, 0⟩
    else let n := if aSize a = 0 then 32 else if aSize a = 1 then 48 else 32; ⟨a, o.take n, o.drop n, ik, 0⟩
  | 4 =>
    let n := rsaLen a
    if aUsage a = uPub then ⟨a, [], o, ik, 0⟩ else ⟨a, o.take (2 * n), o.take n ++ o.drop (2 * n), ik, 0⟩
  | _ => ⟨a, o, [], ik, 0⟩

/-- Open a key block under a K1 key: the key, or status 4 or 5. -/
def openBlock (kbpk b : List Byte) : Except Nat KeyRec :=
  let hdr := b.take 16
  if hdr.length < 16 || b.headD 0 != 0x44 then .error 5
  else match (digitsOf 0 ((hdr.drop 1).take 4)).map (numOf 10), codeOf usageCodes ((hdr.drop 5).take 2),
      codeOf algCodes ((hdr.drop 7).take 1), codeOf modeCodes ((hdr.drop 8).take 1),
      codeOf exportCodes ((hdr.drop 11).take 1), (digitsOf 0 ((hdr.drop 12).take 2)).map (numOf 10) with
    | some len, some u, some al, some (f, v), some ex, some nb =>
      match optBlocks nb ((b.take len).drop 16) with
      | none => .error 5
      | some (ik, kc, rest) =>
        if len ≠ b.length || rest.length < 64 then .error 4
        else match fromHex rest.length rest with
          | none => .error 4
          | some body =>
            let mac := body.drop (body.length - 16)
            let ct := body.take (body.length - 16)
            if ct.length % 16 ≠ 0 then .error 4
            else
              let pt := cbcDec (kbpkDerive kbpk 0) ct.length mac ct
              if cmac (kbpkDerive kbpk 1) (b.take (b.length - rest.length) ++ pt) ≠ mac then .error 4
              else
                let n := beNat (pt.take 2) / 8
                let o := (pt.drop 2).take n
                let u := if u = uS0 && (hdr.drop 8).take 1 = ascB "V" then uPub else u
                match sizeOf al u n with
                | none => .error 5
                | some z =>
                  let a := u * 2 ^ 56 + al * 2 ^ 52 + z * 2 ^ 48 + b2n f * 2 ^ 47 + b2n v * 2 ^ 46 + ex * 2 ^ 44
                    + beNat ((hdr.drop 9).take 2) * 2 ^ 20 + 1
                  let k := keyOfData a ik o
                  let kcOk := match kc with
                    | some x => (checkValue k).take (x.length - 1) == x.drop 1
                    | none => true
                  if !attrOk a then .error 5 else if !kcOk then .error 4 else .ok k
    | _, _, _, _, _, _ => .error 5

/-- IMPORT_CMD (R284). -/
def Dev.importKey (d : Dev) (v sess : Nat) (ro : Role) : Dev :=
  if v ≠ 1 then d
  else
    let set (d : Dev) (st : Nat) : Dev := { d with cry := { d.cry with impSt := st } }
    let h := d.obj 0x5002 2
    if !d.ringReady then set d 7
    else match d.key? (d.obj 0x5002 3) with
      | none => set d 3
      | some p =>
        if !(aUsage p.attr == uK1 && aAlg p.attr == algAes && aSize p.attr == 2 && aRev p.attr) then set d 3
        else match openBlock p.sec d.cry.impBlock with
          | .error st => set d st
          | .ok k =>
            let st := d.roomFor k.attr h
            if st ≠ 1 then set d st
            else (set (d.installKey h k) 1).journal (d.keyRec 1 h k.attr sess ro)

/-- The text of a code. -/
def nameOf {α : Type} [DecidableEq α] (t : List (String × α)) (v : α) : List Byte :=
  match t.find? (fun e => e.2 = v) with | some e => ascB e.1 | none => []

/-- Decimal text of `n` digits. -/
def decText (n v : Nat) : List Byte := (List.range n).reverse.map (fun i => BitVec.ofNat 8 (0x30 + v / 10 ^ i % 10))

/-- The optional blocks of an exported key: its initial key ID, and a `PB` block of printable octets that makes them whole
cipher blocks (X9.143); how many there are, and their octets. -/
def exportOpts (ik pad : List Byte) : Nat × List Byte :=
  if ik.isEmpty then (0, [])
  else
    let x := ascB "IK" ++ toHex [BitVec.ofNat 8 (4 + 2 * ik.length)] ++ toHex ik
    let r := x.length % 16
    if r = 0 then (1, x)
    else
      let n := if 16 - r < 4 then 32 - r else 16 - r
      (2, x ++ ascB "PB" ++ toHex [BitVec.ofNat 8 n] ++ (toHex pad).take (n - 4))

/-- Seal a key into a block under a K1 key with given padding. -/
def sealBlock (kbpk : List Byte) (k : KeyRec) (pad : List Byte) : List Byte :=
  let a := k.attr
  let (nopt, ik) := exportOpts k.ik (pad.drop 16)
  let data := keyData k
  let pt := beOctets 2 (8 * data.length) ++ data
  let pt := pt ++ pad.take ((16 - pt.length % 16) % 16)
  let mode := if aUsage a = uPub then ascB "V" else if aFwd a && aRev a then ascB "N" else
    if aUsage a = uM6 || aUsage a = uM7 then ascB (if aFwd a then "G" else "V")
    else if aUsage a = uS0 then ascB (if aFwd a then "S" else "V") else ascB (if aFwd a then "E" else "D")
  let len := 16 + ik.length + 2 * pt.length + 32
  let hdr := ascB "D" ++ decText 4 len ++ (if aUsage a = uPub then ascB "S0" else nameOf usageCodes (aUsage a))
    ++ nameOf algCodes (aAlg a) ++ mode ++ beOctets 2 (aKvn a) ++ nameOf exportCodes (aExport a)
    ++ decText 2 nopt ++ ascB "00" ++ ik
  let mac := cmac (kbpkDerive kbpk 1) (hdr ++ pt)
  hdr ++ toHex (cbcEnc (kbpkDerive kbpk 0) pt.length mac pt) ++ toHex mac

/-- EXPORT_CMD (R284). An empty handle answers status 8 (log 50). -/
def Dev.exportKey (d : Dev) (v sess : Nat) (ro : Role) : Dev :=
  if v ≠ 1 then d
  else
    let set (d : Dev) (st : Nat) : Dev := { d with cry := { d.cry with expSt := st, expBlock := [] } }
    let h := d.obj 0x5003 1
    if !d.ringReady then set d 7
    else match d.key? (d.obj 0x5003 2), d.key? h with
      | some p, some k =>
        if !(aUsage p.attr == uK1 && aAlg p.attr == algAes && aSize p.attr == 2 && aFwd p.attr) then set d 3
        else if aExport k.attr ≠ 1 then set d 6
        else if !d.drbgOn drbgWard then d
        else
          let (pad, d) := d.generate drbgWard 32
          let d := { d with cry := { d.cry with expBlock := sealBlock p.sec k pad, expSt := 1 } }
          d.journal (d.keyRec 2 h k.attr sess ro)
      | none, _ => set d 3
      | _, none => set d 8

/-- The attribute word of a key entered in components: K1, AES-256, not exportable. -/
def compAttr : Nat := uK1 * 2 ^ 56 + algAes * 2 ^ 52 + 2 * 2 ^ 48 + 3 * 2 ^ 46 + 1

/-- COMPONENT (R284): one component per keyholder session, named by `id`; from the second on their XOR is a K1 key at the
selected handle. The check shows 3 octets of the component's own value and 2 of the XOR's (log 52). -/
def Dev.component (d : Dev) (v id sess : Nat) (ro : Role) : Dev :=
  let o := leOctets 32 v
  if !d.ringReady || d.cry.comps.any (fun c => c.1 == id) then d
  else
    let old := d.cry.comps
    let cs := old ++ [(id, o)]
    let x (l : List (Nat × List Byte)) : List Byte := l.foldl (fun a c => xorOct a c.2) (List.replicate 32 0)
    let h := d.obj 0x5001 1
    let cv (o : List Byte) : List Byte := checkValue ⟨compAttr, o, [], [], 0⟩
    let chk := (cv o).take 3 ++ (cv (x cs)).take 2
    let d := { d with cry := { d.cry with comps := if 3 ≤ cs.length then [] else cs, compChk := chk } }
    if cs.length < 2 then d
    else
      let mine := match d.key? h with | some k => decide (2 ≤ old.length) && k.sec == x old | none => false
      if !mine && d.roomFor compAttr h ≠ 1 then d
      else (d.installKey h ⟨compAttr, x cs, [], [], 0⟩).journal (d.keyRec 1 h compAttr sess ro)

/-! ### Zeroization (R292, R293) -/

/-- Calls in slots end with detail 0x009 (R285). -/
def Dev.endCalls (d : Dev) : Dev :=
  let ss := d.cry.slots
  let d := { d with cry := { d.cry with slots := [] } }
  ss.foldl (fun d (e : Nat × CSlot) =>
    (d.bump 0x5032 9).hubExc (if e.2.call.att = 0 then agTumbler else agLane) e.2.call.req 6 9) d

/-- A zeroization trigger: steps 1 to 3: slots, cache, DRBG states and the master key on the die overwritten; the instances are
seeded afresh (log 124). -/
def Dev.zeroize (d : Dev) (trigger : Nat) : Dev :=
  if d.cry.zero.isSome then d
  else
    let d := (d.setObj 0x5010 4 trigger)
    let d := { d with cry := { d.cry with ring := 2, zero := some (d.up, 3), cached := [], comps := [], compChk := [],
                                          impBlock := [], master := [], reqs := [],
                                          seededAt := (List.range 4).map (fun i => (i, d.up)) } }
    d.endCalls.endDeletes

/-- ZEROIZE_SEAL_DONE: steps 4 and 5. -/
def Dev.zeroDone (d : Dev) : Dev :=
  if d.cry.zero.isNone then d
  else
    let trig := d.obj 0x5010 4
    let d := { d with cry := { d.cry with zero := none, sealed_ := [] } }.bump 0x5010 3
    let hit (e : Nat × Ses) : Bool :=
      let prof := bits (d.partner (cfgPartner e.2.cfg)) 46 43
      bits (d.obj (0x4010 + prof) 1) 63 48 != 0 && (e.2.st == .opened || e.2.st == .handshaking)
    let d := (d.ses.ses.filter hit).foldl (fun d (e : Nat × Ses) => (d.closeSes e.1 (some .closeNotify)).settle) d
    (d.report 0x33 0).journal { jrec0 with typ := 7, reason := trig }

/-- MESH_COMPARE: the pattern that returns on `MESH_IN`; then a new pattern is driven (R291, R292). -/
def Dev.meshCompare (d : Dev) (ret : Nat) : Dev :=
  if !d.wrd.up || !d.flag 0x5010 1 then { d with cry := { d.cry with meshFail := 0, mesh := 0 } }
  else
    let bad := ret % 16 != d.cry.mesh
    let n := if bad then d.cry.meshFail + 1 else 0
    let (p, d) := if d.drbgOn drbgWard then d.generate drbgWard 1 else ([BitVec.ofNat 8 d.cry.mesh], d)
    let d := { d with cry := { d.cry with mesh := (p.headD 0).toNat % 16, meshFail := if 2 ≤ n then 0 else n } }
    if 2 ≤ n then d.zeroize 1 else d

/-! ### Meanings -/

/-- MASTER_KEY_CMD (R281). -/
def execMasterKeyCmd (r : DReq) (s : State) : Res := s.act (fun d => d.command r .masterKey (fun _ v d => d.masterKey v))
/-- KEY_DELETE (R285). -/
def execKeyDelete (r : DReq) (s : State) : Res :=
  s.act (fun d => d.command r .keyDelete (fun ro v d => d.keyDelete v r.sess ro))
/-- IMPORT_CMD (R284). -/
def execImportCmd (r : DReq) (s : State) : Res :=
  s.act (fun d => d.command r .importCmd (fun ro v d => d.importKey v r.sess ro))
/-- EXPORT_CMD (R284). -/
def execExportCmd (r : DReq) (s : State) : Res :=
  s.act (fun d => d.command r .exportCmd (fun ro v d => d.exportKey v r.sess ro))
/-- COMPONENT (R284). -/
def execComponent (r : DReq) (s : State) : Res :=
  s.act (fun d => d.command r .component (fun ro v d =>
    let id := match tget? d.wrd.sessions r.sess with | some w => beNat w.key | none => 0
    d.component v id r.sess ro))
/-- GEN_CMD (R284). -/
def execGenCmd (r : DReq) (s : State) : Res := s.act (fun d => d.command r .genCmd (fun ro v d => d.genKey v r.sess ro))
/-- ZEROIZE (R292): a write of 1. -/
def execZeroize (r : DReq) (s : State) : Res :=
  s.act (fun d => d.command r .zeroize (fun _ v d => if v = 1 then d.zeroize 3 else d))
/-- MESH_COMPARE (R292). -/
def execMeshCompare (ret : Nat) (s : State) : Res := s.act (fun d => d.meshCompare ret)
/-- GLITCH_DETECT (R292). -/
def execGlitchDetect (s : State) : Res := s.act (fun d => d.zeroize 2)
/-- ZEROIZE_SEAL_DONE (R293). -/
def execZeroizeSealDone (s : State) : Res := s.act Dev.zeroDone
/-- ENTROPY_TEST_FAIL (R290). -/
def execEntropyTestFail (s : State) : Res := s.act Dev.entropyFail
/-- DRBG_RESEED (R290). -/
def execDrbgReseed (i : Nat) (s : State) : Res := s.act (fun d => d.drbgReseed i)
/-- DRBG_RESTART (R290). -/
def execDrbgRestart (r : DReq) (s : State) : Res := s.act (fun d => d.command r .drbgRestart (fun _ v d => d.drbgRestart v))

end Sys2Proof.Machine
end

