-- ==== Sys2Proof/Machine/Float.lean ====
section
/-! DEFINITION. binary32 arithmetic of chapter 09 (R207–R212): operands, rounding, subnormal handling, operations. -/

namespace Sys2Proof.Machine

/-- What an ALU operation gives: up to two results with their STATUS, or a subnormal trap with its detail (R209). -/
inductive AluOut where
  | ok (r0 : Nat) (r1 : Option Nat) (st : Nat) (isBit : Bool)
  | subnormal (detail : Nat)
  deriving DecidableEq, Repr

/-- A word result with its STATUS. -/
def word (r st : Nat) : AluOut := .ok r none st false

/-- A bit result. -/
def bitRes (b : Bool) (st : Nat) : AluOut := .ok (b2n b) none st true

/-- A binary32 operand: sign, and what it is. -/
inductive FVal where
  | nan (signalling : Bool)
  | inf (neg : Bool)
  | fin (neg : Bool) (m : Nat) (e : Int)     -- (−1)^neg × m × 2^e, m = 0 for zero
  deriving DecidableEq, Repr

/-- The sign bit of a binary32 operand. -/
def fNeg (b : Nat) : Bool := bit b 31

/-- A binary32 operand is subnormal. -/
def fIsSub (b : Nat) : Bool := bits b 30 23 == 0 && bits b 22 0 != 0

/-- A binary32 operand is a NaN. -/
def fIsNan (b : Nat) : Bool := bits b 30 23 == 255 && bits b 22 0 != 0

/-- A binary32 operand is a signalling NaN (R208). -/
def fIsSnan (b : Nat) : Bool := fIsNan b && !(bit b 22)

/-- The value of a binary32 operand (a subnormal is read as its exact value). -/
def fVal (b : Nat) : FVal :=
  let e := bits b 30 23
  let f := bits b 22 0
  if e == 255 then (if f == 0 then .inf (fNeg b) else .nan (!(bit b 22)))
  else if e == 0 then .fin (fNeg b) f (-149)
  else .fin (fNeg b) (2 ^ 23 + f) ((e : Int) - 150)

/-- Constants of R208. -/
def fQnan : Nat := 0x7FC00000
def fInf (neg : Bool) : Nat := if neg then 0xFF800000 else 0x7F800000
def fMax (neg : Bool) : Nat := if neg then 0xFF7FFFFF else 0x7F7FFFFF
def fZero (neg : Bool) : Nat := if neg then 0x80000000 else 0

/-- The modes a class F firing runs under: rounding mode, and SUBNORMAL = TRAP. -/
structure FMode where
  rnd  : Nat
  trap : Bool
  deriving DecidableEq, Repr

/-- Round ±(m × 2^e), m ≠ 0, plus a discarded tail below its last bit where `sticky` (then m has at least 26 bits),
to 24 significant bits with unbounded exponent: the significand and its exponent, and whether it is inexact. -/
def round24 (mode : Nat) (neg : Bool) (m : Nat) (e : Int) (sticky : Bool) : Nat × Int × Bool :=
  let len := Nat.log2 m + 1
  if len ≤ 24 then (m * 2 ^ (24 - len), e - ((24 - len : Nat) : Int), sticky)
  else
    let sh := len - 24
    let q := roundMag mode neg (2 * m + b2n sticky) (2 * 2 ^ sh)
    if q.1 == 2 ^ 24 then (2 ^ 23, e + (sh : Int) + 1, q.2) else (q.1, e + (sh : Int), q.2)

/-- The overflowed result of R208. -/
def fOverflow (mode : Nat) (neg : Bool) : Nat :=
  match mode with
  | 0 => fInf neg
  | 1 => fMax neg
  | 2 => if neg then fMax true else fInf false
  | _ => if neg then fInf true else fMax false

/-- A finite non-zero exact value as a binary32 result, with overflow and the subnormal rule of R209. `x0` is the `X`
of flushed operands. -/
def fRound (md : FMode) (neg : Bool) (m : Nat) (e : Int) (sticky : Bool) (x0 : Bool) : AluOut :=
  let r := round24 md.rnd neg m e sticky
  if r.2.1 > 104 then word (fOverflow md.rnd neg) (mkStatus true false false true false)
  else if r.2.1 < -149 then
    if md.trap then .subnormal 2 else word (fZero neg) (mkStatus false false false true false)
  else word (fZero neg + ((r.2.1 + 150).toNat) * 2 ^ 23 + (r.1 - 2 ^ 23)) (mkStatus false false false (r.2.2 || x0) false)

/-- A zero result of a sum: the common sign of two zeros, otherwise + except under rounding toward −∞. -/
def fZeroSum (md : FMode) (na nb : Bool) (bothZero : Bool) (x0 : Bool) : AluOut :=
  word (fZero (if bothZero && na == nb then na else md.rnd == 3)) (mkStatus false false false x0 false)

/-- The signed significand of a value scaled to exponent `e0 ≤ e`. -/
def scaled (neg : Bool) (m : Nat) (e e0 : Int) : Int :=
  let v : Int := ((m * 2 ^ (e - e0).toNat : Nat) : Int)
  if neg then -v else v

/-- The exact sum of two finite values, rounded once. -/
def fSum (md : FMode) (na : Bool) (ma : Nat) (ea : Int) (nb : Bool) (mb : Nat) (eb : Int) (x0 : Bool) : AluOut :=
  let e0 := min ea eb
  let s := scaled na ma ea e0 + scaled nb mb eb e0
  if s = 0 then fZeroSum md na nb (ma == 0 && mb == 0) x0
  else fRound md (decide (s < 0)) s.natAbs e0 false x0

/-- The NaN result: canonical, `I` where the operation is invalid. -/
def fNan (inv x0 : Bool) : AluOut := word fQnan (mkStatus false false false x0 inv)

/-- Flush the operands under R209 (FLUSH), or trap (TRAP, detail 1): the operands and whether any was flushed. -/
def fPrep (md : FMode) (ops : List Nat) : Option (List Nat × Bool) :=
  if ops.any fIsSub then
    if md.trap then none
    else some (ops.map (fun b => if fIsSub b then fZero (fNeg b) else b), true)
  else some (ops, false)

/-- a + b. -/
def fAdd (md : FMode) (a b : Nat) (x0 : Bool) : AluOut :=
  match fVal a, fVal b with
  | .nan s, .nan t => fNan (s || t) x0
  | .nan s, _ => fNan s x0
  | _, .nan t => fNan t x0
  | .inf n, .inf k => if n == k then word (fInf n) (mkStatus false false false x0 false) else fNan true x0
  | .inf n, _ => word (fInf n) (mkStatus false false false x0 false)
  | _, .inf n => word (fInf n) (mkStatus false false false x0 false)
  | .fin na ma ea, .fin nb mb eb => fSum md na ma ea nb mb eb x0

/-- The operand with its sign inverted (a NaN keeps its meaning). -/
def fFlip (b : Nat) : Nat := if bit b 31 then b - 2 ^ 31 else b + 2 ^ 31

/-- a × b. -/
def fMul (md : FMode) (a b : Nat) (x0 : Bool) : AluOut :=
  let n := xor (fNeg a) (fNeg b)
  match fVal a, fVal b with
  | .nan s, .nan t => fNan (s || t) x0
  | .nan s, _ => fNan s x0
  | _, .nan t => fNan t x0
  | .inf _, .inf _ => word (fInf n) (mkStatus false false false x0 false)
  | .inf _, .fin _ m _ => if m == 0 then fNan true x0 else word (fInf n) (mkStatus false false false x0 false)
  | .fin _ m _, .inf _ => if m == 0 then fNan true x0 else word (fInf n) (mkStatus false false false x0 false)
  | .fin _ ma ea, .fin _ mb eb =>
    if ma == 0 || mb == 0 then word (fZero n) (mkStatus false false false x0 false)
    else fRound md n (ma * mb) (ea + eb) false x0

/-- a / b. -/
def fDiv (md : FMode) (a b : Nat) (x0 : Bool) : AluOut :=
  let n := xor (fNeg a) (fNeg b)
  match fVal a, fVal b with
  | .nan s, .nan t => fNan (s || t) x0
  | .nan s, _ => fNan s x0
  | _, .nan t => fNan t x0
  | .inf _, .inf _ => fNan true x0
  | .inf _, _ => word (fInf n) (mkStatus false false false x0 false)
  | _, .inf _ => word (fZero n) (mkStatus false false false x0 false)
  | .fin _ ma ea, .fin _ mb eb =>
    if mb == 0 then
      if ma == 0 then fNan true x0 else word (fInf n) (mkStatus false false true x0 false)
    else if ma == 0 then word (fZero n) (mkStatus false false false x0 false)
    else fRound md n (ma * 2 ^ 60 / mb) (ea - 60 - eb) (ma * 2 ^ 60 % mb != 0) x0

/-- Integer square root, bit by bit. -/
def isqrt : Nat → Nat → Nat → Nat
  | 0, _, r => r
  | k + 1, n, r => isqrt k n (if (r + 2 ^ k) * (r + 2 ^ k) ≤ n then r + 2 ^ k else r)

/-- √a. -/
def fSqrt (md : FMode) (a : Nat) (x0 : Bool) : AluOut :=
  match fVal a with
  | .nan s => fNan s x0
  | .inf n => if n then fNan true x0 else word (fInf false) (mkStatus false false false x0 false)
  | .fin n m e =>
    if m == 0 then word (fZero n) (mkStatus false false false x0 false)
    else if n then fNan true x0
    else
      let odd := e % 2 == 1
      let m' := if odd then m * 2 ^ 41 else m * 2 ^ 40
      let e' := if odd then (e - 41) / 2 else (e - 40) / 2
      let r := isqrt 40 m' 0
      fRound md false r e' (r * r != m') x0

/-- a + b × c, rounded once. -/
def fFma (md : FMode) (a b c : Nat) (x0 : Bool) : AluOut :=
  let pn := xor (fNeg b) (fNeg c)
  let snan := fIsSnan a || fIsSnan b || fIsSnan c
  let zeroInf := match fVal b, fVal c with
    | .inf _, .fin _ m _ => m == 0
    | .fin _ m _, .inf _ => m == 0
    | _, _ => false
  if zeroInf then fNan true x0
  else if fIsNan a || fIsNan b || fIsNan c then fNan snan x0
  else
    let pInf := match fVal b, fVal c with
      | .inf _, _ => true
      | _, .inf _ => true
      | _, _ => false
    match fVal a with
    | .inf n => if pInf && n != pn then fNan true x0 else word (fInf n) (mkStatus false false false x0 false)
    | .fin na ma ea =>
      if pInf then word (fInf pn) (mkStatus false false false x0 false)
      else match fVal b, fVal c with
        | .fin _ mb eb, .fin _ mc ec => fSum md na ma ea pn (mb * mc) (eb + ec) x0
        | _, _ => fNan true x0
    | .nan s => fNan s x0

/-- Order of two operands that are not NaNs, as a signed key (−0 just below +0 for minimumNumber). -/
def fKey (b : Nat) : Int := if bit b 31 then -((b % 2 ^ 31 : Nat) : Int) - 1 else ((b % 2 ^ 31 : Nat) : Int)

/-- minimumNumber or maximumNumber. -/
def fMinMax (isMax : Bool) (a b : Nat) (x0 : Bool) : AluOut :=
  let i := fIsSnan a || fIsSnan b
  let st := mkStatus false false false x0 i
  if fIsNan a && fIsNan b then word fQnan st
  else if fIsNan a then word b st
  else if fIsNan b then word a st
  else if isMax then word (if fKey a < fKey b then b else a) st
  else word (if fKey b < fKey a then b else a) st

/-- Numeric order of two operands that are not NaNs: −0 equals +0. -/
def fOrd (b : Nat) : Int := if bit b 31 then -((b % 2 ^ 31 : Nat) : Int) else ((b % 2 ^ 31 : Nat) : Int)

/-- A compare: unordered gives 0; `quiet` says whether a quiet NaN leaves `I` clear. -/
def fCmp (quiet : Bool) (p : Int → Int → Bool) (a b : Nat) (x0 : Bool) : AluOut :=
  if fIsNan a || fIsNan b then
    word 0 (mkStatus false false false x0 (if quiet then fIsSnan a || fIsSnan b else true))
  else word (b2n (p (fOrd a) (fOrd b))) (mkStatus false false false x0 false)

/-- FRINT. -/
def fRint (md : FMode) (a : Nat) (x0 : Bool) : AluOut :=
  match fVal a with
  | .nan s => fNan s x0
  | .inf n => word (fInf n) (mkStatus false false false x0 false)
  | .fin n m e =>
    if m == 0 || e ≥ 0 then word a (mkStatus false false false x0 false)
    else
      let r := roundMag md.rnd n m (2 ^ (-e).toNat)
      if r.1 == 0 then word (fZero n) (mkStatus false false false (r.2 || x0) false)
      else fRound md n r.1 0 false (r.2 || x0)

/-- FCLASS. -/
def fClass (b : Nat) : Nat :=
  if fIsNan b then (if fIsSnan b then 0x100 else 0x200)
  else
    let n := fNeg b
    if bits b 30 23 == 255 then (if n then 0x001 else 0x080)
    else if fIsSub b then (if n then 0x004 else 0x020)
    else if b % 2 ^ 31 == 0 then (if n then 0x008 else 0x010)
    else (if n then 0x002 else 0x040)

/-- A binary32 operand times 2^sh rounded to an integer, for a finite operand. -/
def fToInt (md : FMode) (neg : Bool) (m : Nat) (e sh : Int) : Int × Bool :=
  let ee := e + sh
  let r := if ee ≥ 0 then (m * 2 ^ ee.toNat, false) else roundMag md.rnd neg m (2 ^ (-ee).toNat)
  (if neg then -(r.1 : Int) else (r.1 : Int), r.2)

/-- An exact integer times 2^e as binary32 (I2F, FX2F); 0 gives +0. -/
def fOfInt (md : FMode) (i : Int) (e : Int) : AluOut :=
  if i = 0 then word 0 0 else fRound md (decide (i < 0)) i.natAbs e false false

/-- F2FX (R206). -/
def f2fx (md : FMode) (a : Nat) (x0 : Bool) : AluOut :=
  let big (n : Bool) := word (if n then 0x8000000000 else 0x7FFFFFFFFF) (mkStatus false false false x0 true)
  match fVal a with
  | .nan _ => word 0 (mkStatus false false false x0 true)
  | .inf n => big n
  | .fin n m e =>
    let r := fToInt md n m e 31
    if inRange 40 r.1 then word (wrap 40 r.1) (mkStatus false false false (r.2 || x0) false) else big n

/-- F2I and F2IU (R206): `lo`, `hi` bound the result; `bad` is the invalid result without SAT. -/
def f2int (md : FMode) (a : Nat) (x0 sat : Bool) (lo hi : Int) (slo shi : Int) (bad : Nat) : AluOut :=
  let out (n : Bool) :=
    if sat then word (wrap 40 (if n then slo else shi)) (mkStatus true false false x0 false)
    else word bad (mkStatus false false false x0 true)
  match fVal a with
  | .nan _ => word 0 (mkStatus false false false x0 true)
  | .inf n => out n
  | .fin n m e =>
    let r := fToInt md n m e 0
    let l := if sat then slo else lo
    let h := if sat then shi else hi
    if l ≤ r.1 && r.1 ≤ h then word (wrap 40 r.1) (mkStatus false false false (r.2 || x0) false) else out n

end Sys2Proof.Machine
end

