-- ==== Sys2Proof/Machine/Alu.lean ====
section
/-! DEFINITION. The operations of classes A, L, S, C, V and F (chapters 08 and 09) as exact functions of operands
and modes. -/

namespace Sys2Proof.Machine

/-- An operand: its value (40 bits, or 80 where `wide`), and the KIND and STATUS of the token that carried it. -/
structure Opd where
  v    : Nat
  wide : Bool
  kind : Nat
  st   : Nat
  deriving DecidableEq, Repr

/-- What an operation runs under: width 40 or 80, SAT, FIX, rounding mode, SUBNORMAL = TRAP, and the image's two
translation tables (R189). -/
structure AluEnv where
  w    : Nat
  sat  : Bool
  fix  : Bool
  rnd  : Nat
  trap : Bool
  e2a  : List Byte
  a2e  : List Byte
  deriving DecidableEq, Repr

/-- An operand that the list does not hold: never read, since the decoder holds the list to the opcode's counts. -/
def noOpd : Opd := ⟨0, false, 0, 0⟩

/-- The signed value of an operand; an operand that is not wide is sign-extended (R164). -/
def Opd.s (o : Opd) : Int := if o.wide then sgn 80 o.v else sgn 40 o.v

/-- The operand sign-extended to width `w`, as an unsigned number. -/
def Opd.x (o : Opd) (w : Nat) : Nat := wrap w o.s

/-- The operand zero-extended (U forms and logical operations, R164). -/
def Opd.u (o : Opd) : Nat := if o.wide then o.v % 2 ^ 80 else o.v % 2 ^ 40

/-- Bit 0 of an operand: its condition (R177). -/
def Opd.b0 (o : Opd) : Bool := bit o.v 0

/-- A signed result with `V` (and SAT), and the given `C`. -/
def intRes (e : AluEnv) (i : Int) (c : Bool) : AluOut :=
  let q := narrow e.w e.sat i
  word q.1 (mkStatus q.2 c false false false)

/-- A FIX result (R202): `i` counts units of 2^−31, already rounded; `x` says it was inexact. -/
def fixRes (e : AluEnv) (r : Int × Bool) : AluOut :=
  let q := narrowFix e.sat r.1
  word q.1 (mkStatus q.2 false false r.2 false)

/-- Class A under FIX (R202). -/
def fixOp (o : Op) (e : AluEnv) (a b c : Opd) : AluOut :=
  match o with
  | .add => fixRes e (a.s + b.s, false)
  | .sub => fixRes e (a.s - b.s, false)
  | .neg => fixRes e (-a.s, false)
  | .abs => fixRes e (|a.s|, false)
  | .min => word (wrap 40 (min a.s b.s)) 0
  | .max => word (wrap 40 (max a.s b.s)) 0
  | .mul => fixRes e (roundInt e.rnd (a.s * b.s) (2 ^ 31))
  | .mac => fixRes e (roundInt e.rnd (a.s * 2 ^ 31 + b.s * c.s) (2 ^ 31))
  | .msub => fixRes e (roundInt e.rnd (a.s * 2 ^ 31 - b.s * c.s) (2 ^ 31))
  | .div =>
    if b.s = 0 then word 0 (mkStatus false false true false false)
    else fixRes e (roundInt e.rnd (if b.s < 0 then -(a.s * 2 ^ 31) else a.s * 2 ^ 31) b.s.natAbs)
  | _ => word 0 0

/-- Class A without FIX (R182). -/
def intOp (o : Op) (e : AluEnv) (a b c : Opd) : AluOut :=
  let m : Nat := 2 ^ e.w
  match o with
  | .add => intRes e (a.s + b.s) (decide (a.x e.w + b.x e.w ≥ m))
  | .adc => intRes e (a.s + b.s + b2n c.b0) (decide (a.x e.w + b.x e.w + b2n c.b0 ≥ m))
  | .sub => intRes e (a.s - b.s) (decide (a.x e.w < b.x e.w))
  | .sbb => intRes e (a.s - b.s - b2n c.b0) (decide (a.x e.w < b.x e.w + b2n c.b0))
  | .neg => intRes e (-a.s) (decide (a.s ≠ 0))
  | .abs => intRes e |a.s| false
  | .inc => intRes e (a.s + 1) (decide (a.s = -1))
  | .dec => intRes e (a.s - 1) (decide (a.s = 0))
  | .mul => intRes e (a.s * b.s) false
  | .mulh => word (wrap e.w (a.s * b.s / (2 : Int) ^ e.w)) 0
  | .mulhu => word (a.u * b.u / m) 0
  | .mac => intRes e (a.s + b.s * c.s) false
  | .msub => intRes e (a.s - b.s * c.s) false
  | .div =>
    if b.s = 0 then .ok 0 (some (a.x e.w)) (mkStatus false false true false false) false
    else
      let q := narrow e.w false (Int.tdiv a.s b.s)
      .ok q.1 (some (wrap e.w (Int.tmod a.s b.s))) (mkStatus q.2 false false false false) false
  | .divu =>
    if b.u = 0 then .ok 0 (some a.u) (mkStatus false false true false false) false
    else .ok (a.u / b.u) (some (a.u % b.u)) 0 false
  | .min => word (wrap e.w (min a.s b.s)) 0
  | .max => word (wrap e.w (max a.s b.s)) 0
  | .minu => word (min a.u b.u) 0
  | .maxu => word (max a.u b.u) 0
  | _ => word 0 0

/-- Class L (R184). -/
def logicOp (o : Op) (w : Nat) (a b : Opd) : AluOut :=
  let ones : Nat := 2 ^ w - 1
  match o with
  | .and => word (a.u &&& b.u) 0
  | .or => word (a.u ||| b.u) 0
  | .xor => word (a.u ^^^ b.u) 0
  | .not => word (ones ^^^ a.u) 0
  | .andn => word (a.u &&& (ones ^^^ b.u)) 0
  | .orn => word (a.u ||| (ones ^^^ b.u)) 0
  | .xnor => word (ones ^^^ (a.u ^^^ b.u)) 0
  | .band => bitRes (a.b0 && b.b0) 0
  | .bor => bitRes (a.b0 || b.b0) 0
  | .bxor => bitRes (xor a.b0 b.b0) 0
  | .bnot => bitRes (!a.b0) 0
  | _ => word 0 0

/-- Shifts and rotates (R185). -/
def shiftOp (o : Op) (e : AluEnv) (a b : Opd) : AluOut :=
  let w := e.w
  let n := b.v % 256
  let x := a.x w
  match o with
  | .shl =>
    let exact : Int := a.s * ((2 ^ n : Nat) : Int)
    let v := decide (n ≠ 0) && !(inRange w exact)
    let c := 1 ≤ n && n ≤ w && bit x (w - n)
    if v && e.sat then
      word (wrap w (if a.s > 0 then (2 : Int) ^ (w - 1) - 1 else -((2 : Int) ^ (w - 1) - 1))) (mkStatus true c false false false)
    else if e.sat && exact == -(2 : Int) ^ (w - 1) then
      word (wrap w (-((2 : Int) ^ (w - 1) - 1))) (mkStatus true c false false false)
    else word (wrap w exact) (mkStatus v c false false false)
  | .shr => word (x / 2 ^ n) (mkStatus false (1 ≤ n && n ≤ w && bit x (n - 1)) false false false)
  | .sar =>
    let c := if n = 0 then false else if n < w then bit x (n - 1) else bit x (w - 1)
    word (wrap w (a.s / (2 : Int) ^ n)) (mkStatus false c false false false)
  | .rol => let k := n % w; word ((x * 2 ^ k + x / 2 ^ (w - k)) % 2 ^ w) 0
  | .ror => let k := n % w; word ((x / 2 ^ k + x * 2 ^ (w - k)) % 2 ^ w) 0
  | _ => word 0 0

/-- Number of one bits among the low `n`. -/
def popcount : Nat → Nat → Nat
  | 0, _ => 0
  | n + 1, v => popcount n v + b2n (v.testBit n)

/-- Trailing zeros of a non-zero number, at most `n`. -/
def ctzNat : Nat → Nat → Nat
  | 0, _ => 0
  | n + 1, v => if v % 2 = 1 then 0 else 1 + ctzNat n (v / 2)

/-- PDEP over the low `n` positions (R186). -/
def pdepGo : Nat → Nat → Nat → Nat → Nat
  | 0, _, _, _ => 0
  | n + 1, i, a, m => if m.testBit i then (a % 2) * 2 ^ i + pdepGo n (i + 1) (a / 2) m else pdepGo n (i + 1) a m

/-- PEXT over the low `n` positions (R186). -/
def pextGo : Nat → Nat → Nat → Nat → Nat → Nat
  | 0, _, _, _, _ => 0
  | n + 1, i, k, a, m =>
    if m.testBit i then b2n (a.testBit i) * 2 ^ k + pextGo n (i + 1) (k + 1) a m else pextGo n (i + 1) k a m

/-- The 40-bit mixing hash of R187. -/
def hash40 (a b : Nat) : Nat :=
  let x := a ^^^ b
  let x := x ^^^ (x / 2 ^ 19)
  let x := x * 0xB529E374C1 % 2 ^ 40
  let x := x ^^^ (x / 2 ^ 21)
  let x := x * 0x9F6B2D1E57 % 2 ^ 40
  x ^^^ (x / 2 ^ 17)

/-- An octet of BPERM (R186). -/
def bpermOctet (a nib : Nat) : Nat := if nib ≤ 4 then bits a (8 * nib + 7) (8 * nib) else 0

/-- The other operations of class S (R186–R188). -/
def fieldOp (o : Op) (a b c : Opd) (cPresent : Bool) : AluOut :=
  let x := a.v % 2 ^ 40
  let lo := bits b.v 5 0
  let wd := bits b.v 13 8
  let ok := 1 ≤ wd && lo + wd ≤ 40
  match o with
  | .clz => word (if x = 0 then 40 else 39 - Nat.log2 x) 0
  | .ctz => word (if x = 0 then 40 else ctzNat 40 x) 0
  | .popc => word (popcount 40 x) 0
  | .bext => if ok then word (sext40 wd (x / 2 ^ lo)) 0 else word 0 stI
  | .bextu => if ok then word (x / 2 ^ lo % 2 ^ wd) 0 else word 0 stI
  | .bins =>
    let lo := bits c.v 5 0
    let wd := bits c.v 13 8
    if 1 ≤ wd && lo + wd ≤ 40 then
      word (x / 2 ^ (lo + wd) * 2 ^ (lo + wd) + (b.v % 2 ^ wd) * 2 ^ lo + x % 2 ^ lo) 0
    else word 0 stI
  | .sext => if 1 ≤ lo && lo ≤ 40 then word (sext40 lo x) 0 else word 0 stI
  | .zext => if 1 ≤ lo && lo ≤ 40 then word (x % 2 ^ lo) 0 else word 0 stI
  | .bperm =>
    let nib (i : Nat) := bits b.v (4 * i + 3) (4 * i)
    word (lsum ((List.range 5).map (fun i => bpermOctet x (nib i) * 2 ^ (8 * i))))
      (mkStatus false false false false ((List.range 5).any (fun i => 5 ≤ nib i && nib i ≤ 14)))
  | .pdep => word (pdepGo 40 0 x (b.v % 2 ^ 40)) 0
  | .pext => word (pextGo 40 0 0 x (b.v % 2 ^ 40)) 0
  | .hash => word (hash40 x (b.v % 2 ^ 40)) 0
  | .crc32c =>
    let n := if cPresent then c.v % 8 else 5
    if n = 0 || n ≥ 6 then word x stI else word (crcOctets n (x % 2 ^ 32) (b.v % 2 ^ 40)) 0
  | _ => word 0 0

/-- Decimal digits of a number as `n` values, least significant first. -/
def digits10 : Nat → Nat → List Nat
  | 0, _ => []
  | n + 1, v => v % 10 :: digits10 n (v / 10)

/-- Octet `i` of a word. -/
def octet (a i : Nat) : Nat := a / 2 ^ (8 * i) % 256

/-- Reverse the low `n` bits. -/
def bitRev : Nat → Nat → Nat
  | 0, _ => 0
  | n + 1, v => (v % 2) * 2 ^ n + bitRev n (v / 2)

/-- The conversions at 0xC0–0xC7 (R189). -/
def convOp (o : Op) (e : AluEnv) (a b : Opd) : AluOut :=
  let x := a.v % 2 ^ 40
  let n := b.v % 8
  let nOk := 1 ≤ n && n ≤ 5
  match o with
  | .bcd2i =>
    let ds := (List.range 10).map (fun i => bits x (4 * i + 3) (4 * i))
    if ds.all (· ≤ 9) then word (ds.foldr (fun d r => d + 10 * r) 0) 0 else word 0 stI
  | .i2bcd =>
    if x ≤ 9999999999 then word ((digits10 10 x).foldr (fun d r => d + 16 * r) 0) 0 else word 0 stI
  | .dec2i =>
    let os := (List.range n).map (octet x)
    if nOk && os.all (fun d => 0x30 ≤ d && d ≤ 0x39) then word (os.foldl (fun r d => 10 * r + (d - 0x30)) 0) 0
    else word 0 stI
  | .i2dec =>
    if nOk && a.s ≥ 0 && decide (x < 10 ^ n) then
      word ((digits10 n x).foldl (fun r d => 256 * r + (0x30 + d)) 0) 0
    else word 0 stI
  | .eb2as => word (lsum ((List.range 5).map (fun i => ((e.e2a[octet x i]?).getD 0).toNat * 2 ^ (8 * i)))) 0
  | .as2eb => word (lsum ((List.range 5).map (fun i => ((e.a2e[octet x i]?).getD 0).toNat * 2 ^ (8 * i)))) 0
  | .bswap => word (lsum ((List.range 5).map (fun i => octet x (4 - i) * 2 ^ (8 * i)))) 0
  | .brev => word (bitRev 40 x) 0
  | _ => word 0 0

/-- A compare result as a word, or as a bit for the opcodes at 0x50–0x57. -/
def cmpRes (asBit : Bool) (p : Bool) (st : Nat) : AluOut := .ok (b2n p) none st asBit

/-- Class C (R190, R191). -/
def compareOp (o : Op) (w : Nat) (a b : Opd) : AluOut :=
  let cbitVal (asBit : Bool) :=
    let i := b.v % 128
    if i < w then cmpRes asBit (bit (a.x w) i) 0
    else if i < w + 5 then cmpRes asBit (bit a.st (i - w)) 0
    else cmpRes asBit false stI
  match o with
  | .ceq => cmpRes false (a.s == b.s) 0
  | .cne => cmpRes false (a.s != b.s) 0
  | .clt => cmpRes false (decide (a.s < b.s)) 0
  | .cle => cmpRes false (decide (a.s ≤ b.s)) 0
  | .cltu => cmpRes false (decide (a.u < b.u)) 0
  | .cleu => cmpRes false (decide (a.u ≤ b.u)) 0
  | .ctst => cmpRes false ((a.x w &&& b.x w) != 0) 0
  | .cbit => cbitVal false
  | .ceqb => cmpRes true (a.s == b.s) 0
  | .cneb => cmpRes true (a.s != b.s) 0
  | .cltb => cmpRes true (decide (a.s < b.s)) 0
  | .cleb => cmpRes true (decide (a.s ≤ b.s)) 0
  | .cltub => cmpRes true (decide (a.u < b.u)) 0
  | .cleub => cmpRes true (decide (a.u ≤ b.u)) 0
  | .ctstb => cmpRes true ((a.x w &&& b.x w) != 0) 0
  | .cbitb => cbitVal true
  | _ => word 0 0

/-- The conversions at 0xA0–0xA6 (R206). -/
def numConvOp (o : Op) (e : AluEnv) (a : Opd) : AluOut :=
  let md : FMode := ⟨e.rnd, e.trap⟩
  let f := a.v % 2 ^ 32
  let prep (k : Nat → Bool → AluOut) : AluOut :=
    match fPrep md [f] with
    | none => .subnormal 1
    | some (l, x0) => k (l.headD 0) x0
  match o with
  | .i2fx =>
    let exact := sgn 40 a.v * 2 ^ 31
    let q := if e.sat then clamp (-(2 : Int) ^ 39) ((2 : Int) ^ 39 - 1) exact else (exact, !(inRange 40 exact))
    word (wrap 40 q.1) (mkStatus q.2 false false false false)
  | .fx2i => let r := roundInt e.rnd (sgn 40 a.v) (2 ^ 31); word (wrap 40 r.1) (mkStatus false false false r.2 false)
  | .fx2f => fOfInt md (sgn 40 a.v) (-31)
  | .i2f => fOfInt md (sgn 40 a.v) 0
  | .f2fx => prep (fun b x0 => f2fx md b x0)
  | .f2i => prep (fun b x0 => f2int md b x0 e.sat (-(2 : Int) ^ 39) ((2 : Int) ^ 39 - 1) (-((2 : Int) ^ 39 - 1))
      ((2 : Int) ^ 39 - 1) 0x8000000000)
  | .f2iu => prep (fun b x0 => f2int md b x0 e.sat 0 ((2 : Int) ^ 40 - 1) 0 ((2 : Int) ^ 40 - 1) 0)
  | _ => word 0 0

/-- Class F (R210). -/
def floatOp (o : Op) (e : AluEnv) (a b c : Opd) : AluOut :=
  let md : FMode := ⟨e.rnd, e.trap⟩
  let fa := a.v % 2 ^ 32
  let fb := b.v % 2 ^ 32
  let fc := c.v % 2 ^ 32
  let p1 (k : Nat → Bool → AluOut) : AluOut :=
    match fPrep md [fa] with
    | none => .subnormal 1
    | some (l, x0) => k (l.headD 0) x0
  let p2 (k : Nat → Nat → Bool → AluOut) : AluOut :=
    match fPrep md [fa, fb] with
    | some ([x, y], x0) => k x y x0
    | _ => .subnormal 1
  let p3 (k : Nat → Nat → Nat → Bool → AluOut) : AluOut :=
    match fPrep md [fa, fb, fc] with
    | some ([x, y, z], x0) => k x y z x0
    | _ => .subnormal 1
  match o with
  | .fadd => p2 (fAdd md)
  | .fsub => p2 (fun x y x0 => fAdd md x (fFlip y) x0)
  | .fmul => p2 (fMul md)
  | .fdiv => p2 (fDiv md)
  | .fsqrt => p1 (fSqrt md)
  | .fma => p3 (fFma md)
  | .fmin => p2 (fMinMax false)
  | .fmax => p2 (fMinMax true)
  | .fneg => word (fFlip fa) 0
  | .fabs => word (fa % 2 ^ 31) 0
  | .fceq => p2 (fCmp true (fun x y => x == y))
  | .fclt => p2 (fCmp false (fun x y => decide (x < y)))
  | .fcle => p2 (fCmp false (fun x y => decide (x ≤ y)))
  | .fcun => p2 (fun x y x0 => word (b2n (fIsNan x || fIsNan y)) (mkStatus false false false x0 (fIsSnan x || fIsSnan y)))
  | .frint => p1 (fRint md)
  | .fclass => word (fClass fa) 0
  | _ => word 0 0

/-- Any operation of classes A, L, S, C, V and F on its operand list. -/
def aluExec (o : Op) (cls : Cls) (e : AluEnv) (ops : List Opd) : AluOut :=
  let a := ops.getD 0 noOpd
  let b := ops.getD 1 noOpd
  let c := ops.getD 2 noOpd
  match cls with
  | .A => if e.fix then fixOp o e a b c else intOp o e a b c
  | .L => logicOp o e.w a b
  | .S => match o with
    | .shl | .shr | .sar | .rol | .ror => shiftOp o e a b
    | _ => fieldOp o a b c (ops.length ≥ 3)
  | .C => compareOp o e.w a b
  | .V => match o with
    | .i2fx | .fx2i | .fx2f | .f2fx | .i2f | .f2i | .f2iu => numConvOp o e a
    | _ => convOp o e a b
  | .F => floatOp o e a b c
  | _ => word 0 0

/-- The number of bits in |x| (R213). -/
def nBits (i : Int) : Nat := if i = 0 then 0 else Nat.log2 i.natAbs + 1

/-- ⌈max(1, n) / 10⌉. -/
def ceil10 (n : Nat) : Nat := (max 1 n + 9) / 10

/-- Execute time in pace units of one operation on its operands (R214, R215); `isSeal` takes the worst time of the
operation for the encoded width and form. -/
def execUnits (o : Op) (cls : Cls) (wide fix isSeal : Bool) (trapSub : Bool) (ops : List Opd) : Nat :=
  let a := ops.getD 0 noOpd
  let b := ops.getD 1 noOpd
  let c := ops.getD 2 noOpd
  let plain := if wide then 2 else 1
  match cls with
  | .D | .C | .L | .Q => plain
  | .A => match o with
    | .mul | .mulh | .mulhu | .mac | .msub =>
      let y := if o == .mac || o == .msub then c else b
      let n := if isSeal then (if wide then 80 else 40) else if o == .mulhu then nBits (y.u : Int) else nBits y.s
      if wide then 2 + 2 * ceil10 n else if fix then 2 + ceil10 n else 1 + ceil10 n
    | .div | .divu =>
      if isSeal then (if fix then 14 else if wide then 22 else 12)
      else
        let na := if o == .divu then nBits (a.u : Int) else nBits a.s
        let nb := if o == .divu then nBits (b.u : Int) else nBits b.s
        if nb = 0 then 2
        else if fix then 3 + (min 41 (max 1 (na + 32 - nb)) + 3) / 4
        else 2 + (max 1 (na + 1 - nb) + 3) / 4
    | _ => plain
  | .S => match o with
    | .pdep | .pext => 2
    | .hash => 4
    | .crc32c =>
      let n := if ops.length ≥ 3 then c.v % 8 else 5
      if isSeal then 6 else if n = 0 || n ≥ 6 then 2 else 1 + n
    | _ => plain
  | .M | .Y | .K | .B | .T => 1
  | .V => match o with
    | .bswap | .brev => 1
    | .i2bcd | .i2dec => 4
    | .f2fx | .f2i | .f2iu => if !isSeal && trapSub && fIsSub (a.v % 2 ^ 32) then 1 else 2
    | _ => 2
  | .F =>
    let fz (x : Nat) : Bool := fIsSub x || x % 2 ^ 31 == 0 || bits x 30 23 == 255
    let u := match o with
      | .fadd | .fsub | .frint => 2
      | .fmul => 3
      | .fma => 4
      | .fdiv => if !isSeal && (fz (a.v % 2 ^ 32) || fz (b.v % 2 ^ 32)) then 2 else 7
      | .fsqrt => if !isSeal && (fz (a.v % 2 ^ 32) || bit a.v 31) then 2 else 7
      | _ => 1
    if !isSeal && trapSub && !([Op.fneg, .fabs, .fclass].contains o) && (ops.any (fun x => fIsSub (x.v % 2 ^ 32))) then 1
    else u
  | .G => 1

end Sys2Proof.Machine
end

