-- ==== Sys2Proof/Machine/Match.lean ====
section
/-! DEFINITION. The matching store (chapter 03): entry format, set index, arrivals, write-back buffer, sweeper, overflow
chains and probes, reclamation, and what a token meets when it reaches a cluster. -/

namespace Sys2Proof.Machine

/-! ### Reading entries (R74) -/

/-- How a read of an entry ends: the entry as it is delivered and its words as they stand after correction. -/
inductive EntRead where
  | ok (e : MEntry) (ws : List W128)
  | lost                          -- word 1, 2 or 3 uncorrectable
  | broken                        -- word 0 uncorrectable
  deriving DecidableEq, Repr

/-- Read one word of an entry at checker 0x05: the word delivered and the word stored, none where it is uncorrectable. -/
def Dev.readWord (d : Dev) (loc : Nat) (w : W128) : Option (W128 × W128) × Dev :=
  let (m, b, d) := d.takeInj 0x05 loc
  let w := if m = 1 then flipBit w (b % 16) else w
  let after (v : W128) : W128 := if m = 3 then flipBit v (b % 128) else v
  match (if m = 2 then .uncorrectable else checkWord w) with
  | .clean => (some (after w, w), d)
  | .corrected v => (some (after v, v), d.bump 0x2002 0x0A)
  | .uncorrectable => (none, d)

/-- Read the words of an entry from number `i` on: those delivered, those stored, the first uncorrectable one, the block. -/
def Dev.readWords (d : Dev) (loc : Nat) : Nat → List W128 → List W128 × List W128 × Option Nat × Dev
  | _, [] => ([], [], none, d)
  | i, w :: r =>
    let (x, d) := d.readWord loc w
    let (ws, st, bad, d) := Dev.readWords d loc (i + 1) r
    match x with
    | some (v, s) => (v :: ws, s :: st, bad, d)
    | none => (w :: ws, w :: st, some i, d)

/-- Read an entry (R74): corrected words are counted, an uncorrectable word is counted and reported. -/
def Dev.readEntry (d : Dev) (loc : Nat) (ws : List W128) : EntRead × Dev :=
  let (vs, st, bad, d) := d.readWords loc 0 ws
  match bad with
  | none => (.ok (MEntry.ofWords vs) st, d)
  | some 0 => (.broken, (d.bump 0x2002 0x0B).report 0x12 loc)
  | some _ => (.lost, (d.bump 0x2002 0x0B).report 0x12 loc)

/-- Read an entry of a cluster's match cache or write-back buffer; none where it is lost (log 116). -/
def Dev.readOnDie (d : Dev) (pos : Nat) (e : MEntry) : Option MEntry × Dev :=
  match d.readEntry (posLoc pos) (e.words 0) with
  | (.ok e _, d) => (some e, d)
  | (_, d) => (none, d)

/-! ### Keys and tokens -/

/-- The match key of a token: `TAG`[63:4] (R53). -/
def tKey (t : W128) : Nat := tTag t / 16

/-- The set of a key (R58). -/
def setOf (k : Nat) : Nat :=
  (List.range 7).foldl (fun a i => a ^^^ (k / 2 ^ (8 * i) % 256)) (k / 2 ^ 56 % 16)

/-- An arrival's record (R55): the half bit is 1 for a pair-high token on a WIDE port. -/
def arrOf (t : W128) (wide : Option Nat) : Arr :=
  ⟨tPort t, tKind t == kHigh && portCount wide (tPort t) == 2, tValue t, tKind t, tSt t⟩

/-- The token that an arrival was, rebuilt from the key (R57). -/
def Arr.tok (k : Nat) (a : Arr) : W128 := mkTok (k * 16 + a.port * 4) a.value a.kind a.st

/-- The node a token addresses, if its encoding is legal. -/
def Dev.nodeOf (d : Dev) (node : Nat) : Option Node := (decodeNode (d.codeAt node)).toOption

/-- The shape that the matching store reads of a node (R54). -/
def Dev.shapeOf (d : Dev) (node : Nat) : Nat × Bool × Option Nat := nodeShape (d.codeAt node)

/-- The code line of a node address (R88). -/
def lineKey (node : Nat) : Nat := node / 65536 * 1024 + node % 65536 / 64

/-- R28 and R29: the token is malformed for the node it addresses; so is a pair half on the control port (log 120). -/
def tokMalformed (t : W128) (shape : Nat × Bool × Option Nat) : Bool :=
  let p := tPort t
  let pairKind := tKind t == kLow || tKind t == kHigh
  tLow2 t != 0
    || (if p = 3 then !shape.2.1 || pairKind
        else decide (shape.1 ≤ p) || (pairKind != (portCount shape.2.2 p == 2)))

/-- A firing of a node: its priority is the highest of the given one and, for a node that uses frame state with its line
present, the context's `EFF_PRI` (R83). -/
def Dev.firingPri (d : Dev) (pos node ctx pri : Nat) : Nat :=
  let uses := match d.nodeOf node with | some n => n.usesFrame | none => false
  match (d.pos pos).line ctx with
  | some l => if uses then max pri l.fr.effPri else pri
  | none => pri

/-- Deliver a firing to its ready queue. -/
def Dev.fireUp (d : Dev) (pos : Nat) (toks : List W128) (pri : Nat) : Dev :=
  match toks with
  | [] => d
  | t :: _ => (d.enqueue pos ⟨toks, d.firingPri pos (tNode t) (tCtx t) pri⟩).quiesce (tCtx t)

/-- A token of `vc` reaches a cluster (R28, R37, R49, R89): discarded, sent to a ready queue, or into the match input. -/
def Dev.clusterArrive (d : Dev) (pos vc pri : Nat) (t : W128) : Dev :=
  let p := d.pos pos
  let ctx := tCtx t
  if (match p.line ctx with | some l => l.fr.gen != tGen t | none => false) then d.staleAt pos 1
  else if !p.code.contains (lineKey (tNode t)) then (d.unmapped pos).quiesce ctx
  else
    let sh := d.shapeOf (tNode t)
    if tokMalformed t sh then (d.malformed pos).quiesce ctx
    else if shapeNeed sh ≤ 1 then d.fireUp pos [t] pri
    else if vc = 1 then d.modPos pos (fun p => { p with in1 := p.in1 ++ [(⟨t, pri, false, false⟩ : Arrival)] })
    else d.modPos pos (fun p => { p with in0 := p.in0 ++ [(⟨t, pri, false, false⟩ : Arrival)] })

/-! ### The on-die cache (R58–R62) -/

/-- The generation that an entry's context now has differs from the entry's. -/
def Dev.entStale (d : Dev) (e : MEntry) : Bool := d.gen (e.key / 2 ^ 36) != e.key / 2 ^ 30 % 64

/-- A way is cold (R60) by the cold age in force. -/
def Dev.cold (d : Dev) (pos : Nat) (w : Way) : Bool := decide ((d.pos pos).coldUs * 1000 ≤ d.up - w.touched)

/-- Remove the way of a key. -/
def Pos.dropWay (p : Pos) (k : Nat) : Pos := { p with ways := p.ways.filter (fun w => w.ent.key != k) }

/-- The victim of a full set (R60): stale, then cold, then of lowest `PRI`; least recently touched first. -/
def Dev.wayVictim (d : Dev) (pos : Nat) (ws : List Way) : Option Way :=
  match ws.find? (fun w => d.entStale w.ent) with
  | some w => some w
  | none => match ws.find? (d.cold pos) with
    | some w => some w
    | none => minBy (fun w => w.ent.pri) ws

/-- An entry read out of its way: into the write-back buffer (true: by the sweeper), freed where it is stale, dropped where
it is lost. -/
def Dev.moveOut (d : Dev) (pos : Nat) (e : MEntry) (swept : Bool) : Dev :=
  let (x, d) := d.readOnDie pos e
  let d := d.modPos pos (fun p => p.dropWay e.key)
  match x with
  | none => d.quiesce (e.key / 2 ^ 36)
  | some v =>
    if d.entStale e then d.bump 0x2002 9 else d.modPos pos (fun p => { p with wb := p.wb ++ [(v, swept)] })

/-- Room for an entry of key `k` in its set; none where the write-back buffer is full and the set must evict (R62). -/
def Dev.wayRoom (d : Dev) (pos k : Nat) : Option Dev :=
  let p := d.pos pos
  let ws := p.ways.filter (fun w => setOf w.ent.key == setOf k)
  if ws.length < 16 then some d
  else match d.wayVictim pos ws with
    | none => some d
    | some v => if !d.entStale v.ent && 64 ≤ p.wb.length then none else some (d.moveOut pos v.ent false)

/-- Put an entry into a way, touched now. -/
def Dev.putWay (d : Dev) (pos : Nat) (e : MEntry) : Dev :=
  d.modPos pos (fun p => { p.dropWay e.key with ways := (p.dropWay e.key).ways ++ [(⟨e, d.up⟩ : Way)] })

/-- The record of a waiting arrival. -/
def Dev.arrRec (d : Dev) (a : Arrival) : Arr := arrOf a.pl (d.shapeOf (tNode a.pl)).2.2

/-- The entry already holds an arrival at this position (R55). -/
def MEntry.has (e : MEntry) (x : Arr) : Bool := e.arrs.any (fun b => b.port == x.port && b.half == x.half)

/-- The arrival completes the entry (R56). -/
def MEntry.completes (e : MEntry) (x : Arr) : Bool := !e.has x && e.arrs.length + 1 == e.need

/-- A duplicate arrival is discarded (R55). -/
def Dev.dupArr (d : Dev) (pos : Nat) (a : Arrival) : Dev := ((d.bump 0x2002 8).wasted pos).quiesce (tCtx a.pl)

/-- An arrival applied to an entry that stands in no way now (R55, R56, R66): completed, it fires; else the entry is put into
a way. A completion or join of an entry from overflow is no on-die one. -/
def Dev.joinArr (d : Dev) (pos : Nat) (e : MEntry) (a : Arrival) (fromOvf : Bool) : Dev :=
  let x := d.arrRec a
  if e.has x then (d.putWay pos e).dupArr pos a
  else if e.completes x then
    let d := if fromOvf then d else (d.bump 0x2002 2).posEvent pos 0x08 0
    d.fireUp pos ((e.arrs ++ [x]).map (Arr.tok e.key)) (max e.pri a.pri)
  else
    let d := if fromOvf then d else d.bump 0x2002 1
    d.putWay pos { e with arrs := e.arrs ++ [x], pri := max e.pri a.pri }

/-- A new entry (R56). -/
def Dev.createEnt (d : Dev) (pos : Nat) (a : Arrival) : Dev :=
  let sh := d.shapeOf (tNode a.pl)
  (d.putWay pos ⟨tKey a.pl, shapeNeed sh, a.pri, [arrOf a.pl sh.2.2]⟩).bump 0x2002 3

/-- The chain of a context on a die, newest first. -/
def Dev.chain (d : Dev) (die ctx : Nat) : List OvfEnt := tget [] d.fab.heads (die * 2 ^ 24 + ctx)

/-- Where a head word and a pool entry lie in HBM (R63, R64). -/
def Dev.headAt (d : Dev) (die ctx : Nat) : Nat := d.hbmAt rgHead + die * 64 * mib + 4 * ctx
def Dev.poolAt (d : Dev) (idx : Nat) : Nat := d.hbmAt rgPool + 64 * idx

/-- Write a head word. -/
def Dev.setChain (d : Dev) (die ctx : Nat) (l : List OvfEnt) : Dev :=
  ({ d with fab := { d.fab with heads := tput [] d.fab.heads (die * 2 ^ 24 + ctx) l } }).rewrote spHbm (d.headAt die ctx) 4

/-- Why an arrival must wait: for room in its set (R62), or for a free probe (R67). -/
inductive WaitFor where
  | room | probe
  deriving DecidableEq, Repr

/-- A result, or the reason to wait where there is none. -/
def orWait (w : WaitFor) (x : Option Dev) : Except WaitFor Dev := match x with | some d => .ok d | none => .error w

/-- R59: what an arrival that has passed its checks does, or what it waits for. -/
def Dev.arrive (d : Dev) (pos : Nat) (a : Arrival) : Except WaitFor Dev :=
  let k := tKey a.pl
  let p := d.pos pos
  let create (d : Dev) : Except WaitFor Dev := orWait .room ((d.wayRoom pos k).map (fun d => d.createEnt pos a))
  if p.probes.any (fun b => b.key == k) then
    .ok (d.modPos pos (fun p => { p with probes := p.probes.map (fun (b : Probe) => if b.key = k then { b with arrs := b.arrs ++ [a] } else b) }))
  else match p.ways.find? (fun w => w.ent.key == k) with
  | some w =>
    match d.readOnDie pos w.ent with
    | (some e, d) =>
      if e.has (d.arrRec a) then .ok (d.dupArr pos a) else .ok ((d.modPos pos (fun p => p.dropWay k)).joinArr pos e a false)
    | (none, d) => .ok ((d.modPos pos (fun p => p.dropWay k)).createEnt pos a)
  | none => match p.wb.find? (fun w => w.1.key == k) with
    | some w =>
      match d.readOnDie pos w.1 with
      | (some e, d) =>
        let d := d.modPos pos (fun p => { p with wb := p.wb.filter (fun x => x.1.key != k) })
        if e.completes (d.arrRec a) then .ok (d.joinArr pos e a false)
        else orWait .room ((d.wayRoom pos k).map (fun d => d.joinArr pos e a false))
      | (none, d) => create (d.modPos pos (fun p => { p with wb := p.wb.filter (fun x => x.1.key != k) }))
    | none =>
      if (d.chain (pos / 34) (tCtx a.pl)).isEmpty then create d
      else if 16 ≤ p.probes.length then .error .probe
      else .ok (((d.modPos pos (fun p => { p with probes := p.probes ++ [(⟨k, [a]⟩ : Probe)] })).bump 0x2002 4).posEvent pos 0x09 0)

/-- The head of a match input. -/
def Pos.inHead (p : Pos) (vc : Nat) : Option Arrival := if vc = 1 then p.in1.head? else if p.in1.isEmpty then p.in0.head? else none

/-- Remove the head of a match input. -/
def Pos.inPop (p : Pos) (vc : Nat) : Pos := if vc = 1 then { p with in1 := p.in1.drop 1 } else { p with in0 := p.in0.drop 1 }

/-- Put an arrival back at the head. -/
def Pos.inWait (p : Pos) (vc : Nat) (a : Arrival) : Pos :=
  if vc = 1 then { p with in1 := a :: p.in1 } else { p with in0 := a :: p.in0 }

/-- A checked arrival at the match port (R28, R49, R59, R89). -/
def Dev.matchChecked (d : Dev) (pos vc : Nat) (a : Arrival) : Dev :=
  let t := a.pl
  if !(d.pos pos).code.contains (lineKey (tNode t)) then (d.unmapped pos).quiesce (tCtx t)
  else if tokMalformed t (d.shapeOf (tNode t)) then (d.malformed pos).quiesce (tCtx t)
  else if tGen t ≠ d.gen (tCtx t) then d.staleAt pos 2
  else match d.arrive pos a with
    | .ok d => d
    | .error w =>
      let first := w == .probe && !a.counted
      let d := if first then d.bump 0x2002 0x0F else d
      d.modPos pos (fun p => p.inWait vc { a with waited := true, counted := a.counted || first })

/-- MATCH_ARRIVAL: the first waiting arrival of a channel, VC1 before VC0 (R111), is checked (R32), held against its
generation (R49) and applied (R59). -/
def Dev.matchArrival (d : Dev) (pos vc : Nat) : Dev :=
  match (d.pos pos).inHead vc with
  | none => d
  | some a =>
    let d := d.modPos pos (fun p => p.inPop vc)
    match (if a.waited then (some a.pl, d) else d.checkTok 0x02 (posLoc pos) a.pl) with
    | (none, d) => d.quiesce (tCtx a.pl)
    | (some t, d) => d.matchChecked pos vc { a with pl := t }

/-! ### The overflow table (R63–R69, R74, R75) -/

/-- A pool index returned to the free list of its partition. -/
def Dev.freeIdx (d : Dev) (i : Nat) : Dev :=
  { d with fab := { d.fab with free := tmod ⟨[], 0⟩ d.fab.free (i / 2 ^ 23) (fun f => { f with returned := i :: f.returned }) } }

/-- A free index of a partition, last in first out; of indices never used the lowest (log 119). -/
def Dev.takeIdx (d : Dev) (part : Nat) : Option (Nat × Dev) :=
  let f := tget ⟨[], 0⟩ d.fab.free part
  match f.returned with
  | i :: r => some (i, { d with fab := { d.fab with free := tset d.fab.free part { f with returned := r } } })
  | [] =>
    if f.fresh < 2 ^ 23 then
      some (part * 2 ^ 23 + f.fresh, { d with fab := { d.fab with free := tset d.fab.free part { f with fresh := f.fresh + 1 } } })
    else none

/-- An index from the die's own partition or, counted, from the next ones in order (R65). -/
def Dev.anyIdx (d : Dev) (die : Nat) : Option (Nat × Dev) :=
  match d.takeIdx die with
  | some r => some r
  | none => ((upFrom 1 (d.dies - 1)).findSome? (fun j => d.takeIdx ((die + j) % d.dies))).map
      (fun r => (r.1, r.2.bump 0x2002 0x0E))

/-- Entries leaked (R74); a leak count that passes its level is reported (R75). -/
def Dev.leak (d : Dev) (n die : Nat) : Dev :=
  let d := { d with fab := { d.fab with leaked := d.fab.leaked + n } }
  let past := decide (d.obj 0x2001 3 < d.fab.leaked)
  let d := if past && !d.fab.leakRep then d.report 0x14 (faultLoc 2 die) else d
  { d with fab := { d.fab with leakRep := past } }.poolStates

/-- A new leak level (0x2001:03): a later passing of it is reported (R75). -/
def Dev.relevel (d : Dev) (v : Nat) : Dev :=
  { d with fab := { d.fab with leakRep := d.fab.leakRep && decide (v < d.fab.leaked) } }

/-- The head word of a context is read (R66, R74): where its codeword is uncorrectable the chain is abandoned and every entry
of it leaked. -/
def Dev.readHead (d : Dev) (die ctx : Nat) : Dev :=
  let l := d.chain die ctx
  if l.isEmpty then d
  else match d.readCw spHbm (d.headAt die ctx) with
    | (true, _, d) => d
    | (false, _, d) =>
      ((((d.bump 0x2002 0x0B).report 0x12 (faultLoc 2 die)).setChain die ctx []).leak l.length die).quiesce ctx

/-- Words with bit `b` of their octets inverted. -/
def flipIn (l : List W128) (b : Nat) : List W128 := lset l (b / 128) (flipBit (l.getD (b / 128) 0) (b % 128))

/-- Read a linked entry out of HBM: its two codewords (R226), then its words (R74). -/
def Dev.readLinked (d : Dev) (die : Nat) (x : OvfEnt) : EntRead × Dev :=
  let at_ := d.poolAt x.idx
  let (ok0, f0, d) := d.readCw spHbm at_
  let (ok1, f1, d) := d.readCw spHbm (at_ + 32)
  let ws := (f0.toList ++ f1.toList).foldl (fun l b => flipIn l (b - 8 * at_)) x.ws
  let (r, d) := d.readEntry (faultLoc 2 die) ws
  match r with
  | .ok e ws =>
    if !ok0 then (.broken, (d.bump 0x2002 0x0B).report 0x12 (faultLoc 2 die))
    else if !ok1 then (.lost, (d.bump 0x2002 0x0B).report 0x12 (faultLoc 2 die))
    else (.ok e ws, d)
  | r => (r, d)

/-- What a walk of a chain finds. -/
structure ChainWalk where
  kept   : List OvfEnt
  freed  : List Nat
  hit    : Option (Nat × MEntry)
  rest   : List OvfEnt
  broken : Bool
  dev    : Dev

/-- Walk a chain for the entry of a key; each entry read is checked (R66, R74). An entry whose word 0 is bad is freed with
those walked before it (log 117). -/
def Dev.walkChain (d : Dev) (die : Nat) (key : Option Nat) : List OvfEnt → ChainWalk
  | [] => ⟨[], [], none, [], false, d⟩
  | x :: r =>
    match d.readLinked die x with
    | (.broken, d) => ⟨[], [x.idx], none, r, true, d⟩
    | (.lost, d) => let w := Dev.walkChain d die key r; { w with freed := x.idx :: w.freed }
    | (.ok e ws, d) =>
      if key == some e.key then ⟨[], [], some (x.idx, e), r, false, d⟩
      else let w := Dev.walkChain d die key r; { w with kept := ⟨x.idx, ws⟩ :: w.kept }

/-- Word 0 of an entry with another `NEXT` (R57). -/
def nextWord (w : W128) (n : Nat) : W128 :=
  let m := w.toNat / 65536
  withCheck (m - bits m 42 18 * 2 ^ 18 + n % 2 ^ 25 * 2 ^ 18)

/-- `NEXT` of every entry but the last names the one behind it (R66). -/
def relinkChain : List OvfEnt → List OvfEnt
  | x :: y :: r =>
    let w := x.ws.getD 0 0
    let x := if bits w.toNat 58 34 = y.idx then x else { x with ws := nextWord w y.idx :: x.ws.drop 1 }
    x :: relinkChain (y :: r)
  | l => l

/-- What a walk leaves of the chain: entries lost freed, an abandoned chain freed as far as it was walked and leaked
beyond. -/
def Dev.endWalk (w : ChainWalk) (die ctx : Nat) : Dev :=
  let d := w.freed.foldl Dev.freeIdx w.dev
  let d :=
    if w.broken then
      ((w.kept.foldl (fun d x => d.freeIdx x.idx) d).setChain die ctx []).leak w.rest.length die
    else match w.hit with
      | some x => (d.freeIdx x.1).setChain die ctx (relinkChain (w.kept ++ w.rest))
      | none => d.setChain die ctx (relinkChain w.kept)
  d

/-- Arrivals that waited on a probe go back to the head of the match input, in order (R67). -/
def Dev.requeueArrs (d : Dev) (pos : Nat) (l : List Arrival) : Dev :=
  d.modPos pos (fun p => { p with in1 := l.map (fun (a : Arrival) => { a with waited := true }) ++ p.in1 })

/-- What the first arrival of a probe does once the chain is walked (R66); none where its set must evict and cannot. -/
def Dev.probeApply (d : Dev) (pos key : Nat) (hit : Option (Nat × MEntry)) (a : Arrival) : Option Dev :=
  match hit with
  | some x =>
    let d := d.bump 0x2002 5
    if x.2.completes (d.arrRec a) then some (d.joinArr pos x.2 a true)
    else (d.wayRoom pos key).map (fun d => d.joinArr pos x.2 a true)
  | none => (d.wayRoom pos key).map (fun d => d.createEnt pos a)

/-- OVERFLOW_PROBE_DONE (R66). -/
def Dev.probeDone (d : Dev) (pos key : Nat) : Dev :=
  let die := pos / 34
  match (d.pos pos).probes.find? (fun b => b.key == key) with
  | none => d
  | some b => match b.arrs with
    | [] => d.modPos pos (fun p => { p with probes := p.probes.filter (fun x => x.key != key) })
    | a :: more =>
      let ctx := tCtx a.pl
      let clear (d : Dev) : Dev := d.modPos pos (fun p => { p with probes := p.probes.filter (fun x => x.key != key) })
      if tGen a.pl ≠ d.gen ctx then ((clear d).staleAt pos 2).requeueArrs pos more
      else
        let e := d.readHead die ctx
        let w := e.walkChain die (some key) (e.chain die ctx)
        match (clear (Dev.endWalk w die ctx)).probeApply pos key w.hit a with
        | none => d
        | some d => (d.requeueArrs pos more).quiesce ctx

/-- WRITEBACK_LINK: the oldest write-back of a cluster reaches the controller (R65, R69, R107). An entry that is refused,
lost or left without an index is dropped with its arrivals. -/
def Dev.wbLink (d : Dev) (pos : Nat) : Dev :=
  let die := pos / 34
  match (d.pos pos).wb with
  | [] => d
  | (e, swept) :: _ =>
    let ctx := e.key / 2 ^ 36
    let d := d.modPos pos (fun p => { p with wb := p.wb.drop 1 })
    if d.entStale e then d.bump 0x2002 9
    else
      let d := match d.readOnDie pos e with
        | (some e, d) =>
          let d := d.readHead die ctx
          let l := d.chain die ctx
          if 64 ≤ l.length then (d.bump 0x2002 0x0D).report 0x13 (faultLoc 2 die)
          else (match d.anyIdx die with
            | none => (d.bump 0x2100 1).report 0x19 (faultLoc 2 die)
            | some (i, d) =>
              let ws := e.words (match l with | x :: _ => x.idx | [] => 0)
              let d := ((d.setChain die ctx (⟨i, ws⟩ :: l)).rewrote spHbm (d.poolAt i) 64).bump 0x2002 6
              if swept then d.bump 0x2002 7 else d)
        | (none, d) => d
      d.quiesce ctx

/-- MATCH_SWEEP_TICK: the sweeper frees the stale entry of a key; only where no entry is stale it moves the coldest one
to the write-back buffer; at most one entry per 64 ns (R61). A new cold age is in force from here on (R77). -/
def Dev.sweep (d : Dev) (pos key : Nat) : Dev :=
  if d.up < (d.pos pos).swept then d
  else
    let later (d : Dev) : Dev := d.modPos pos (fun p => { p with swept := d.up + 64 })
    let d := d.modPos pos (fun p => { p with coldUs := d.obj 0x2001 1 })
    let p := d.pos pos
    if p.ways.any (fun w => d.entStale w.ent) then
      match p.ways.find? (fun w => d.entStale w.ent && w.ent.key == key) with
      | some w => later (d.moveOut pos w.ent true)
      | none => d
    else match p.ways.find? (d.cold pos) with
      | some w => if 64 ≤ p.wb.length then d else later (d.moveOut pos w.ent true)
      | none => d

/-! ### Reclamation (R68, R123 steps 7 to 9) -/

/-- Reclaim a context's chain on a die. -/
def Dev.reclaimDie (d : Dev) (ctx die : Nat) : Dev :=
  let d := d.readHead die ctx
  let w := d.walkChain die none (d.chain die ctx)
  let d := Dev.endWalk w die ctx
  let d := if w.broken then d else (w.kept.foldl (fun d x => d.freeIdx x.idx) d).setChain die ctx []
  d.bumpBy 0x2002 0x0C (w.kept.length + w.freed.length)

/-- RECLAIM_DONE: reclamation ends on every die; reservations and charge released; journal record; free queue. The purge
counts as having taken place from here on (log 118). -/
def Dev.reclaimed (d : Dev) (r : Reclaim) : Dev :=
  let d := (List.range d.dies).foldl (fun d q => d.reclaimDie r.life.ctx q) d
  let d := { d with
    fab := { d.fab with reserved := d.fab.reserved - r.life.match_, spillRes := d.fab.spillRes - r.life.spill },
    key := { d.key with reclaim := d.key.reclaim.filter (fun x => x.life.ctx != r.life.ctx) } }
  let d := ((d.poolStates).bump 0x2106 1).journalPut r.jrec
  let d := r.late.foldl Dev.journalPut d
  { d with key := { d.key with freeTail := d.key.freeTail ++ [(r.life.ctx, some (d.obj 0x2106 1))] } }

/-- RECLAIM_DONE of a context. -/
def Dev.reclaimDone (d : Dev) (ctx : Nat) : Dev :=
  match d.key.reclaim.find? (fun r => r.life.ctx == ctx) with
  | some r => d.reclaimed r
  | none => d

/-! ### Meanings -/

/-- MATCH_ARRIVAL (R59). -/
def execMatchArrival (pos vc : Nat) (s : State) : Res := s.act (fun d => d.matchArrival pos vc)
/-- OVERFLOW_PROBE_DONE (R66). -/
def execOverflowProbeDone (pos key : Nat) (s : State) : Res := s.act (fun d => d.probeDone pos key)
/-- MATCH_SWEEP_TICK (R61). -/
def execMatchSweepTick (pos key : Nat) (s : State) : Res := s.act (fun d => d.sweep pos key)
/-- WRITEBACK_LINK (R65). -/
def execWritebackLink (pos : Nat) (s : State) : Res := s.act (fun d => d.wbLink pos)
/-- RECLAIM_DONE (R123). -/
def execReclaimDone (ctx : Nat) (s : State) : Res := s.act (fun d => d.reclaimDone ctx)

end Sys2Proof.Machine
end

