-- ==== Sys2Proof/Machine/Queue.lean ====
section
/-! DEFINITION. Cells, frame waits, inheritance signals, the stall monitor and slot accounting (chapters 04, 05 and 18). -/

namespace Sys2Proof.Machine

/-! ### Cells -/

/-- A cell of a position. -/
def Dev.cell (d : Dev) (pos c : Nat) : Cell := tget cellInit (d.pos pos).cells c

/-- Change a cell. -/
def Dev.modCell (d : Dev) (pos c : Nat) (f : Cell → Cell) : Dev :=
  d.modPos pos (fun p => { p with cells := tmod cellInit p.cells c f })

/-- Cells of a cluster (R78). -/
def cellCount : Nat := 16

/-! ### Frame waits (R44, R82) -/

/-- A frame record that nothing has written: the HBM contents after initialisation. -/
def zeroFrame (ctx : Nat) : Frame :=
  { ctx := ctx, gen := 0, rolledBack := false, template := 0, classPri := 0, effPri := 0, trapMask := 0,
    subnormal := false, rounding := 0, excEntry := 0, resumeNode := 0, resumePort := 0, partner := 0, ring := 0,
    ingressNs := 0, deadlineUs := 0, banks := [0, 0, 0, 0], flags := 0, slots := List.replicate 32 0 }

/-- The context of a set-aside firing. -/
def FWait.ctx (w : FWait) : Nat := match w.f.toks with | t :: _ => tCtx t | [] => 0

/-- A firing put back at the head of its ready queue; the head window takes it even where it holds 64 cells (log 113). -/
def Dev.reenter (d : Dev) (pos : Nat) (f : Firing) : Dev :=
  let pri := min 7 f.pri
  let q := (d.pos pos).queue pri
  d.setRq pos pri (sqWater (d.rqCfg pos pri q) { q with head := f :: q.head, rd := dec32 q.rd 1, rel := dec32 q.rel 1 })

/-- FRAME_FETCH_DONE (R44, R226): the line that a set-aside firing waits for is fetched, the one that has waited longest for its
set first; its firings re-enter at the heads of their queues, in order. -/
def Dev.frameFetch (d : Dev) (pos ctx : Nat) : Dev :=
  let p := d.pos pos
  match p.fwait.find? (fun w => w.ctx % 64 == ctx % 64) with
  | none => d
  | some w =>
    if w.ctx ≠ ctx || !d.frameRoom p ctx then d
    else
      let mine := p.fwait.filter (fun x => x.ctx == ctx)
      let (_, fs, d) := d.readCws spHbm 8 (d.frameAt ctx)
      let fr := tget (zeroFrame ctx) d.fab.frames ctx
      let fr := if fs.isEmpty then fr else Frame.ofOctets (flipAt (d.frameAt ctx) fs fr.octets)
      let d := (d.installLine pos fr).bump 0x2803 3
      let d := d.modPos pos (fun p => { p with fwait := p.fwait.filter (fun x => x.ctx != ctx) })
      mine.reverse.foldl (fun d x => d.reenter pos x.f) d

/-! ### Inheritance signals (R87) -/

/-- Take the queued firings of a context out of the head and tail windows of a queue. -/
def SQ.takeCtx (q : SQ Firing) (ctx : Nat) : List Firing × SQ Firing :=
  let is (f : Firing) : Bool := match f.toks with | t :: _ => tCtx t == ctx | [] => false
  let fs := q.head.filter is ++ q.tail.filter is
  (fs, sqSettle { q with head := q.head.filter (fun f => !is f), tail := q.tail.filter (fun f => !is f),
                         wr := dec32 q.wr fs.length })

/-- Firings of a context in a middle. -/
def SQ.midCtx (q : SQ Firing) (ctx : Nat) : Nat :=
  (q.mid.filter (fun (f : Firing) => match f.toks with | t :: _ => tCtx t == ctx | [] => false)).length

/-- Move the firings of a context from the queue of priority `r` to the tail of that of `pri`. -/
def Dev.promoteFrom (d : Dev) (pos ctx pri r : Nat) : Dev :=
  let q := (d.pos pos).queue r
  let (fs, q') := q.takeCtx ctx
  if fs.isEmpty then d.bumpBy 0x2202 4 (q.midCtx ctx)
  else
    let cf := d.rqCfg pos r q'
    let d := d.setRq pos r (sqWater cf (sqFlush cf { q' with full := q'.full && sqDeferred cf q' }))
    let d := fs.foldl (fun d f => d.enqueue pos { f with pri := pri }) d
    (d.bumpBy 0x2202 3 fs.length).bumpBy 0x2202 4 (q.midCtx ctx)

/-- A raise to `pri` reaches a cluster; firings of the higher of several lower queues move first (log 114). -/
def Dev.promote (d : Dev) (pos ctx pri : Nat) : Dev :=
  let d := (List.range pri).reverse.foldl (fun d r => d.promoteFrom pos ctx pri r) d
  let hit (w : FWait) : Bool := w.ctx == ctx && decide (w.f.pri < pri)
  let n := ((d.pos pos).fwait.filter hit).length
  let up (w : FWait) : FWait := if hit w then { w with f := { w.f with pri := pri } } else w
  ((d.modPos pos (fun p => { p with fwait := p.fwait.map up })).bumpBy 0x2202 3 n).quiesce ctx

/-- PI_SIGNAL: the oldest inheritance signal reaches its cluster. -/
def Dev.piSignal (d : Dev) : Dev :=
  match d.fab.noc.mgmt with
  | [] => d
  | (pos, ctx, p) :: r =>
    let d := { d with fab := { d.fab with noc := { d.fab.noc with mgmt := r } } }.bump 0x2202 2
    if 8 ≤ p then d.promote pos ctx (p - 8) else d

/-! ### The stall monitor (R122) -/

/-- FABRIC_STALL_DETECT: the condition has held for 2 µs; the fault is raised and the monitor restarts. -/
def Dev.stallDetect (d : Dev) (die : Nat) : Dev :=
  match tget? d.fab.stallSince die with
  | none => d
  | some t =>
    if d.up < t + 2000 then d
    else
      let m := lsum ((d.dieReadable die).map (fun p => 2 ^ (p % 34)))
      let d := { d with fab := { d.fab with stallMap := tset d.fab.stallMap die m,
                                            stallSince := tset d.fab.stallSince die d.up } }
      (d.bump 0x2104 2).report 0x1A (faultLoc 2 die)

/-! ### Slots (R413) -/

/-- One slot of a cell: its category, or none where the firing at its execute stage has not been decided. -/
def Dev.slotCat (d : Dev) (pos c : Nat) : Option Nat :=
  let x := d.cell pos c
  let need := match x.pipe with
    | ⟨_, some l⟩ :: _ => (match decodeNode l with | .ok n => n.maxTokens | .error _ => 1)
    | _ => 0
  let blocked := !(tget routerInit d.fab.noc.routers (posRouter pos)).injRoom need
  if d.up < x.busy then some (if x.effect then slotR else slotW)
  else if x.pipe.isEmpty then some slotF
  else if blocked then some slotB
  else none

/-- Slots of a category counted at a cell: total, event. -/
def Dev.slotEvent (d : Dev) (pos c cat n : Nat) : Dev :=
  if n = 0 then d
  else ((d.slotAdd pos cat n).event (pos / 34) (if cat = slotR then 2 else if cat = slotW then 3 else if cat = slotF then 4 else 5)
    (pos % 34 * 64 + c) n)

/-- SLOT_TICK: the pace monitor of a position completes 8 loop periods. -/
def Dev.slotTick (d : Dev) (pos : Nat) : Dev :=
  if (d.pos pos).st != .inService then d
  else (List.range cellCount).foldl (fun d c =>
    let d := (d.slotAdd pos 4 1).event (pos / 34) 1 (pos % 34 * 64 + c) 1
    match d.slotCat pos c with
    | some cat => d.slotEvent pos c cat 1
    | none => d.modCell pos c (fun x => { x with slots := x.slots + 1 })) d

/-! ### Meanings -/

/-- FRAME_FETCH_DONE (R44). -/
def execFrameFetchDone (pos ctx : Nat) (s : State) : Res := s.act (fun d => d.frameFetch pos ctx)
/-- PI_SIGNAL (R87). -/
def execPiSignal (s : State) : Res := s.act Dev.piSignal
/-- FABRIC_STALL_DETECT (R122). -/
def execFabricStallDetect (die : Nat) (s : State) : Res := s.act (fun d => d.stallDetect die)
/-- SLOT_TICK (R413). -/
def execSlotTick (pos : Nat) (s : State) : Res := s.act (fun d => d.slotTick pos)

end Sys2Proof.Machine
end

