-- ==== Sys2Proof/Machine/Memory.lean ====
section
/-! DEFINITION. Structure memory, I-structures and the bit store (chapters 08 and 10): codeword errors, windowed reads and
writes, every operation of classes M, Y, B and K as the hub carries it out, and the results it sends. -/

namespace Sys2Proof.Machine

/-! ### Results (R80, R195) -/

/-- A result value with kind and `STATUS` to every destination of a request; a pair where the request asks for one. -/
def Dev.hubResult (d : Dev) (agent : Nat) (r : Req) (v kind st : Nat) : Dev :=
  r.dsts.foldl (fun d x =>
    let tag := mkTag r.ctx r.gen x.iter x.node x.port
    if r.pair && kind = kWord then
      (d.hubToken agent r.pri (mkTok tag (v % 2 ^ 40) kLow 0)).hubToken agent r.pri (mkTok tag (v / 2 ^ 40) kHigh st)
    else d.hubToken agent r.pri (mkTok tag v kind st)) d

/-- Octets written to structure memory from `a` upwards. -/
def Dev.writeOct (d : Dev) (a : Nat) (l : List Byte) : Dev :=
  ({ d with mem := { d.mem with cells := memWrite d.mem.cells a l } }).rewrote 0 a l.length

/-! ### Requests -/

/-- What a split-phase memory node asks for: operation, width of its value (5, or 10 under WIDE), effective or bit
address, operand values, whether the address is out of range. -/
structure MReq where
  op   : Op
  wide : Bool
  ea   : Nat
  v    : Nat
  n    : Nat
  bad  : Bool
  deriving DecidableEq, Repr

/-- The access width in octets (R195–R197). -/
def memWidth (o : Op) (wide : Bool) : Nat :=
  match o with
  | .ldb | .ldbu | .stb | .lock | .unlock | .trylock => 1
  | .ldh | .ldhu | .sth => 2
  | .ldw | .ldwu | .stw => 4
  | .ld | .st => if wide then 10 else 5
  | _ => 5

/-- The value a load delivers (R195). -/
def loadValue (o : Op) (v : Nat) : Nat :=
  match o with
  | .ldb => sext40 8 v
  | .ldh => sext40 16 v
  | .ldw => sext40 32 v
  | _ => v

/-- An access performed (0x6010:01, event 0x4A). -/
def Dev.accessed (d : Dev) : Dev := (d.bump 0x6010 1).hubEvent 0x4A 0

/-- R226: the access met a poisoned codeword. -/
def Dev.poisonHit (d : Dev) (r : Req) (detail : Nat) : Dev := (d.bump 0x6010 4).hubExc agMem r 7 detail

/-- The new value and the result's `STATUS` of a class Y operation (R196). -/
def atomicNew (o : Op) (old v n : Nat) : Nat × Nat :=
  let opd (x : Nat) : Opd := ⟨x, false, kWord, 0⟩
  match o with
  | .aadd =>
    match intOp .add ⟨40, false, false, 0, false, [], []⟩ (opd old) (opd v) noOpd with
    | .ok r _ st _ => (r, st)
    | .subnormal _ => (old, 0)
  | .aand => (old &&& v, 0)
  | .aor => (old ||| v, 0)
  | .axor => (old ^^^ v, 0)
  | .axchg => (v, 0)
  | .acas => (if old = v then n else old, 0)
  | .amin => (if sgn 40 v < sgn 40 old then v else old, 0)
  | .amax => (if sgn 40 old < sgn 40 v then v else old, 0)
  | _ => (old, 0)

/-- The granule of an address, and whether I-structures reach it (R227). -/
def granule (ea : Nat) : Nat := ea / 8 % 2 ^ 34
def istructOk (ea : Nat) : Bool := decide (ea < 2 ^ 33)

def Dev.setPresent (d : Dev) (g : Nat) (b : Bool) : Dev :=
  { d with mem := { d.mem with present := if b then tset d.mem.present g true else terase d.mem.present g } }

def Dev.isPresent (d : Dev) (g : Nat) : Bool := tget false d.mem.present g

/-- Deferral table entries (R228). -/
def Dev.deferCap (d : Dev) : Nat := d.xs 16384 4096

/-- A read of an element's value, answered. -/
def Dev.answerRead (d : Dev) (r : Req) (ea : Nat) : Dev :=
  match d.readOct 0 ea 5 with
  | (some l, d) => d.hubResult agMem r (leNat l) kWord 0
  | (none, d) => d.poisonHit r 1

/-- The missing right is counted and the operation answers as R198 says. -/
def Dev.refused (d : Dev) (g right : Nat) (r : Req) (v kind : Nat) : Dev := (d.violation g right).hubResult agMem r v kind 0

/-- The low octets of a store's operand, as its result gives them. -/
def storeValue (q : MReq) : Nat := q.v % 2 ^ (8 * memWidth q.op q.wide)

/-- A load, store, I-structure operation or atomic of graph slot `g` at the hub (R195–R199, R226–R228). -/
def Dev.memOp (d : Dev) (g : Nat) (r : Req) (q : MReq) : Dev :=
  let w := memWidth q.op q.wide
  let gr := granule q.ea
  match q.op with
  | .ld | .ldb | .ldbu | .ldh | .ldhu | .ldw | .ldwu =>
    if !d.allowed g 0 rtRead q.ea w then d.refused g rtRead r 0 kWord
    else match d.readOct 0 q.ea w with
      | (some l, d) => d.accessed.hubResult agMem r (loadValue q.op (leNat l)) kWord 0
      | (none, d) => d.poisonHit r 1
  | .st | .stb | .sth | .stw =>
    if !d.allowed g 0 rtWrite q.ea w then d.refused g rtWrite r (storeValue q) kWord
    else ((d.writeOct q.ea (leOctets w q.v)).accessed).hubResult agMem r (storeValue q) kWord 0
  | .ird =>
    if !(d.allowed g 0 rtRead q.ea w && istructOk q.ea) then d.refused g rtRead r 0 kWord
    else if d.isPresent gr then
      match d.readOct 0 q.ea 5 with
      | (some l, d) => d.accessed.hubResult agMem r (leNat l) kWord 0
      | (none, d) => d.poisonHit r 1
    else if d.mem.defers.length < d.deferCap then
      { d with mem := { d.mem with defers := d.mem.defers ++ [(⟨gr, q.ea, r⟩ : Defer)] } }.accessed
    else (d.bump 0x6020 3).hubResult agMem r 0 kWord stI
  | .iwr =>
    if !(d.allowed g 0 rtWrite q.ea w && istructOk q.ea) then d.refused g rtWrite r (storeValue q) kWord
    else if d.isPresent gr then d.accessed.hubResult agMem r (storeValue q) kWord stI
    else
      let d := (((d.writeOct q.ea (leOctets 5 q.v)).setPresent gr true).accessed).hubResult agMem r (storeValue q) kWord 0
      let ds := d.mem.defers.filter (fun x => x.gran == gr)
      let d := { d with mem := { d.mem with defers := d.mem.defers.filter (fun x => x.gran != gr) } }
      ds.foldl (fun d x => d.answerRead x.req x.ea) d
  | .iclr =>
    if !(d.allowed g 0 rtWrite q.ea w && istructOk q.ea) then d.refused g rtWrite r 0 kWord
    else ((d.setPresent gr false).accessed).hubResult agMem r 0 kWord 0
  | _ =>
    if !d.allowed g 0 rtAtomic q.ea w then d.refused g rtAtomic r 0 kWord
    else match d.readOct 0 q.ea 5 with
      | (none, d) => d.poisonHit r 2
      | (some l, d) =>
        let old := leNat l
        let nw := atomicNew q.op old (q.v % 2 ^ 40) (q.n % 2 ^ 40)
        ((d.writeOct q.ea (leOctets 5 nw.1)).accessed).hubResult agMem r old kWord nw.2

/-! ### The bit store (R200, R229) -/

/-- Lines of the bit-store cache: 4 MiB of 64 octets. -/
def bitLines : Nat := 65536

/-- Bring a line into the bit-store cache; the codeword that holds octet `a` is read from HBM on a miss. -/
def Dev.bitLine (d : Dev) (a : Nat) : Bool × Dev :=
  let l := a / 64
  if d.mem.lines.contains l then (!d.poisoned 1 a, d.bump 0x6030 1)
  else
    let d := d.bump 0x6030 2
    let (i, d) := if d.mem.lines.length < bitLines then (bitLines, d) else d.drawNat bitLines
    let d := { d with mem := { d.mem with lines := ldel d.mem.lines i ++ [l] } }
    let (ok, _, d) := d.readCw 1 a
    (ok, d)

/-- The 32-bit group of a bit address. -/
def Dev.bitGroup (d : Dev) (z : Nat) : Nat := leNat (memOctets d.mem.bitOct (z / 32 * 4) 4)

/-- Write the group. -/
def Dev.setGroup (d : Dev) (z v : Nat) : Dev :=
  { d with mem := { d.mem with bitOct := memWrite d.mem.bitOct (z / 32 * 4) (leOctets 4 v) } }

/-- A class B operation of graph slot `g` at the hub. -/
def Dev.bitOp (d : Dev) (g : Nat) (r : Req) (q : MReq) : Dev :=
  let z := q.ea
  let right := match q.op with | .bld => rtRead | .bst => rtWrite | _ => rtAtomic
  let first := if q.op = .blts then z / 32 * 32 else z
  let n := if q.op = .blts then 32 else 1
  let kind := if q.op = .blts then kWord else kBit
  let v0 := q.v % 2
  if q.bad || !d.allowed g 1 right first n then d.refused g right r (if q.op = .bst then v0 else 0) kind
  else
    let (ok, d) := d.bitLine (z / 8)
    if !ok && q.op != .bst then d.poisonHit r 3
    else
      let o := d.bitGroup z
      let j := 2 ^ (z % 32)
      let old := b2n (o.testBit (z % 32))
      let (nw, res) := match q.op with
        | .bld => (o, old)
        | .bst => (if v0 = 1 then o ||| j else o - old * j, v0)
        | .btas => (o ||| j, old)
        | .btac => (o - old * j, old)
        | .bflip => (o ^^^ j, old)
        | _ => (o ||| q.v % 2 ^ 32, o &&& (q.v % 2 ^ 32))
      ((d.setGroup z nw).accessed).hubResult agMem r res kind 0

/-- DEFERRAL_SWEEP_TICK: the sweeper visits one entry of the deferral table (R228). -/
def Dev.deferSweep (d : Dev) : Dev :=
  let i := d.mem.sweep
  match d.mem.defers[i]? with
  | none => { d with mem := { d.mem with sweep := 0 } }
  | some x =>
    if d.gen x.req.ctx ≠ x.req.gen then
      { d with mem := { d.mem with defers := ldel d.mem.defers i } }.bump 0x6020 4
    else { d with mem := { d.mem with sweep := (i + 1) % d.deferCap } }

/-- DEFERRAL_SWEEP_TICK (R228). -/
def execDeferralSweepTick (s : State) : Res := s.act Dev.deferSweep

end Sys2Proof.Machine
end

