-- ==== Sys2Proof/Machine/Crypto.lean ====
section
/-! DEFINITION. Crypto calls of graphs (R269–R279, R283, R285–R289): arrival, slots and queues, the parameter block and its
areas, the checks in their order, every function of attachments 0 and 1, PIN translation, DUKPT, and completion. -/

namespace Sys2Proof.Machine

/-! ### The parameter block (R270) -/

def pbField (b : List Byte) (off n : Nat) : Nat := leNat ((b.drop off).take n)
def pbKey1 (b : List Byte) : Nat := pbField b 0x00 2
def pbKey2 (b : List Byte) : Nat := pbField b 0x02 2
def pbVariant (b : List Byte) : Nat := pbField b 0x04 1 % 8
def pbGenIv (b : List Byte) : Bool := bit (pbField b 0x05 1) 0
def pbTagLen (b : List Byte) : Nat := pbField b 0x06 2
def pbInEa (b : List Byte) : Nat := pbField b 0x08 5
def pbInLen (b : List Byte) : Nat := pbField b 0x0D 3
def pbOutEa (b : List Byte) : Nat := pbField b 0x10 5
def pbOutCap (b : List Byte) : Nat := pbField b 0x15 3
def pbAuxEa (b : List Byte) : Nat := pbField b 0x18 5
def pbAuxLen (b : List Byte) : Nat := pbField b 0x1D 3
def pbInline (b : List Byte) : List Byte := b.drop 0x20
def pbOct (b : List Byte) (i : Nat) : Nat := ((pbInline b).getD i 0).toNat

/-! ### Areas (R271) -/

/-- Every octet of an area is allowed. -/
def Dev.areaOk (d : Dev) (g right a n : Nat) : Bool :=
  d.allowed g 0 right a n || (List.range n).all (fun i => d.allowed g 0 right (a + i) 1)

/-- The octets of an input area; those that are not readable are zero, counted once. None where a load meets a poisoned
codeword. -/
def Dev.areaRead (d : Dev) (g a n : Nat) : Option (List Byte) × Dev :=
  if n = 0 then (some [], d)
  else if d.areaOk g rtRead a n then d.readOct 0 a n
  else
    (List.range n).reverse.foldl (fun (x : Option (List Byte) × Dev) i =>
      match x.1 with
      | none => x
      | some l =>
        if x.2.allowed g 0 rtRead (a + i) 1 then
          match x.2.readOct 0 (a + i) 1 with
          | (some o, d) => (some (o ++ l), d)
          | (none, d) => (none, d)
        else (some (0 :: l), x.2)) (some [], d.violation g rtRead)

/-- Output octets written; those that are not writable are left, counted once. -/
def Dev.areaWrite (d : Dev) (g a : Nat) (l : List Byte) : Dev :=
  if l.isEmpty then d
  else if d.areaOk g rtWrite a l.length then d.writeOct a l
  else l.zipIdx.foldl (fun d (p : Byte × Nat) =>
    if d.allowed g 0 rtWrite (a + p.2) 1 then d.writeOct (a + p.2) [p.1] else d) (d.violation g rtWrite)

/-! ### Functions -/

def CCall.agent (c : CCall) : Nat := if c.att = 0 then agTumbler else agLane
def CCall.is (c : CCall) (att fn : Nat) : Bool := c.att == att && c.fn == fn

/-- R274, R277: the functions that attachments 0 and 1 define. -/
def cryptoFn (att fn : Nat) : Bool :=
  (att == 0 && decide (1 ≤ fn) && decide (fn ≤ 3)) || (att == 1 && decide (1 ≤ fn) && decide (fn ≤ 10))

/-- The function names `KEY1`. -/
def CCall.keyed (c : CCall) : Bool := !(c.is 1 7 || c.is 1 10)
/-- The function names `KEY2`. -/
def CCall.keyed2 (c : CCall) : Bool := c.is 1 8 || c.is 1 9
/-- Verify functions and `GCM_OPEN` (R272). -/
def CCall.verifies (c : CCall) : Bool := c.is 0 2 || c.is 0 3 || c.is 1 2 || c.is 1 4 || c.is 1 6

/-- The hash of a call: `VARIANT`, or the key's default (R270). -/
def hashOf (v : Nat) (k : Option KeyRec) : Nat :=
  if v ≠ 0 then v else match k with
    | some k => if aAlg k.attr = algEcc && aSize k.attr = 1 then 2 else 1
    | none => 1

def isEd (k : KeyRec) : Bool := aAlg k.attr == algEcc && aSize k.attr == 2

/-- Signature length of a key (R274). -/
def sigLen (k : KeyRec) : Nat :=
  if aAlg k.attr = algRsa then rsaLen k.attr else if aAlg k.attr = algEcc && aSize k.attr = 1 then 96 else 64

/-- PIN formats: input and output (R286). -/
def CCall.pinIn (c : CCall) : Nat := pbOct c.block 0
def CCall.pinOut (c : CCall) : Nat := pbOct c.block 1
def CCall.panLen (c : CCall) : Nat := pbOct c.block 2
def pinFmt (f : Nat) : Bool := f == 0 || f == 1 || f == 3 || f == 4
def pinBlockLen (f : Nat) : Nat := if f = 4 then 16 else 8

/-- R286 and R289: a PIN call's block is in range. -/
def CCall.pinOk (c : CCall) : Bool :=
  let f := c.pinIn
  let o := c.pinOut
  let n := c.panLen
  pinFmt f && pinFmt o && (if n = 0 then f == 1 && o == 1 else decide (12 ≤ n) && decide (n ≤ 19))
    && pbInLen c.block == pinBlockLen f && (c.fn == 8 || decide (pbOct c.block 13 ≤ 4))

/-- The octets of output that a call produces, or none where a length is out of range (R274, R277). -/
def CCall.outLen (c : CCall) (k : Option KeyRec) : Option Nat :=
  let b := c.block
  let n := pbInLen b
  let t := pbTagLen b
  let ok (p : Bool) (x : Nat) : Option Nat := if p then some x else none
  if c.att = 0 then
    if c.fn = 1 then some (match k with | some k => sigLen k | none => 0) else some 0
  else match c.fn with
    | 1 => ok (12 ≤ t && t ≤ 16) ((if pbGenIv b then 12 else 0) + n + t)
    | 2 => ok (12 ≤ t && t ≤ 16 && t ≤ n) (n - t)
    | 3 => ok (4 ≤ t && t ≤ 16) t
    | 4 => ok (4 ≤ t && t ≤ 16 && pbAuxLen b == t) 0
    | 5 => ok (10 ≤ t && t ≤ hashLen (hashOf (pbVariant b) none)) t
    | 6 => ok (10 ≤ t && t ≤ hashLen (hashOf (pbVariant b) none) && pbAuxLen b == t) 0
    | 7 => ok (pbVariant b ≠ 0) (hashLen (pbVariant b))
    | 10 => let k := pbField b 0x20 2; ok (1 ≤ k && k ≤ 4096) k
    | _ => ok c.pinOk (pinBlockLen c.pinOut)

/-- The usage and mode of R283. -/
def CCall.usageOk (c : CCall) (k : KeyRec) : Bool :=
  let u := aUsage k.attr
  let f := aFwd k.attr
  let r := aRev k.attr
  if c.att = 0 then if c.fn = 1 then u == uS0 && f else (u == uS0 || u == uPub) && r
  else match c.fn with
    | 1 => u == uD0 && f
    | 2 => u == uD0 && r
    | 3 => u == uM6 && f
    | 4 => u == uM6 && r
    | 5 => u == uM7 && f
    | 6 => u == uM7 && r
    | 8 => u == uP0 && r
    | 9 => (u == uB0 || (u == uB1 && k.ik == (c.block.drop 0x30).take 8)) && r
    | _ => true

/-- The key's algorithm suits the function (R274, R277). -/
def CCall.algOk (c : CCall) (k : KeyRec) : Bool :=
  let a := aAlg k.attr
  if c.att = 0 then if c.fn = 3 then a == algRsa else a == algEcc || a == algRsa
  else match c.fn with
    | 5 => a == algHmac
    | 6 => a == algHmac
    | 8 => a == (if c.pinIn = 4 then algAes else algTdea)
    | 9 => a == algAes && (decide (pbOct c.block 13 < 3) == decide (c.pinIn = 4))
    | _ => a == algAes

/-- R288. -/
def pinMay (f o : Nat) : Bool :=
  if f = 4 then o == 4 else if f = 1 then true else o == 0 || o == 3 || o == 4

/-- The transaction counter of a DUKPT call is invalid (R289). -/
def ctrBad (n : Nat) : Bool :=
  n == 0 || decide (16 < lsum ((List.range 32).map (fun i => b2n (bit n i))))

def CCall.counter (c : CCall) : Nat := beNat ((c.block.drop 0x38).take 4)

/-- The call needs randomness. -/
def CCall.random (c : CCall) (k : Option KeyRec) : Bool :=
  if c.att = 0 then c.fn == 1 && (match k with | some k => !isEd k | none => false)
  else match c.fn with
    | 1 => pbGenIv c.block
    | 8 => c.pinOut != 0
    | 9 => c.pinOut != 0
    | 10 => true
    | _ => false

/-- R272: the causes found before the operation starts, in their order; 0 where there is none. -/
def Dev.callCheck (d : Dev) (c : CCall) (k1 k2 : Option KeyRec) : Nat :=
  let b := c.block
  let ed := c.att == 0 && (match k1 with | some k => isEd k | none => false)
  if c.keyed && !d.ringReady then 9
  else if (pbVariant b == 7 && !ed) || 65536 < pbInLen b || 65536 < pbOutCap b || 65536 < pbAuxLen b then 4
  else match c.outLen k1 with
    | none => 4
    | some n =>
      if pbOutCap b < n then 4
      else if (c.keyed && k1.isNone) || (c.keyed2 && k2.isNone) then 1
      else if !(k1.all c.usageOk && k2.all (fun k => aUsage k.attr == uP0 && aFwd k.attr)) then 2
      else if !(k1.all c.algOk && k2.all (fun k => aAlg k.attr == (if c.pinOut = 4 then algAes else algTdea))) then 3
      else if c.keyed2 && !pinMay c.pinIn c.pinOut then 6
      else if c.is 1 9 && ctrBad c.counter then 7
      else if c.random k1 && !d.drbgOn (if c.att = 0 then drbgTumbler else drbgLane) then 8
      else 0

/-! ### Latency (R275, R278) -/

/-- 0.10 µs for each KiB or part of one beyond the first. -/
def extraNs (n : Nat) : Nat := (n - 1024 + 1023) / 1024 * 100

/-- The uncontended latency of a call in ns. -/
def CCall.latency (c : CCall) (k : Option KeyRec) : Nat :=
  let b := c.block
  if c.att = 0 then
    let (s, v) := match k with
      | some k => match aAlg k.attr, aSize k.attr with
        | 3, 0 => (60, 110)
        | 3, 1 => (140, 260)
        | 3, _ => (45, 90)
        | _, 0 => (1600, 40)
        | _, 1 => (4800, 80)
        | _, _ => (10500, 140)
      | none => (0, 0)
    (if c.fn = 1 then s else v) * 1000 + extraNs (pbInLen b)
  else match c.fn with
    | 8 => 2400
    | 9 => 4000
    | 10 => 900 + extraNs (pbField b 0x20 2)
    | _ => 900 + extraNs (pbInLen b + pbAuxLen b)

/-! ### Slots and queues (R273) -/

/-- The graph slots of an engine or a lane. -/
def graphSlots (att : Nat) : Nat := if att = 0 then 8 else 64
/-- The key of slot `i` of engine or lane `u`. -/
def cslotKey (att u i : Nat) : Nat := (if att = 0 then 0 else 0x10000) + u * 64 + i
/-- The attachment of a slot key. -/
def cslotAtt (k : Nat) : Nat := if k < 0x10000 then 0 else 1
def Dev.unitsOf (d : Dev) (att : Nat) : Nat := if att = 0 then d.engines else d.lanes

/-- A slot key names a graph slot that the configuration has. -/
def Dev.cslotOk (d : Dev) (k : Nat) : Bool :=
  decide (k % 0x10000 / 64 < d.unitsOf (cslotAtt k)) && decide (k % 64 < graphSlots (cslotAtt k)) && decide (k < 0x20000)

/-- Octets of the calls in the slots of a unit. -/
def Dev.unitOctets (d : Dev) (att u : Nat) : Nat :=
  lsum ((d.cry.slots.filter (fun (e : Nat × CSlot) => cslotAtt e.1 == att && e.1 % 0x10000 / 64 == u)).map
    (fun (e : Nat × CSlot) => pbInLen e.2.call.block + pbAuxLen e.2.call.block))

/-- A free slot of a unit. -/
def Dev.unitFree (d : Dev) (att u : Nat) : Option Nat :=
  ((List.range (graphSlots att)).map (cslotKey att u)).find? (fun k => (tget? d.cry.slots k).isNone)

/-- The free slot that an arriving call takes: of the unit with the fewest octets, the lowest-numbered one. -/
def Dev.pickSlot (d : Dev) (att : Nat) : Option Nat :=
  (minBy (d.unitOctets att) ((List.range (d.unitsOf att)).filter (fun u => (d.unitFree att u).isSome))).bind (d.unitFree att)

/-- The queue of a unit class. -/
def Dev.cqueue (d : Dev) (att : Nat) : List CCall := if att = 0 then d.cry.tq else d.cry.lq
def Dev.setCqueue (d : Dev) (att : Nat) (l : List CCall) : Dev :=
  if att = 0 then { d with cry := { d.cry with tq := l } } else { d with cry := { d.cry with lq := l } }

/-- Behind the calls of the same or a higher priority. -/
def insCall (c : CCall) : List CCall → List CCall
  | [] => [c]
  | x :: r => if x.req.pri < c.req.pri then c :: x :: r else x :: insCall c r

/-- A call that cannot be performed (R272). -/
def Dev.callFail (d : Dev) (c : CCall) (detail : Nat) : Dev := (d.bump 0x5032 detail).hubExc c.agent c.req 6 detail

/-- A call's slot begins: keys fetched (R285), checks, and the operation starts. -/
def Dev.beginCall (d : Dev) (k : Nat) (c : CCall) : Dev :=
  let (k1, d) := if c.keyed && d.ringReady then d.fetchKey (pbKey1 c.block) else (none, d)
  let (k2, d) := if c.keyed2 && d.ringReady then d.fetchKey (pbKey2 c.block) else (none, d)
  let e := d.callCheck c k1 k2
  if e ≠ 0 then d.callFail c e
  else { d with cry := { d.cry with slots := tset d.cry.slots k ⟨c, true, d.up + c.latency k1, k1, k2⟩ } }

/-- A call of attachment 0 or 1 reaches its unit class: the attachment's token check, the parameter block, a slot or the
queue. -/
def Dev.cryptoCall (d : Dev) (att fn g : Nat) (r : Req) (p : Nat) : Dev :=
  let ag := if att = 0 then agTumbler else agLane
  match d.checkTok 0x03 (faultLoc 7 ag) (mkTok (mkTag r.ctx r.gen r.iter r.node 0) p kWord 0) with
  | (none, d) => d
  | (some t, d) =>
    let p := tValue t
    if d.held 6 then (d.bump 0x5032 9).hubExc ag r 6 9
    else if !d.areaOk g rtRead p 64 then (d.violation g rtRead).hubWord ag r 0
    else match d.readOct 0 p 64 with
      | (none, d) => (d.bump 0x6010 4).hubExc ag r 7 4
      | (some b, d) =>
        let c : CCall := ⟨att, fn, r, g, b, d.up⟩
        match (if (d.cqueue att).isEmpty then d.pickSlot att else none) with
        | some k => d.beginCall k c
        | none => (d.setCqueue att (insCall c (d.cqueue att))).bump (0x5030 + att) 2

/-- CRYPTO_SLOT_START (R273): the head of the queue takes a free slot. -/
def Dev.slotStart (d : Dev) (k : Nat) : Dev :=
  let att := cslotAtt k
  if !d.cslotOk k || (tget? d.cry.slots k).isSome then d
  else match d.cqueue att with
    | [] => d
    | c :: r => (d.setCqueue att r).beginCall k c

/-! ### Signatures (R274) -/

def Dev.sigSign (d : Dev) (k : KeyRec) (h : Nat) (m : List Byte) : List Byte × Dev :=
  if aAlg k.attr = algRsa then
    let n := rsaLen k.attr
    let (salt, d) := d.generate drbgTumbler (hashLen h)
    let em := pssEncode h (8 * n) m salt
    (beOctets n (modExp (beNat em) (beNat (k.sec.drop n)) (beNat (k.sec.take n))), d)
  else if isEd k then (edSign k.sec m, d)
  else
    let c := curveOf k.attr
    let (o, d) := d.generate drbgTumbler (c.len + 8)
    (ecdsaSign c (beNat k.sec) (1 + beNat o % (c.n - 1)) (hashBy h m), d)

def sigVerify (k : KeyRec) (h : Nat) (m s : List Byte) : Bool :=
  if s.length ≠ sigLen k then false
  else if aAlg k.attr = algRsa then
    let n := rsaLen k.attr
    decide (beNat s < beNat (k.pub.take n))
      && pssVerify h (8 * n) m (rsaPub (beNat (k.pub.take n)) (beNat (k.pub.drop n)) n s)
  else if isEd k then edVerify k.pub m s
  else ecdsaVerify (curveOf k.attr) k.pub (hashBy h m) s

def sigVerifyV15 (k : KeyRec) (h : Nat) (m s : List Byte) : Bool :=
  let n := rsaLen k.attr
  s.length == n && decide (beNat s < beNat (k.pub.take n))
    && rsaPub (beNat (k.pub.take n)) (beNat (k.pub.drop n)) n s == v15Encode h n m

/-! ### PIN blocks (R286–R288, ISO 9564-1) -/

def nibbles (l : List Byte) : List Nat := l.flatMap (fun b => [b.toNat / 16, b.toNat % 16])
def ofNibbles : List Nat → List Byte
  | a :: b :: r => BitVec.ofNat 8 (16 * a + b) :: ofNibbles r
  | _ => []

/-- The PAN digits that a call gives. -/
def CCall.pan (c : CCall) : List Nat := (nibbles ((pbInline c.block).drop 3 |>.take 10)).take c.panLen

/-- The PAN field of formats 0 and 3: the twelve digits before the check digit. -/
def panField (pan : List Nat) : List Byte :=
  let x := pan.take (pan.length - 1)
  let t := x.drop (x.length - 12)
  ofNibbles ([0, 0, 0, 0] ++ List.replicate (12 - t.length) 0 ++ t)

/-- The PAN field of format 4. -/
def panField4 (pan : List Nat) : List Byte :=
  ofNibbles ((pan.length - 12) :: (pan ++ List.replicate (31 - pan.length) 0))

/-- Decrypt a PIN block to its clear PIN field. -/
def pinOpen (f : Nat) (key : List Byte) (pan : List Nat) (b : List Byte) : List Byte :=
  if f = 4 then aesDec key (xorOct (aesDec key b) (panField4 pan))
  else if f = 1 then tdeaDec key b
  else xorOct (tdeaDec key b) (panField pan)

/-- R287: the PIN digits of a clear field, if it is well-formed. -/
def pinDigits (f : Nat) (field : List Byte) : Option (List Nat) :=
  let n := (nibbles field).take 16
  let len := n.getD 1 0
  let pin := (n.drop 2).take len
  let fill := n.drop (2 + len)
  let fillOk (x : Nat) : Bool := if f = 0 then x == 15 else if f = 3 then decide (10 ≤ x) else if f = 4 then x == 10 else true
  if n.getD 0 16 == f && decide (4 ≤ len) && decide (len ≤ 12) && pin.all (fun x => decide (x < 10)) && fill.all fillOk then some pin
  else none

/-- Build a PIN block; `rnd` are 16 octets of the DRBG. -/
def pinSeal (f : Nat) (key : List Byte) (pan pin : List Nat) (rnd : List Byte) : List Byte :=
  let n := 14 - pin.length
  let r := rnd.map (·.toNat)
  let fill := if f = 0 then List.replicate n 15
    else if f = 1 then (r.take n).map (· % 16)
    else if f = 3 then (r.take n).map (fun x => 10 + x % 6)
    else List.replicate n 10
  let field := ofNibbles ([f, pin.length] ++ pin ++ fill)
  if f = 4 then aesEnc key (xorOct (aesEnc key (field ++ rnd.take 8)) (panField4 pan))
  else if f = 1 then tdeaEnc key field
  else tdeaEnc key (xorOct field (panField pan))

/-! ### AES DUKPT (R289, ANSI X9.24-3-2017) -/

/-- Algorithm code and length in bits of a working key type (octet 13). -/
def dukptAlg (t : Nat) : Nat × Nat :=
  match t with | 0 => (2, 128) | 1 => (3, 192) | 2 => (4, 256) | 3 => (0, 128) | _ => (1, 192)

/-- The type of an AES key of a length in octets. -/
def aesType (n : Nat) : Nat := if n = 16 then 0 else if n = 24 then 1 else 2

/-- Derive a key of type `t` for a usage from derivation data's last eight octets. -/
def dukptDerive (key : List Byte) (usage t : Nat) (tail : List Byte) : List Byte :=
  let (al, bitsN) := dukptAlg t
  let data (i : Nat) : List Byte :=
    [1, BitVec.ofNat 8 i] ++ beOctets 2 usage ++ beOctets 2 al ++ beOctets 2 bitsN ++ tail
  ((upFrom 1 ((bitsN + 127) / 128)).flatMap (fun i => aesEnc key (data i))).take (bitsN / 8)

/-- The initial key of a device from the base derivation key. -/
def dukptInitial (bdk ikId : List Byte) : List Byte := dukptDerive bdk 0x8001 (aesType bdk.length) ikId

/-- The PIN encryption working key for a counter. -/
def dukptPin (ik ikId : List Byte) (ctr t : Nat) : List Byte :=
  let dev := ikId.drop 4
  let ty := aesType ik.length
  let (k, _) := ((List.range 32).reverse).foldl (fun (a : List Byte × Nat) i =>
    if bit ctr i then
      let w := a.2 + 2 ^ i
      (dukptDerive a.1 0x8000 ty (dev ++ beOctets 4 w), w)
    else a) (ik, 0)
  dukptDerive k 0x1000 t (dev ++ beOctets 4 ctr)

/-- The key under which a PIN call's input block stands. -/
def CCall.pinKey (c : CCall) (k : KeyRec) : List Byte :=
  if c.fn = 8 then k.sec
  else
    let id := (c.block.drop 0x30).take 8
    dukptPin (if aUsage k.attr = uB0 then dukptInitial k.sec id else k.sec) id c.counter (pbOct c.block 13)

/-! ### Completion (R272) -/

/-- What an operation comes to: a failure, or its output, its result word and whether a check failed. -/
inductive CallEnd where
  | fail (detail : Nat)
  | done (out : List Byte) (value : Nat) (bad : Bool)

/-- A check that passed or failed. -/
def verdict (out : List Byte) (ok : Bool) : CallEnd := .done out (b2n ok) (!ok)
/-- Output of a function that is no verify function. -/
def produced (out : List Byte) : CallEnd := .done out out.length false

/-- The operation of a call over its input and auxiliary octets. -/
def Dev.callRun (d : Dev) (c : CCall) (k k2 : KeyRec) (m aux : List Byte) : CallEnd × Dev :=
  let b := c.block
  let t := pbTagLen b
  let h := hashOf (pbVariant b) (some k)
  if c.att = 0 then
    match c.fn with
    | 1 => let (s, d) := d.sigSign k h m; (produced s, d)
    | 2 => (verdict [] (sigVerify k h m aux), d)
    | _ => (verdict [] (sigVerifyV15 k h m aux), d)
  else match c.fn with
    | 1 =>
      let (iv, d) := if pbGenIv b then d.generate drbgLane 12 else ((pbInline b).take 12, d)
      let (ct, tag) := gcmSeal k.sec iv aux m
      (produced ((if pbGenIv b then iv else []) ++ ct ++ tag.take t), d)
    | 2 =>
      let n := m.length - t
      match gcmOpen k.sec ((pbInline b).take 12) aux (m.take n) (m.drop n) with
      | some p => (verdict p true, d)
      | none => (verdict (List.replicate n 0) false, d)
    | 3 => (produced ((cmac k.sec m).take t), d)
    | 4 => (verdict [] ((cmac k.sec m).take t == aux), d)
    | 5 => (produced ((hmacBy h k.sec m).take t), d)
    | 6 => (verdict [] ((hmacBy h k.sec m).take t == aux), d)
    | 7 => (produced (hashBy (pbVariant b) m), d)
    | 10 => let (o, d) := d.generate drbgLane (pbField b 0x20 2); (produced o, d)
    | _ =>
      match pinDigits c.pinIn (pinOpen c.pinIn (c.pinKey k) c.pan m) with
      | none => (.fail 5, d)
      | some pin =>
        let (rnd, d) := if c.pinOut = 0 then ([], d) else d.generate drbgLane 16
        (produced (pinSeal c.pinOut k2.sec c.pan pin rnd), d)

/-- CRYPTO_CALL_COMPLETE (R272): the call of a slot ends once its latency has passed. -/
def Dev.callComplete (d : Dev) (k : Nat) : Dev :=
  match tget? d.cry.slots k with
  | none => d
  | some s =>
    if d.up < s.done then d
    else
      let c := s.call
      let free (d : Dev) : Dev := ({ d with cry := { d.cry with slots := terase d.cry.slots k } }).endDeletes
      match d.areaRead c.graph (pbInEa c.block) (pbInLen c.block) with
      | (none, d) => (free (d.bump 0x6010 4)).hubExc c.agent c.req 7 4
      | (some m, d) => match d.areaRead c.graph (pbAuxEa c.block) (pbAuxLen c.block) with
        | (none, d) => (free (d.bump 0x6010 4)).hubExc c.agent c.req 7 4
        | (some aux, d) =>
          match d.callRun c (s.key1.getD keyRecInit) (s.key2.getD keyRecInit) m aux with
          | (.fail e, d) => (free d).callFail c e
          | (.done o v bad, d) =>
            let d := (free (d.areaWrite c.graph (pbOutEa c.block) o)).bump (0x5030 + c.att) 1
            let d := if bad then d.bump 0x5033 1 else d
            d.hubWord c.agent c.req v

/-- The tag octets of a composer MAC source (R265, R283): none where the key does not permit it. -/
def Dev.macSource (d : Dev) (h : Nat) (m : List Byte) (n : Nat) : Option (List Byte) × Dev :=
  if !d.ringReady then (none, d)
  else match d.fetchKey h with
    | (none, d) => (none, d)
    | (some k, d) =>
      if aUsage k.attr = uM6 && aFwd k.attr then (some ((cmac k.sec m).take n), d.bump 0x5031 1)
      else if aUsage k.attr = uM7 && aFwd k.attr then (some ((hmac256 k.sec m).take n), d.bump 0x5031 1)
      else (none, d)

/-! ### Meanings -/

/-- CRYPTO_SLOT_START (R273). -/
def execCryptoSlotStart (slot : Nat) (s : State) : Res := s.act (fun d => d.slotStart slot)
/-- CRYPTO_CALL_COMPLETE (R272). -/
def execCryptoCallComplete (slot : Nat) (s : State) : Res := s.act (fun d => d.callComplete slot)

end Sys2Proof.Machine
end

