-- ==== Sys2Proof/Machine/Keyway.lean ====
section
/-! DEFINITION. The keyway and the timer wheel (R102, R103, R125, R130–R142): taking signals, the decision, replies, lexing
into a context, due times, drain ticks, pace windows, forced stand-in. -/

namespace Sys2Proof.Machine

/-! ### What closes admission -/

/-- A deadbolt action of a source is in force. -/
def Dev.deadbolt (d : Dev) (p : Nat → Bool) : Bool := d.flt.srcs.any (fun (e : Nat × FSrc) => e.2.st == .deadbolted && p e.2.action)

/-- The stacks of HBM, and every one's PHY running (R429): `BLOCK_STATE` entries from 1 on. -/
def Dev.stacks (d : Dev) : Nat := d.xs 8 2
def Dev.hbmUp (d : Dev) : Bool := (List.range d.stacks).all (fun i => d.pwr.bs.getD (i + 1) 0 == 2)

/-- R393, R301, R425, R429: every message is rejected with code 0x01. -/
def Dev.keyClosed (d : Dev) : Bool :=
  !d.flag 0x3000 1 || d.jnl.closed || d.flt.resetPending || d.deadbolt (fun a => a == 2 || a == 3)
    || d.pwr.cr != .idle || d.pwr.phase != .running || !d.hbmUp || d.held 1

/-- R393 action 1: a location names a cluster position. -/
def locNames (loc k : Nat) : Bool :=
  if loc / 2 ^ 28 = 1 then loc == posLoc k else if loc / 2 ^ 28 = 2 then loc % 2 ^ 28 == k / 34 else true

/-- R387, R393, R400: credit 0 for a position whatever its pace. -/
def Dev.noCredit (d : Dev) (k : Nat) : Bool :=
  let p := d.pos k
  p.st != .inService || p.isolated || p.short || d.fab.stallHold.contains (k / 34)
    || d.flt.srcs.any (fun (e : Nat × FSrc) => e.2.st == .deadbolted && e.2.action == 1 && locNames e.2.loc k)

/-- Code 0x06 for a position: in shortfall (R103, R139), named by a deadbolt action 1 (R393), or failed with no takeover
to come (R402). -/
def Dev.starved (d : Dev) (k : Nat) : Bool :=
  let p := d.pos k
  p.short || (p.st == .failed && !d.pwr.takeQ.any (fun t => t.1 == k))
    || d.flt.srcs.any (fun (e : Nat × FSrc) => e.2.st == .deadbolted && e.2.action == 1 && locNames e.2.loc k)

/-- Code 0x06: a mapped logical cluster has no position, or one that is starved. -/
def Dev.shortOf (d : Dev) (g : Nat) : Bool :=
  (d.mappedOf g).any (fun lc => match d.posOf lc with | some k => d.starved k | none => true)

/-! ### Selection (R130) -/

/-- A partner's selection entry. -/
def Dev.selEntry (d : Dev) (p i : Nat) : Nat := tget 0 d.key.sel (p * 64 + i)

/-- The lowest-numbered used entry that a type code matches. -/
def Dev.select (d : Dev) (p code : Nat) : Option Nat :=
  (List.range 64).findSome? (fun i =>
    let w := d.selEntry p i
    if bits w 31 30 ≠ 0 && code &&& bits w 47 32 = bits w 63 48 then some w else none)

def selAction (w : Nat) : Nat := bits w 31 30
def selTpl (w : Nat) : Nat := bits w 29 22
def selReject (w : Nat) : Nat := bits w 21 14

/-! ### The decision (R131–R138) -/

/-- The ingress instant that a decision counts from: the record's, or the moment of the take (log 46). -/
def Dev.from_ (d : Dev) (c : Desc) : Nat := if c.eor then c.ingressNs else d.tai

/-- The lateness of a decision (R132). -/
def Dev.lateness (d : Dev) (c : Desc) : Nat := if c.eor then d.tai - c.ingressNs - 300 else 0

/-- The life that an accepted message begins. -/
def Dev.newLife (d : Dev) (c : Desc) (r t ctx lc : Nat) : Life :=
  let o := d.tpl t
  { ctx := ctx, gen := d.gen ctx, tpl := t, graph := tGraph o, partner := c.partner, ring := r, session := c.session,
    home := lc, st := .armed, ingress := d.from_ c, arrived := c.eor, ddlUs := tInternal o,
    due := dueTime (d.from_ c) (tInternal o) (tStandin o), fb := fbPoint (d.from_ c) (tInternal o), timer := true,
    charge := some (d.mkCharge (tClass o) (d.shares t).1 (cdiv (tFixed o) 1000)), commit := tPre o,
    forwarded := false, byStandin := false, respNs := none, respDone := false, flags := 0, app := [],
    typeCode := c.typeCode, lexing := true, refusal := none, retCtx := 0, match_ := tMatch o, spill := tSpill o }

/-- Any ready queue of a mapped cluster that R101 looks at is Above. -/
def Dev.rqAbove (d : Dev) (g cls : Nat) : Bool :=
  (d.mappedPos g).any (fun k => (upFrom cls (8 - cls)).any (fun p => ((d.pos k).queue p).above))

/-- Codes 0x06 and 0x09–0x10, in order, for a message of template `t` on ring pair `ring`; 0 where none holds. -/
def Dev.admitCode (d : Dev) (t ring late start : Nat) : Nat :=
  let o := d.tpl t
  let g := tGraph o
  let com := d.committed
  if !(d.fab.mOpen && decide (tMatch o ≤ d.ovfUnreserved)) then 0x09
  else if !(d.fab.sOpen && decide (tSpill o ≤ d.spillUnreserved)) then 0x0A
  else if d.rqAbove g (tClass o) then 0x0B
  else if (d.egr ring).q.above then 0x0C
  else if !(d.dueRoom ctxCount (dueTime start (tInternal o) (tStandin o)) && d.fbRoom ctxCount (fbPoint start (tInternal o))) then 0x0D
  else if !d.backlogOk g (tClass o) (d.shares t).1 (tplAllowance o - late) then 0x0E
  else if !(budgetOk com.1 (tPre o).1 (d.obj 0x3002 1) && budgetOk com.2.1 (tPre o).2.1 (d.obj 0x3002 2)) then 0x0F
  else if !budgetOk com.2.2 (tPre o).2.2 (d.obj 0x3002 3) then 0x10
  else 0

/-- Codes 0x06 to 0x10 of R134 for a message of template `t`, and the life that an accepted one begins. -/
def Dev.admission (d : Dev) (c : Desc) (r t : Nat) : Except Nat (Life × Nat × Nat) :=
  let g := tGraph (d.tpl t)
  if d.shortOf g then .error 0x06
  else match d.freeHead with
    | none => .error 0x07
    | some ctx => match d.pickHome g ctx with
      | none => .error 0x08
      | some (i, lc) =>
        match d.admitCode t (cfgRing (d.sess c.session).cfg) (d.lateness c) (d.from_ c) with
        | 0 => .ok (d.newLife c r t ctx lc, i, lc)
        | e => .error e

/-- Change the head descriptor of a ring. -/
def Dev.modHead (d : Dev) (r : Nat) (f : Desc → Desc) : Dev :=
  match (d.ing r).descs with
  | c :: rest => d.setIng r { d.ing r with descs := f c :: rest }
  | [] => d

/-- What the reject lane needs of a message turned away with a code (R135). -/
def Dev.rejectOf (d : Dev) (c : Desc) (r code rt : Nat) : Reject :=
  let early := !c.eor && !c.aborted
  ⟨r, c.session, c.partner, rt, code, (d.ing r).octetsOf 0, c.typeCode, if early then d.tai else c.ingressNs, early, d.tai⟩

/-- The counts of a message turned away (R131 step 5, R146). -/
def Dev.countReject (d : Dev) (code : Nat) (tpl : Option Nat) : Dev :=
  let d := ((d.bump 0x3000 3).bump 0x3010 code).hubEvent 0x41 code
  match tpl with | some t => d.bump (0x3100 + t) 7 | none => d

/-- A message turned away (R135): counted, handed to the reject lane, its record released. `tpl` is the template selected. -/
def Dev.rejectMsg (d : Dev) (c : Desc) (r code rt : Nat) (tpl : Option Nat) : Dev :=
  let d := d.countReject code tpl
  ({ d with key := { d.key with rejects := d.key.rejects ++ [d.rejectOf c r code rt] } }).settle

/-- A message accepted (R39, R131): reservations, charge, commitments and timer at once; the record passes to the lexer. -/
def Dev.acceptMsg (d : Dev) (r t : Nat) (l : Life) (i lc : Nat) (c : Desc) : Dev :=
  let d := d.allocate l i lc
  let d := (((d.bump 0x3000 2).bump (0x3100 + t) 6).hubEvent 0x40 t)
  let d := { d with ses := { d.ses with binding := tset d.ses.binding l.ctx c.session } }
  d.modHead r (fun c => { c with owner := some (l.ctx, l.gen), graph := l.graph })

/-- The selection entry of a message (R130). -/
def Dev.chosen (d : Dev) (c : Desc) : Option Nat := if c.typeOk then d.select c.partner c.typeCode else none

/-- The template that the entry selects for a new context. -/
def Dev.chosenTpl (d : Dev) (c : Desc) : Option Nat :=
  match d.chosen c with | some w => if selAction w = 1 then some (selTpl w) else none | none => none

/-- A decision late by R132 is counted, and the worst lateness kept. -/
def Dev.lateBy (d : Dev) (late : Nat) : Dev :=
  if late = 0 then d else (d.bump 0x3000 5).peak 0x3000 6 (min late 0xFFFFFFFF)

/-- The lateness of a decision on a message that selects a template noted. -/
def Dev.noteLate (d : Dev) (c : Desc) : Dev := d.lateBy (if (d.chosenTpl c).isSome then d.lateness c else 0)

/-- The reject template of a message (R135): that of the selected template, or the partner's default. -/
def Dev.rejectTpl (d : Dev) (c : Desc) (tpl : Option Nat) : Nat :=
  match tpl with | some t => tReject (d.tpl t) | none => ptrReject (d.partner c.partner)

/-- The request path of the decision on a message, its lateness noted. -/
def Dev.decideNow (d : Dev) (c : Desc) (r : Nat) (w tpl : Option Nat) : Dev :=
  let rt := d.rejectTpl c tpl
  if d.keyClosed then d.rejectMsg c r 0x01 rt tpl
  else if c.aborted || !c.typeOk || 65536 < c.length then d.rejectMsg c r 0x02 rt tpl
  else match w, tpl with
    | none, _ => d.rejectMsg c r 0x03 rt none
    | some w, none => d.rejectMsg c r 0x04 (selReject w) none
    | some _, some t =>
      if (tget? d.key.tpls t).isSome && tMaxLen (d.tpl t) < c.length then d.rejectMsg c r 0x02 rt tpl
      else if !d.tplUsable t || !d.flag (0x3100 + t) 5 then d.rejectMsg c r 0x05 rt tpl
      else match d.admission c r t with
        | .error code =>
          let d := if code = 0x08 then d.requeueHead else d
          d.rejectMsg c r code rt tpl
        | .ok (l, i, lc) => d.acceptMsg r t l i lc c

/-- The request path of the decision. -/
def Dev.decide_ (d : Dev) (c : Desc) (r : Nat) : Dev := (d.noteLate c).decideNow c r (d.chosen c) (d.chosenTpl c)

/-! ### Replies (R21, R35, R130) -/

/-- A reply discarded and journaled as late (R295). The record of a reply to a context under reclamation follows the
purge's (R308). -/
def Dev.lateReply (d : Dev) (c : Desc) (r reason : Nat) : Dev :=
  let j : JRec := { jrec0 with
    lane := if c.corrOk then c.corr / 64 % 16 else c.session % 16, typ := 4, reason := reason, session := c.session,
    partner := c.partner, ring := r, corr := if c.corrOk then c.corr else 0, ingress := if c.eor then c.ingressNs else 0,
    typeCode := c.typeCode, time := d.time80 }
  let dying (x : Reclaim) : Bool := c.corrOk && x.life.ctx == c.corr / 64
  (if d.key.reclaim.any dying then
    { d with key := { d.key with reclaim := d.key.reclaim.map (fun x => if dying x then { x with late := x.late ++ [j] } else x) } }
  else d.journalPut j).settle

/-- A reply delivered to a Parked context: charge and post-reply commitments (R137, R138), the reply token (R35). -/
def Dev.deliverReply (d : Dev) (c : Desc) (r : Nat) (l : Life) : Dev :=
  let o := d.tpl l.tpl
  let l := { l with st := .resumed, commit := tPost o, lexing := true,
                    charge := some (d.mkCharge (tClass o) (d.shares l.tpl).2.1 (cdiv (tResumeLat o) 1000)) }
  let d := d.setLife l
  let (n, p) := match d.frame l.ctx with | some f => (f.resumeNode, f.resumePort) | none => (0, 0)
  let d := d.modHead r (fun c => { c with owner := some (l.ctx, l.gen), graph := l.graph })
  d.hubToken agKeyway (tClass o) (mkTok (mkTag l.ctx l.gen 0 n p) (r * 2 ^ 32 + c.length) kReply 0)

/-- The reply path. -/
def Dev.replyPath (d : Dev) (c : Desc) (r : Nat) : Dev :=
  let d := (d.bump 0x3000 4).hubEvent 0x42 0
  if !c.corrOk then d.lateReply c r 3
  else
    let ctx := c.corr / 64
    if c.corr % 64 ≠ d.gen ctx then d.lateReply c r 1
    else match d.life ctx with
      | some l => if l.st = .parked then d.deliverReply c r l else d.lateReply c r 2
      | none => d.lateReply c r 2

/-- The keyway reads the first cell of the record at `RD` between `MARK` and `REWIND` (R131 step 1); the record is taken. -/
def Dev.readFirst (d : Dev) (r : Nat) : Dev :=
  let x := d.ing r
  let q := match sqReadMarked (d.ringCfg 0x4100 r x.q) (sqMark x.q) with | some (_, q, _) => sqRewind q | none => x.q
  (d.setIng r { x with q := q }).modHead r (fun c => { c with taken := true })

/-- A record that the selection table calls a reply (R130). -/
def Dev.isReply (d : Dev) (c : Desc) : Bool :=
  c.typeOk && !c.aborted && (match d.select c.partner c.typeCode with | some w => selAction w == 2 | none => false)

/-- DRAIN_TICK (R137): every charge is drained up to this microsecond. -/
def Dev.drainTick (d : Dev) : Dev :=
  let now := d.tai / 1000
  { d with key := { d.key with
    lives := d.key.lives.map (fun (e : Nat × Life) => (e.1, e.2.drain now)),
    reclaim := d.key.reclaim.map (fun (r : Reclaim) => { r with life := r.life.drain now }) } }

/-- R133: a pace window that ends in the present 10 ns has not been applied, and the decision waits for it. -/
def Dev.paceDue (d : Dev) : Bool :=
  match d.key.paceAt with
  | some w => decide (d.tai % 1000 < 10 && w < d.tai / 1000)
  | none => false

/-- The serial stage takes messages and link tokens in the order in which they came (R131, R348): the oldest signal is next. -/
def Dev.signalNext (d : Dev) : Bool :=
  match d.key.signals, d.lnk.decide_ with
  | g :: _, x :: _ => decide (g.at_ ≤ x.at_)
  | [], _ => false
  | _, [] => true

/-- KEYWAY_TAKE_SIGNAL (R131): the oldest signal is taken; the first cell is read; the decision. Pace updates and drain
ticks of the same 10 ns come first (R133). -/
def Dev.takeSignal (d : Dev) : Dev :=
  match d.key.signals with
  | [] => d
  | g :: rest =>
    if d.paceDue || !d.signalNext then d
    else
      let e : Dev := Dev.drainTick { d with key := { d.key with signals := rest } }
      match (d.ing g.ring).descs with
      | [] => e
      | c :: _ => if d.isReply c then (e.readFirst g.ring).replyPath c g.ring else (e.readFirst g.ring).decide_ c g.ring

/-! ### Lexing (R258–R262) -/

/-- What the lexer sends of the record at a ring's `RD` into an Active context, from the octets read so far (R258–R262):
the tokens not yet sent, then, at the record's end or at an error, the end of the lexing. -/
def Dev.lexInto (d : Dev) (r : Nat) (c : Desc) (l : Life) (t : List Byte) : Dev :=
  let map := match d.graph c.graph with
    | some g => tget [] g.maps (ptrFormat (d.partner c.partner))
    | none => []
  let pri := tClass (d.tpl l.tpl)
  let m := c.got.drop (ptrSize (d.partner c.partner))
  let ended := (c.eor || c.aborted) && c.unread = 0
  let q := if ended then lexMsg t map m c.aborted else lexPart t map m
  let new := q.1.drop c.sent
  let closed := ended || q.2.isSome
  let d := d.modHead r (fun c => { c with sent := q.1.length, lexed := closed })
  let d := new.foldl (fun d x =>
    d.hubToken agLexer pri (mkTok (mkTag l.ctx l.gen x.iter (x.np / 4) (x.np % 4)) x.v x.kind 0)) d
  let d := d.bumpBy 0x4300 2 new.length
  let d := match q.2 with
    | none => d
    | some (detail, node) =>
      let exc := match d.frame l.ctx with | some f => f.excEntry | none => 0
      (d.bump 0x4300 (2 + detail)).hubExc agLexer ⟨l.ctx, l.gen, 0, node, exc, pri, pri, false, []⟩ 5 detail
  if closed then
    let d := match d.life l.ctx with | some l => d.setLife { l with lexing := false } | none => d
    d.quiesce l.ctx
  else d

/-- LEX_RECORD (R262): the lexer reads what is there of the record at the head of a ring that was accepted, sends its
tokens, and releases it at its `EOR` cell; a writer that waited goes on. -/
def Dev.lexRecord (d : Dev) (r : Nat) : Dev :=
  match (d.ing r).descs with
  | [] => d
  | c :: _ => match c.owner with
    | none => d
    | some (ctx, gen) =>
      let d := d.readRecord r
      let d := match (d.ing r).descs.head?, d.life ctx, d.fmtOf c.partner with
        | some c, some l, some t => if l.gen = gen && !c.lexed then d.lexInto r c { l with ctx := ctx } t else d
        | _, _, _ => d
      (d.takeRecord r).resume r

/-! ### Timer events -/

/-- R140: a due time that has come; it counts from the ingress instant, so the message has arrived. -/
def Life.dueAt (l : Life) (now : Nat) : Bool := l.inDue && l.arrived && decide (l.due ≤ now)

/-- DUE_TIME_EXPIRY (R21, R140): the engine takes due times in their order, so an earlier one goes first. -/
def Dev.dueExpiry (d : Dev) (ctx : Nat) : Dev :=
  match d.life ctx with
  | some l =>
    if l.dueAt d.tai && d.key.lives.all (fun (e : Nat × Life) => !e.2.dueAt d.tai || decide (l.due ≤ e.2.due)) then
      d.deadlineToken l 0
    else d
  | none => d

/-- FORCE_STANDIN (R125): correlation value. -/
def Dev.forceStandin (d : Dev) (v : Nat) : Dev :=
  let ctx := v / 64 % 2 ^ 24
  match d.life ctx with
  | some l => if l.gen = v % 64 && l.inDue then d.deadlineToken l 2 else d.bump 0x2120 3
  | none => d.bump 0x2120 3

/-! ### Pace windows (R102, R103, R136, R139) -/

/-- Guaranteed pace, M firings/s. -/
def guaranteed : Nat := 1000

/-- The window of a cluster's monitor ends with `n` loop periods counted (R102, R103). -/
def Dev.paceOf (d : Dev) (k n : Nat) : Dev :=
  let p := d.pos k
  if p.st ≠ .inService && p.st ≠ .standby then d
  else
    let m := n / 8
    let low := if m < guaranteed then p.lowWin + 1 else 0
    let ok := if m < guaranteed then 0 else p.okWin + 1
    let opens := !p.short && decide (4 ≤ low)
    let short := if opens then true else if p.short && 16 ≤ ok then false else p.short
    let d := d.modPos k (fun p => { p with pace := m, lowWin := low, okWin := if opens then 0 else ok, short := short })
    let d := d.modPos k (fun p => { p with credit := if d.noCredit k then 0 else min guaranteed (85 * m / 100) })
    let d := if m < d.obj 0x2401 2 then d.setObj 0x2401 2 m else d
    if opens then (d.bump 0x2401 1).report 0x18 (posLoc k) else d

/-- PACE_WINDOW_END: every monitor's count of loop periods, by position, once in a microsecond of the timebase. -/
def Dev.paceWindow (d : Dev) (l : List (Nat × Nat)) : Dev :=
  if d.key.paceAt = some (d.tai / 1000) then d
  else
    let d := l.foldl (fun d x => d.paceOf x.1 x.2) d
    let ms := (d.inService).map (fun e => e.2.pace)
    { d with pwr := { d.pwr with minPace := (minBy id ms).getD 0 }, key := { d.key with paceAt := some (d.tai / 1000) } }

/-! ### Meanings -/

/-- KEYWAY_TAKE_SIGNAL (R131). -/
def execKeywayTakeSignal (s : State) : Res := s.act Dev.takeSignal
/-- LEX_RECORD (R262). -/
def execLexRecord (ring : Nat) (s : State) : Res := s.act (fun d => d.lexRecord ring)
/-- DUE_TIME_EXPIRY (R140). -/
def execDueTimeExpiry (ctx : Nat) (s : State) : Res := s.act (fun d => d.dueExpiry ctx)
/-- DRAIN_TICK (R137). -/
def execDrainTick (s : State) : Res := s.act Dev.drainTick
/-- PACE_WINDOW_END (R102). -/
def execPaceWindowEnd (readings : List (Nat × Nat)) (s : State) : Res := s.act (fun d => d.paceWindow readings)
/-- FORCE_STANDIN (R125). -/
def execForceStandin (r : DReq) (s : State) : Res := s.act (fun d => d.command r .forceStandin (fun _ v d => d.forceStandin v))

end Sys2Proof.Machine
end

