-- ==== Sys2Proof/Machine/Compose.lean ====
section
/-! DEFINITION. The composer (R263–R267): templates and sources, ISO 8583 and ISO 20022 records, claims on the timer wheel
(R21), the reject lane (R135), the fallback response (R20, R143), and the end of a response. -/

namespace Sys2Proof.Machine

/-! ### Templates (R264) -/

def ctKind (t : List Byte) : Nat := (t.getD 0 0).toNat
def ctFormat (t : List Byte) : Nat := (t.getD 1 0).toNat
def ctCount (t : List Byte) : Nat := leNat ((t.drop 2).take 2)
def ctPool (t : List Byte) : Nat := leNat ((t.drop 4).take 2)

/-- A template entry. -/
structure CtEnt where
  field : Nat
  src   : Nat
  a     : Nat
  b     : Nat
  deriving DecidableEq, Repr

def ctEntry (t : List Byte) (i : Nat) : CtEnt :=
  let w := leNat ((t.drop (16 + 8 * i)).take 8)
  ⟨bits w 63 56, bits w 55 52, bits w 51 40, bits w 39 28⟩

def ctEntries (t : List Byte) : List CtEnt := (List.range (ctCount t)).map (ctEntry t)

/-! ### Values -/

/-- A composed value: decimal digits, which the field's encoding spells, octets as they are, or a field's octets with the length
that it was received with, in the units of its prefix. -/
inductive CVal where
  | digits (l : List Nat)
  | octets (l : List Byte)
  | echo (l : List Byte) (n : Nat)
  deriving DecidableEq, Repr

/-- The decimal digits of a number, at least one. -/
def decDigits (v : Nat) : List Nat :=
  let l := ((List.range 40).map (fun i => v / 10 ^ i % 10)).reverse
  match l.dropWhile (· == 0) with | [] => [0] | r => r

/-- Exactly `n` digits of a number, the last ones. -/
def fixDigits (n v : Nat) : List Nat := (List.range n).reverse.map (fun i => v / 10 ^ i % 10)

/-- Digits in ASCII (0) or EBCDIC (1). -/
def digitText (enc : Nat) (l : List Nat) : List Byte :=
  l.map (fun x => BitVec.ofNat 8 ((if enc = 1 then 0xF0 else 0x30) + x))

/-- Digits in packed BCD, an odd count padded by a leading zero. -/
def digitBcd (l : List Nat) : List Byte := ofNibbles (if l.length % 2 = 1 then 0 :: l else l)

/-- Octets that spell a number in binary, at least one. -/
def binOctets (v : Nat) : List Byte :=
  match (beOctets 8 v).dropWhile (· == 0) with | [] => [0] | r => r

/-- A value's data octets in a field, and the count that its length prefix gives (R256). A fixed field is filled up, digits
with leading zeros and octets with trailing ones, and a value too long is cut. -/
def fieldData (e : FldEnt) (v : CVal) : List Byte × Nat :=
  match v with
  | .digits l =>
    let cap := if e.enc = 2 && !e.unit then 2 * e.max else e.max
    let l := if e.lenType = 0 then List.replicate (cap - l.length) 0 ++ l.drop (l.length - cap) else l.take cap
    let o := match e.enc with
      | 2 => digitBcd l
      | 3 => if e.lenType = 0 then beOctets e.max (numOf 10 l) else binOctets (numOf 10 l)
      | enc => digitText enc l
    (o, if e.unit && e.enc = 2 then l.length else o.length)
  | .octets l =>
    let cap := e.octets e.max
    let o :=
      if e.lenType = 0 then
        if e.enc = 2 then List.replicate (cap - l.length) 0 ++ l.drop (l.length - cap)
        else l.take cap ++ List.replicate (cap - l.length) 0
      else l.take cap
    (o, if e.unit && e.enc = 2 then 2 * o.length else o.length)
  | .echo l n => (l, n)

/-- A length prefix (R256). -/
def lenPrefix (e : FldEnt) (n : Nat) : List Byte :=
  let k := e.lenType + 1
  match e.lenEnc with
  | 2 => digitBcd (fixDigits k n)
  | 3 => beOctets e.lenType n
  | enc => digitText enc (fixDigits k n)

/-- A field as it stands in a message; none where the table leaves it undefined. -/
def fieldOctets (t : List Byte) (n : Nat) (v : CVal) : Option (List Byte) :=
  let e := fmtField t n
  if e.lenType = 3 || n = 0 || n = 1 || n = 65 || 192 < n then none
  else let (o, k) := fieldData e v; some (if e.lenType = 0 then o else lenPrefix e k ++ o)

/-! ### ISO 8583 records -/

/-- The MTI in a table's encoding. -/
def mtiOctets (t : List Byte) (v : Option CVal) : List Byte :=
  match v with
  | some (.octets l) => l
  | some (.echo l _) => l
  | some (.digits l) => if fmtMtiEnc t = 2 then digitBcd l else digitText (fmtMtiEnc t) l
  | none => if fmtMtiEnc t = 2 then digitBcd [0, 0, 0, 0] else digitText (fmtMtiEnc t) [0, 0, 0, 0]

/-- Hexadecimal digits of an 8-octet bitmap in ASCII (1) or EBCDIC (2). -/
def hexText (enc v : Nat) : List Byte :=
  (List.range 16).reverse.map (fun i =>
    let x := v / 16 ^ i % 16
    BitVec.ofNat 8 (if enc = 1 then (if x < 10 then 0x30 + x else 0x37 + x) else (if x < 10 then 0xF0 + x else 0xB7 + x)))

/-- The bitmaps that announce fields `ns`. -/
def bitmapOctets (enc : Nat) (ns : List Nat) : List Byte :=
  let top := ns.foldl max 0
  let k := if top ≤ 64 then 1 else if top ≤ 128 then 2 else 3
  (List.range k).flatMap (fun i =>
    let more := if i + 1 < k then 2 ^ 63 else 0
    let v := more + lsum ((ns.filter (fun n => 64 * i < n && n ≤ 64 * i + 64)).map (fun n => 2 ^ (64 * (i + 1) - n)))
    if enc = 0 then beOctets 8 v else hexText enc v)

/-- A record of the target's format: header octets zero, MTI, bitmaps, fields in order (R264). -/
def build8583 (t : List Byte) (mti : Option CVal) (fs : Tab CVal) : List Byte :=
  let body := fs.filterMap (fun (e : Nat × CVal) => (fieldOctets t e.1 e.2).map (fun o => (e.1, o)))
  List.replicate (fmtHeaderLen t) 0 ++ mtiOctets t mti
    ++ bitmapOctets (fmtBitmapEnc t) (body.map (·.1)) ++ body.flatMap (·.2)

/-- The octets that a MAC field `n` covers from field `b` on: the encoded fields below `n`; from field 0 the MTI and the
bitmaps too. -/
def macCovers (t : List Byte) (mti : Option CVal) (fs : Tab CVal) (b n : Nat) : List Byte :=
  let below := (fs.filter (fun (e : Nat × CVal) => b ≤ e.1 && e.1 < n)).filterMap (fun (e : Nat × CVal) => fieldOctets t e.1 e.2)
  let names := (fs.filter (fun (e : Nat × CVal) => (fieldOctets t e.1 e.2).isSome)).map (·.1)
  (if b = 0 then mtiOctets t mti ++ bitmapOctets (fmtBitmapEnc t) names else []) ++ below.flatten

/-! ### Sources (R265) -/

/-- Octets escaped for XML. -/
def xmlEscape (l : List Byte) : List Byte :=
  l.flatMap (fun b =>
    match b.toNat with
    | 0x26 => ascB "&amp;" | 0x3C => ascB "&lt;" | 0x3E => ascB "&gt;" | 0x22 => ascB "&quot;" | 0x27 => ascB "&apos;"
    | _ => [b])

/-- What a composition draws on: the frame and its graph slot, the correlation value, and the rejected request. -/
structure CIn where
  frame : Option Frame
  graph : Nat
  corr  : Nat
  msg   : Option Reject

/-- The octets of structure memory that a source copies: zeros where the access is not allowed, free where it meets a
poisoned codeword. -/
def Dev.sourceMem (d : Dev) (g a n : Nat) : List Byte × Dev :=
  if n = 0 then ([], d)
  else if !d.allowed g 0 rtRead a n then (List.replicate n 0, d.violation g rtRead)
  else match d.readOct 0 a n with
    | (some l, d) => (l, d)
    | (none, d) => d.draw n

/-- A request's field as a reject echoes it: as received, or its first 64 octets where it has more (R265). -/
def Found.echo (f : Found) : CVal := if f.data.length ≤ 64 then .echo f.data f.len else .octets (f.data.take 64)

/-- The value of a source; none where a request echo finds no field, or the source has no frame or request. -/
def Dev.source (d : Dev) (t : List Byte) (tpl : List Byte) (x : CIn) (e : CtEnt) : Option CVal × Dev :=
  match e.src, x.frame, x.msg with
  | 0, _, _ => (some (.octets ((tpl.drop (ctPool tpl + e.a)).take e.b)), d)
  | 1, some f, _ => (some (.octets (leOctets (max 1 (min e.b 5)) (f.slot e.a))), d)
  | 2, some f, _ => (some (.octets (leOctets (max 1 (min e.b 10)) (f.slot e.a + f.slot (e.a + 1) * 2 ^ 40))), d)
  | 3, some f, _ => (some (.digits (if e.b = 0 then decDigits (f.slot e.a) else fixDigits e.b (f.slot e.a))), d)
  | 4, some f, _ =>
    let (l, d) := d.sourceMem x.graph (f.slot e.a) (min 999 (f.slot e.b))
    (some (.octets l), d)
  | 5, _, _ => (some (.digits (fixDigits 10 x.corr)), d)
  | 6, _, some m =>
    let v := (m.typeCode + 0x10) % 65536
    (some (.digits [v / 4096, v / 256 % 16, v / 16 % 16, v % 16]), d)
  | 7, _, some m =>
    let p := parseMsg t (m.msg.drop (ptrSize (d.partner m.partner)))
    ((p.found.find? (fun f => f.n == e.a)).map Found.echo, d)
  | _, _, _ => (none, d)

/-- The octets of a MAC source; zeros where the key does not permit it. -/
def Dev.sourceMac (d : Dev) (x : CIn) (e : CtEnt) (m : List Byte) (n : Nat) : List Byte × Dev :=
  let h := match x.frame with | some f => f.slot e.a % 65536 | none => 0
  match d.macSource h m n with
  | (some l, d) => (l, d.bump 0x4500 4)
  | (none, d) => (List.replicate n 0, d)

/-- Octets of a MAC field: its length where that is fixed, else 8. -/
def macLen (t : List Byte) (n : Nat) : Nat := let e := fmtField t n; if e.lenType = 0 then e.max else 8

/-- A message in the target's format, without its framing. -/
def Dev.compose (d : Dev) (t tpl : List Byte) (x : CIn) : List Byte × Dev :=
  let es := ctEntries tpl
  if fmtFamily t = 1 then
    es.foldl (fun (a : List Byte × Dev) e =>
      if e.src = 8 then
        let (l, d) := a.2.sourceMac x e a.1 8
        (a.1 ++ l, d)
      else
        let (v, d) := a.2.source t tpl x e
        let o := match v with
          | some (.digits l) => digitText 0 l
          | some (.octets l) => if e.src = 0 then l else xmlEscape l
          | some (.echo l _) => xmlEscape l
          | none => []
        (a.1 ++ o, d)) ([], d)
  else
    let step (a : (Option CVal × Tab CVal) × Dev) (e : CtEnt) : (Option CVal × Tab CVal) × Dev :=
      if e.src = 8 then ((a.1.1, tset a.1.2 e.field (.octets (List.replicate (macLen t e.field) 0))), a.2)
      else match a.2.source t tpl x e with
        | (some v, d) => if e.field = 0 then ((some v, a.1.2), d) else ((a.1.1, tset a.1.2 e.field v), d)
        | (none, d) => (a.1, d)
    let ((mti, fs), d) := es.foldl step ((none, []), d)
    let (fs, d) := (es.filter (fun e => e.src == 8)).foldl (fun (a : Tab CVal × Dev) e =>
      let (l, d) := a.2.sourceMac x e (macCovers t mti a.1 e.b e.field) (macLen t e.field)
      (tset a.1 e.field (.octets l), d)) (fs, d)
    (build8583 t mti fs, d)

/-- A partner's framing before a message (R243). -/
def framed (w : Nat) (m : List Byte) : List Byte :=
  (if ptrAscii w then digitText 0 (fixDigits (ptrSize w) m.length) else beOctets (ptrSize w) m.length) ++ m

/-- A record for partner `p` from composer template slot `t`, written by the format table of the partner, if the template's
kind is one of `kinds`. A call (`own`) needs a template of the partner's format slot (R263); the reject lane and the fallback
point state no such condition (R135, R143, R264). -/
def Dev.composeFor (d : Dev) (own : Bool) (p t : Nat) (kinds : List Nat) (x : CIn) : Option (List Byte × Dev) :=
  let w := d.partner p
  match tget? d.wrd.comps t, d.fmtOf p with
  | some tpl, some fmt =>
    if kinds.contains (ctKind tpl) && (!own || ctFormat tpl = ptrFormat w) then
      let (m, d) := d.compose fmt tpl x
      some (framed w m, d)
    else none
  | _, _ => none

/-! ### Claims (R21, R263) -/

/-- The life of a call's context and generation. -/
def Dev.lifeOf (d : Dev) (ctx gen : Nat) : Option Life :=
  match d.life ctx with | some l => if l.gen = gen then some l else none | none => none

/-- R21: a response claim is accepted. -/
def Life.takesResponse (l : Life) (mark : Bool) : Bool :=
  match l.st with | .armed => true | .resumed => true | .standing => mark | _ => false

/-- R21: a forward claim is accepted. -/
def Life.takesForward (l : Life) : Bool := l.st == .armed || l.st == .resumed

/-- Word 0 with no claim made. -/
def Dev.notSent (d : Dev) (r : Req) : Dev := (d.bump 0x4500 2).hubWord agLexer r 0

/-- How a composer call ends: its claim refused, or not. -/
structure CallDone where
  refused : Bool
  dev     : Dev

/-- `RESPOND` (R263). -/
def Dev.respondCall (d : Dev) (r : Req) (m : Nat) : CallDone :=
  match d.lifeOf r.ctx r.gen with
  | none => ⟨true, d⟩
  | some l =>
    let mark := bit m 8
    match d.composeFor true l.partner (m % 256) [0, 3] ⟨d.frame l.ctx, l.graph, l.ctx * 64 + l.gen, none⟩ with
    | none => ⟨false, d.notSent r⟩
    | some (o, d') =>
      if !l.takesResponse mark then ⟨true, d⟩
      else
        let ok := (d'.sess l.session).st == .opened && d'.egRoom l.ring o.length
        let l := { l.release with st := .claimed, timer := false, respNs := if ok then some d.tai else none, respDone := !ok,
                                  flags := l.flags ||| (if mark then 2 else 0) ||| (if ok then 0 else 4) }
        let d := d'.setLife l
        if ok then
          let d := (d.egWrite l.ring l.session l.partner (o.length - ptrSize (d.partner l.partner)) o).bump 0x4500 1
          ⟨false, d.hubWord agLexer r 1⟩
        else ⟨false, (d.bump 0x4500 3).hubWord agLexer r 2⟩

/-- `FORWARD` (R263, R144). -/
def Dev.forwardCall (d : Dev) (r : Req) (m s res : Nat) : CallDone :=
  match d.lifeOf r.ctx r.gen with
  | none => ⟨true, d⟩
  | some l =>
    let x := d.sess s
    let p := cfgPartner x.cfg
    let ring := cfgRing x.cfg
    let q := (d.egr ring).q
    if x.st ≠ .opened || !q.on || q.above then ⟨false, d.notSent r⟩
    else match d.composeFor true p (m % 256) [1] ⟨d.frame l.ctx, l.graph, l.ctx * 64 + l.gen, none⟩ with
      | none => ⟨false, d.notSent r⟩
      | some (o, d') =>
        if !d'.egRoom ring o.length then ⟨false, d.notSent r⟩
        else if !tForward (d.tpl l.tpl) then ⟨true, d.bump 0x3040 6⟩
        else if !l.takesForward then ⟨true, d⟩
        else
          let first := l.st == .armed
          let l := { l.release with st := .parked, forwarded := true, flags := l.flags ||| 1 }
          let (l, d) := if first then d'.rearm l else (l, d')
          let d := (d.setLife l).modFrame l.ctx (fun f => { f with
            resumeNode := res / 16 % 2 ^ 20, resumePort := res / 4 % 4, deadlineUs := l.ddlUs })
          let d := (d.egWrite ring s p (o.length - ptrSize (d.partner p)) o).bump 0x4500 1
          ⟨false, d.hubWord agLexer r 1⟩

/-- `SESSION_OF` (R263): the session chosen, 0xFFFF if there is none. -/
def Dev.pickSession (d : Dev) (p : Nat) : Nat × Dev :=
  let ok := (d.ses.ses.filter (fun (e : Nat × Ses) => cfgPartner e.2.cfg == p && e.2.st == .opened
    && (d.egr (cfgRing e.2.cfg)).q.on && !(d.egr (cfgRing e.2.cfg)).q.above)).map (·.1)
  let rot := tget 0 d.ses.rotSes p
  match (ok.find? (fun s => rot ≤ s)).or ok.head? with
  | some s => (s, { d with ses := { d.ses with rotSes := tset d.ses.rotSes p (s + 1) } })
  | none => (0xFFFF, d)

def Dev.sessionOf (d : Dev) (r : Req) (p : Nat) : CallDone :=
  let (s, d) := d.pickSession (p % 4096)
  ⟨false, d.hubWord agLexer r s⟩

/-- A call of attachment 2 (R263): the attachment's token check, then the function. -/
def Dev.composerCall (d : Dev) (fn : Nat) (r : Req) (v : List Nat) : CallDone :=
  let m := v.getD 0 0
  match d.checkTok 0x03 (faultLoc 7 agLexer) (mkTok (mkTag r.ctx r.gen r.iter r.node 0) m kWord 0) with
  | (none, d) => ⟨true, d⟩
  | (some t, d) => match fn with
    | 1 => d.respondCall r (tValue t)
    | 2 => d.forwardCall r (tValue t) (v.getD 1 0 % 65536) (v.getD 2 0)
    | _ => d.sessionOf r (tValue t)

/-! ### The reject lane (R135) -/

/-- REJECT_LANE_WRITE: the oldest waiting reject is written to the egress ring of its session, or found undeliverable. -/
def Dev.rejectLane (d : Dev) : Dev :=
  match d.key.rejects with
  | [] => d
  | j :: rest =>
    let d := { d with key := { d.key with rejects := rest } }
    let rec0 : JRec := { jrec0 with
      lane := j.session % 16, time := d.time80, typ := 3, reason := j.code, flags := if j.early then 0x400 else 0,
      session := j.session, partner := j.partner, ring := j.ring, ingress := j.ingress, typeCode := j.typeCode }
    let out := if (d.sess j.session).st ≠ .opened then none
      else match d.composeFor false j.partner j.tpl [2] ⟨none, 0, 0, some j⟩ with
        | some (o, d') => if d'.egRoom j.ring o.length then some (o, d') else none
        | none => none
    match out with
    | some (o, d) =>
      let d := (d.egWrite j.ring j.session j.partner (o.length - ptrSize (d.partner j.partner)) o).bump 0x4500 1
      d.journalPut { rec0 with resp := some (d.tai - j.taken) }
    | none => (d.bump 0x3000 7).journalPut { rec0 with flags := rec0.flags + 0x100 }

/-! ### Fallback point and deadline -/

/-- A life that is not Claimed, at its fallback point (R20, R143): the fallback response is written and the context purged;
a proxy sends its refusal word (R350). -/
def Dev.fallback (d : Dev) (ctx : Nat) : Dev :=
  match d.life ctx with
  | none => d
  | some l =>
    match l.refusal with
    | some x => (d.refuseWord l.partner l.retCtx x (tClass (d.tpl l.tpl)) 2 0).purge l true 0
    | none =>
      match d.composeFor false l.partner (tFallback (d.tpl l.tpl)) [3] ⟨d.frame ctx, l.graph, ctx * 64 + l.gen, none⟩ with
      | some (o, d') =>
        if d'.egRoom l.ring o.length then
          let d := (d'.egWrite l.ring l.session l.partner (o.length - ptrSize (d'.partner l.partner)) o).bump 0x4500 1
          ((d.bump 0x3040 4).hubEvent 0x44 0).purge { l with respNs := some d.tai } true 0
        else d.purge l true 0
      | none => d.purge l true 0

/-- FALLBACK_POINT_EXPIRY. -/
def Dev.fallbackExpiry (d : Dev) (ctx : Nat) : Dev :=
  match d.life ctx with
  | some l => if !l.timer || l.st = .claimed || d.tai < l.fb then d else d.fallback ctx
  | none => d

/-- The ingress instant plus the applicable deadline. -/
def Life.deadline (l : Life) : Nat := l.ingress + l.ddlUs * 1000

/-- DEADLINE_PURGE_EXPIRY (R23): a Claimed context at its deadline. -/
def Dev.deadlinePurge (d : Dev) (ctx : Nat) : Dev :=
  match d.life ctx with
  | some l => if l.st = .claimed && l.deadline ≤ d.tai then d.purge l false 0x200 else d
  | none => d

/-- RESPONSE_LAST_BYTE (R23, R266): the response is complete; the context is purged if it holds no token, or at once
during step 2 of a core reset (R425). -/
def Dev.lastByte (d : Dev) (ctx : Nat) : Dev :=
  match d.life ctx with
  | some l =>
    if l.st = .claimed && l.respNs.isSome then
      let l := { l with respDone := true }
      if d.pwr.cr = .walking then d.purge l false 0 else (d.setLife l).quiesce ctx
    else d
  | none => d

/-! ### Meanings -/

/-- REJECT_LANE_WRITE (R135). -/
def execRejectLaneWrite (s : State) : Res := s.act Dev.rejectLane
/-- FALLBACK_POINT_EXPIRY (R20). -/
def execFallbackPointExpiry (ctx : Nat) (s : State) : Res := s.act (fun d => d.fallbackExpiry ctx)
/-- DEADLINE_PURGE_EXPIRY (R23). -/
def execDeadlinePurgeExpiry (ctx : Nat) (s : State) : Res := s.act (fun d => d.deadlinePurge ctx)
/-- RESPONSE_LAST_BYTE (R266). -/
def execResponseLastByte (ctx : Nat) (s : State) : Res := s.act (fun d => d.lastByte ctx)

end Sys2Proof.Machine
end

