-- ==== Sys2Proof/Machine/Journal.lean ====
section
/-! DEFINITION. The audit journal (R295–R306): lanes, records, chain values, the ring and its export, checkpoints; and host
buffers of the PCIe queue pairs (R355). -/

namespace Sys2Proof.Machine

/-! ### Host buffers (R355, R356) -/

def Dev.qp (d : Dev) (q : Nat) : Qp := tget qpInit d.lnk.qps q

def Dev.modQp (d : Dev) (q : Nat) (f : Qp → Qp) : Dev := { d with lnk := { d.lnk with qps := tmod qpInit d.lnk.qps q f } }

/-- A submission entry completed in the completion ring, which holds its latest `cplLen` entries, signalled on the queue
pair's vector: once for the completions of one instant, which are a batch (R356). -/
def Dev.complete (d : Dev) (q entry st : Nat) : Dev :=
  let d := d.modQp q (fun x =>
    let c := x.cpl ++ [(entry, st)]
    { x with cpl := c.drop (c.length - x.cplLen) })
  if d.lnk.msix.contains (q, d.up) then d else d.msix q

/-- Octets placed in the oldest buffer posted, which is then completed; nothing where none is posted or it is too small. -/
def Dev.hostPut (d : Dev) (q : Nat) (o : List Byte) : Option Dev :=
  match (d.qp q).bufs with
  | (e, n) :: r =>
    if !d.lnk.pcieUp || n < o.length then none
    else
      let d := d.modQp q (fun x => { x with bufs := r })
      some (({ d with lnk := { d.lnk with frames := d.lnk.frames ++ [(q, o)] } }).complete q e 0)
  | [] => none

/-! ### Records (R296) -/

/-- `n` octets: the list, cut or filled with zeros. -/
def padTo (n : Nat) (l : List Byte) : List Byte := (l ++ List.replicate n 0).take n

/-- `RESPONSE_NS`: all ones where nothing was written; zero for a record type that has none. -/
def JRec.respField (r : JRec) : Nat :=
  match r.resp with
  | some v => v
  | none => if r.typ = 1 || r.typ = 2 || r.typ = 3 then 2 ^ 48 - 1 else 0

/-- The 128 octets of a record. -/
def JRec.octets (r : JRec) (seq : Nat) (link : List Byte) : List Byte :=
  leOctets 8 seq ++ leOctets 10 r.time ++ [BitVec.ofNat 8 r.typ, BitVec.ofNat 8 r.reason] ++ leOctets 2 r.flags
    ++ leOctets 2 r.session ++ leOctets 2 (r.partner % 4096) ++ [BitVec.ofNat 8 r.ring, BitVec.ofNat 8 r.tpl]
    ++ leOctets 4 (r.corr % 2 ^ 30) ++ leOctets 8 r.ingress ++ leOctets 6 r.respField ++ leOctets 2 r.typeCode
    ++ padTo 48 ((r.app.take 9).flatMap (leOctets 5)) ++ link.take 16 ++ leOctets 8 r.detail
    ++ [BitVec.ofNat 8 r.actor, BitVec.ofNat 8 r.role] ++ List.replicate 6 0

/-! ### Lanes (R298, R299) -/

/-- The genesis block of a lane. -/
def Dev.genesis (d : Dev) (lane : Nat) : List Byte :=
  leOctets 8 d.jnl.epoch ++ [BitVec.ofNat 8 lane] ++ List.replicate 7 0 ++ padTo 48 d.jnl.genPrev
    ++ padTo 16 d.ident.serial ++ leOctets 10 d.jnl.start ++ List.replicate 38 0

/-- A lane's chain value; one that has appended nothing in the epoch has its genesis value. -/
def Dev.laneH (d : Dev) (l : Nat) : List Byte :=
  let x := tget laneInit d.jnl.lanes l
  if x.h.isEmpty then sha384 (d.genesis l) else x.h

/-- A lane's last `SEQ`. -/
def Dev.laneSeq (d : Dev) (l : Nat) : Nat :=
  let n := (tget laneInit d.jnl.lanes l).seq
  if n = 0 then 0 else l * 2 ^ 60 + n % 2 ^ 60

/-! ### Checkpoints (R303, R304) -/

/-- A checkpoint cut now: octets 0x000–0x3DF, with `PREV_HASH` still zero; it is filled in once the previous one is
finished (R308). -/
def Dev.cut (d : Dev) (cause : Nat) : Dev :=
  let n := d.jnl.ckptNo + 1
  let o := leOctets 8 n ++ leOctets 8 d.jnl.epoch ++ leOctets 8 d.jnl.epochRec ++ leOctets 10 d.time80
    ++ [BitVec.ofNat 8 cause] ++ List.replicate 13 0 ++ List.replicate 48 0
    ++ (List.range 16).flatMap (fun l => leOctets 8 (d.laneSeq l) ++ d.laneH l)
  ({ d with jnl := { d.jnl with ckptNo := n, cuts := d.jnl.cuts ++ [o], sinceCut := 0, cutAt := d.up } }).addJob (.ckpt n)

/-- Checkpoint slots of the seal store (R306). -/
def ckptSlots : Nat := 32768

/-- The private part of the journal key, and its public key (R305). -/
def Dev.jnlPriv (d : Dev) : Nat := 1 + d.ident.jkey % (p384.n - 1)
def Dev.jnlPub (d : Dev) : List Byte := ecPub p384 d.jnlPriv

/-- The oldest cut checkpoint is signed with the journal key and written (R303, R304). The nonce is free. -/
def Dev.ckptWrite (d : Dev) : Dev :=
  match d.jnl.cuts with
  | [] => d
  | o :: r =>
    let n := leNat (o.take 8)
    let (k, d) := d.drawNat (p384.n - 1)
    let b := o.take 0x30 ++ padTo 48 d.jnl.prev ++ o.drop 0x60
    let c := b ++ ecdsaSign p384 d.jnlPriv (1 + k) (sha384 b)
    ({ d with jnl := { d.jnl with
        cuts := r, ckptLast := n, ckpts := tset d.jnl.ckpts (n % ckptSlots) c, prev := sha384 c } }).dropJob (.ckpt n)

/-- CKPT_SIGN_DONE. -/
def Dev.ckptDone (d : Dev) : Dev :=
  match d.jnl.cuts with
  | o :: _ => if d.jobReady (.ckpt (leNat (o.take 8))) then d.ckptWrite else d
  | [] => d

/-- CKPT_INTERVAL_EXPIRY. -/
def Dev.ckptInterval (d : Dev) : Dev :=
  if d.jnl.sinceCut ≠ 0 && decide (d.jnl.cutAt + d.obj 0x7010 2 * 1000000 ≤ d.up) then d.cut 1 else d

/-! ### The ring and its export (R301, R302) -/

/-- Ring records that are free. -/
def Dev.jnlFree (d : Dev) : Nat := d.obj 0x7000 2 - d.jnlUnexported

/-- Records appended and not yet handed to the export path. -/
def Dev.unposted (d : Dev) : Nat := d.jnlUnexported - d.jnl.posted

/-- The next `n` records for the export path, in order. -/
def Dev.exportOctets (d : Dev) (n : Nat) : List Byte :=
  (upFrom (d.jnl.exported + d.jnl.posted) n).flatMap (fun i => tget [] d.jnl.ring (i % max 1 (d.obj 0x7000 2)))

/-- Records per TLS record of mode 2. -/
def tlsRecords : Nat := 32

/-- Hand records to the export path where it takes them: whole host buffers, or TLS records of 32 on the export session. -/
def Dev.exportNext (d : Dev) : Dev :=
  match d.obj 0x7000 8 with
  | 1 => match (d.qp 32).bufs with
    | (_, n) :: _ =>
      let k := n / 128
      if k = 0 || d.unposted < k then d
      else match d.hostPut 32 (d.exportOctets k) with
        | some e => { e with jnl := { e.jnl with posted := e.jnl.posted + k } }
        | none => d
    | [] => d
  | 2 =>
    let s := d.obj 0x7000 9
    if d.unposted < tlsRecords || (d.sess s).st ≠ .opened || txCap < (d.sess s).sndbuf.length + 4096 + tlsOver then d
    else
      let e := d.tlsSend s (d.exportOctets tlsRecords)
      let t := e.sess s
      { e with jnl := { e.jnl with
          posted := e.jnl.posted + tlsRecords, marks := e.jnl.marks ++ [((t.tcb.sndUna + t.sndbuf.length) % 2 ^ 32, tlsRecords)] } }
  | _ => d

/-- A record appended by its lane. -/
def Dev.append (d : Dev) (r : JRec) : Dev :=
  let l := r.lane % 16
  let h := d.laneH l
  let n := (tget laneInit d.jnl.lanes l).seq + 1
  let o := r.octets (l * 2 ^ 60 + n % 2 ^ 60) h
  let cap := max 1 (d.obj 0x7000 2)
  let j := d.jnl
  let d := { d with jnl := { j with
    lanes := tmod laneInit j.lanes l (fun x => { x with seq := n, h := sha384 (h ++ o) }),
    ring := tset j.ring (j.appended % cap) o, appended := j.appended + 1,
    exported := if d.obj 0x7000 8 = 0 then j.appended + 1 else j.exported,
    posted := if d.obj 0x7000 8 = 0 then 0 else j.posted,
    sinceCut := j.sinceCut + 1, epochRec := j.epochRec + 1 } }
  let d := ((d.bump 0x7000 1).hubEvent 0x45 l).jnlState.exportNext
  if 65536 ≤ d.jnl.sinceCut then d.cut 0 else d

/-- A suppressed record is counted with the time of the first one (R301). -/
def Dev.suppress (d : Dev) (r : JRec) : Dev :=
  let k := r.typ * 256 + r.reason
  let v : Nat × Nat := match tget? d.jnl.supp k with | some (n, t) => (n + 1, t) | none => (1, r.time)
  ({ d with jnl := { d.jnl with supp := tset d.jnl.supp k v } }).bump 0x7000 7

/-- The summaries of the suppressed records, once half the margin is free again. -/
def Dev.summaries (d : Dev) : Dev :=
  if d.jnl.supp.isEmpty || d.jnlFree < d.obj 0x7000 4 / 2 then d
  else
    let d' := { d with jnl := { d.jnl with supp := [] } }
    d.jnl.supp.foldl (fun d (e : Nat × (Nat × Nat)) => d.journalPut
      { jrec0 with time := e.2.2, typ := 8, reason := e.1 / 256, detail := e.2.1 % 2 ^ 32 + e.1 % 256 * 2 ^ 32 }) d'

/-- Records that wait for room are appended while there is some. -/
def Dev.waiters (d : Dev) : Nat → Dev
  | 0 => d
  | n + 1 => match d.jnl.waitQ with
    | r :: q => if d.ctxActive < d.jnlFree then Dev.waiters (Dev.append { d with jnl := { d.jnl with waitQ := q } } r) n else d
    | [] => d

/-- Entries of the queue of records that wait. -/
def waitCap : Nat := 256

/-- Room has been made, or was there: what waited for it. -/
def Dev.roomMade (d : Dev) : Dev := (d.waiters waitCap).summaries

/-- JOURNAL_APPEND: the oldest record of a lane. A record that must wait while the queue is full stays in its lane. -/
def Dev.laneAppend (d : Dev) (l : Nat) : Dev :=
  match (tget laneInit d.jnl.lanes l).queue with
  | [] => d
  | r :: q =>
    let pop (d : Dev) : Dev := { d with jnl := { d.jnl with lanes := tmod laneInit d.jnl.lanes l (fun x => { x with queue := q }) } }
    if d.jnlFree < d.ctxActive && [0x03, 0x04, 0x0A].contains r.typ then (pop d).suppress r
    else if d.jnlFree ≤ d.ctxActive && [0x05, 0x06, 0x07, 0x09, 0x0B].contains r.typ then
      if d.jnl.waitQ.length < waitCap then pop { d with jnl := { d.jnl with waitQ := d.jnl.waitQ ++ [r] } } else d
    else ((pop d).append r).roomMade

/-- The exported position advances by `n` records. -/
def Dev.exportAck (d : Dev) (n : Nat) : Dev :=
  let k := min n d.jnlUnexported
  (({ d with jnl := { d.jnl with exported := d.jnl.exported + k, posted := d.jnl.posted - k } }).jnlState.exportNext).roomMade

/-- Mode 2: records whose TLS records TCP has acknowledged in whole. -/
def Dev.tcpAcked (d : Dev) : Nat :=
  let una := (d.sess (d.obj 0x7000 9)).tcb.sndUna
  lsum ((d.jnl.marks.takeWhile (fun m => decide ((una + 2 ^ 32 - m.1) % 2 ^ 32 < 2 ^ 31))).map (·.2))

/-- The marks that stand once `n` records are acknowledged. -/
def dropMarks : Nat → List (Nat × Nat) → List (Nat × Nat)
  | _, [] => []
  | n, (q, k) :: r => if k ≤ n then dropMarks (n - k) r else (q, k - n) :: r

/-- JNL_EXPORT_ACK: of the mode's path, for records that were handed to it; in mode 2 for those that TCP has acknowledged. -/
def Dev.jnlAck (d : Dev) (n : Nat) : Dev :=
  match d.obj 0x7000 8 with
  | 1 => d.exportAck (min n d.jnl.posted)
  | 2 =>
    let k := min n (min d.jnl.posted d.tcpAcked)
    Dev.exportAck { d with jnl := { d.jnl with marks := dropMarks k d.jnl.marks } } k
  | _ => d

/-- JOURNAL_ACK_DOORBELL: the count that the host writes, in mode 1. -/
def Dev.ackDoorbell (d : Dev) (n : Nat) : Dev :=
  if d.lnk.pcieUp && d.obj 0x7000 8 = 1 then d.exportAck (min n d.jnl.posted) else d

/-! ### Meanings -/

/-- JOURNAL_APPEND (R298). -/
def execJournalAppend (lane : Nat) (s : State) : Res := s.act (fun d => d.laneAppend lane)
/-- CKPT_INTERVAL_EXPIRY (R303). -/
def execCkptIntervalExpiry (s : State) : Res := s.act Dev.ckptInterval
/-- CKPT_REQUEST (R303). -/
def execCkptRequest (r : DReq) (s : State) : Res :=
  s.act (fun d => d.command r .ckptRequest (fun _ v d => if v = 1 then d.cut 2 else d))
/-- CKPT_SIGN_DONE (R303). -/
def execCkptSignDone (s : State) : Res := s.act Dev.ckptDone
/-- JNL_EXPORT_ACK (R302). -/
def execJnlExportAck (n : Nat) (s : State) : Res := s.act (fun d => d.jnlAck n)
/-- JOURNAL_ACK_DOORBELL (R355). -/
def execJournalAckDoorbell (n : Nat) (s : State) : Res := s.act (fun d => d.ackDoorbell n)

end Sys2Proof.Machine
end

