-- ==== Sys2Proof/Machine/Counters.lean ====
section
/-! DEFINITION. The counter blocks (R408–R420): configuration, values, dumps, the overflow queue. -/

namespace Sys2Proof.Machine

/-- Counter blocks: one per die and the hub (R409). -/
def Dev.blocks (d : Dev) : Nat := d.dies + 1

def Dev.ctr (d : Dev) (b k : Nat) : Ctr := tget ctrInit d.perf.ctrs (b * 8 + k)

def Dev.setCtr (d : Dev) (b k : Nat) (c : Ctr) : Dev :=
  { d with perf := { d.perf with ctrs := tset d.perf.ctrs (b * 8 + k) c } }

/-! ### Configuration (R410–R412, R419) -/

/-- The events listed for a block. -/
def Dev.eventOf (d : Dev) (b e : Nat) : Bool :=
  if b = d.hubBlock then decide (0x40 ≤ e) && decide (e ≤ 0x4C) else decide (1 ≤ e) && decide (e ≤ 0x0E)

/-- A filter in range for its event; 0xFFF is none. -/
def Dev.filterOk (d : Dev) (e f : Nat) : Bool :=
  let c := bits f 11 6
  f == 0xFFF
  || (if e ≤ 6 then (decide (c < 34) || c == 0x3F) && (decide (bits f 5 0 < 16) || bits f 5 0 == 0x3F)
      else if e = 0x0A then decide (c < 34) && bits f 5 3 == 0
      else if e < 0x0E then decide (c < 34) && bits f 5 0 == 0
      else if e = 0x40 || e = 0x41 then decide (f < 256)
      else if e = 0x45 then decide (f < 16)
      else if e = 0x46 then decide (f < d.xs 16 4)
      else if e = 0x47 then decide (f < d.xs 64 16)
      else if e = 0x4B || e = 0x4C then decide (f < 256)
      else false)

/-- CNT_CONFIG: a word that R410 refuses is ignored as a whole; the reserved bits read as written 0. -/
def Dev.ctrConfig (d : Dev) (b k v : Nat) : Dev :=
  let e := bits v 50 44
  if !d.eventOf b e || (bit v 54 && !evIsCond e) || !d.filterOk e (bits v 43 32) then d
  else d.setCtr b k ⟨v / 2 ^ 32 * 2 ^ 32, 0, false, false⟩

/-- A value write: `COUNT` set, `WRAP` cleared. -/
def Dev.ctrWrite (d : Dev) (b k v : Nat) : Dev := d.setCtr b k { d.ctr b k with count := v % 2 ^ 48, wrap := false }

/-- `CNT_VALUE` as it stands (R418). -/
def Ctr.value (c : Ctr) : Nat := bits c.cfg 63 56 * 2 ^ 56 + b2n c.wrap * 2 ^ 48 + c.count

/-- A snapshot clears `WRAP`. -/
def Dev.ctrLatch (d : Dev) (b k : Nat) : Dev := d.setCtr b k { d.ctr b k with wrap := false }

/-- CNT_VALUE_READ as the ward answers it. -/
def Dev.ctrRead (d : Dev) (r : DReq) (ro : Role) : Acc :=
  let b := r.idx % 256
  let k := r.sub - 2
  match objRow d.part r.idx r.sub with
  | none => ⟨0, [], d⟩
  | some o =>
    if o.mayRead ro then ⟨0, leOctets 8 (d.ctr b k).value, d.ctrLatch b k⟩
    else ⟨0, List.replicate 8 0, d.roleViolation ro⟩

/-- A read of a counter's value. -/
def isCtrRead (r : DReq) : Bool := r.op == 1 && inPage r.idx 0xA1 && decide (2 ≤ r.sub) && decide (r.sub ≤ 9)

def Dev.cntRead (d : Dev) (r : DReq) : Dev := if isCtrRead r then d.request r (fun ro d => d.ctrRead r ro) else d

/-- OVF_POP: 1 removes the head entry. -/
def Dev.ovfPop (d : Dev) (v : Nat) : Dev :=
  if v = 1 then { d with perf := { d.perf with ovfQ := d.perf.ovfQ.drop 1 } } else d

/-! ### Dumps (R415, R416) -/

/-- A dump record of a block; in the ring a counter whose `USER` is 0 is zero. -/
def Dev.dumpRecord (d : Dev) (seq b : Nat) (ring : Bool) : List Byte :=
  let cnt (k : Nat) : Nat := let c := d.ctr b k; if ring && !bit c.cfg 51 then 0 else c.value
  leOctets 8 seq ++ leOctets 8 d.tai ++ [BitVec.ofNat 8 b, BitVec.ofNat 8 (b2n d.perf.skipped)] ++ List.replicate 6 0
    ++ (List.range 8).flatMap (fun k => leOctets 8 (cnt k)) ++ List.replicate 40 0

/-- A record to a host buffer of queue pair 33, or dropped. -/
def Dev.dumpHost (d : Dev) (o : List Byte) : Dev := match d.hostPut 33 o with | some e => e | none => d.bump 0xA000 8

/-- A record to the dump ring; a ring of no records takes none. -/
def Dev.dumpRing (d : Dev) (o : List Byte) : Dev :=
  let n := d.obj 0xA000 4
  let p := d.obj 0xA000 5
  if n = 0 then d else (d.writeOct (d.obj 0xA000 3 + p % n * 128) o).setObj 0xA000 5 ((p + 1) % n)

/-- The whole multiple of the period that the timebase has reached. -/
def Dev.dumpSlot (d : Dev) : Nat := d.tai / (d.obj 0xA000 1 * 1000)

/-- A dump is taken. -/
def Dev.dump (d : Dev) : Dev :=
  let q := d.obj 0xA000 6 + 1
  let bs := List.range d.blocks
  let t := d.obj 0xA000 2
  let host := if bit t 0 then bs.map (fun b => d.dumpRecord q b false) else []
  let ring := if bit t 1 then bs.map (fun b => d.dumpRecord q b true) else []
  let d := bs.foldl (fun d b => (List.range 8).foldl (fun d k => d.ctrLatch b k) d) d
  let d := ring.foldl Dev.dumpRing (host.foldl Dev.dumpHost d)
  ({ d with perf := { d.perf with skipped := false, dumpBusy := d.up + 800 } }).setObj 0xA000 6 (q % 2 ^ 64)

/-- DUMP_TICK: at a whole multiple of the period. -/
def Dev.dumpTick (d : Dev) : Dev :=
  if d.obj 0xA000 1 = 0 || d.dumpSlot = d.perf.lastDump || d.pwr.phase != .running then d
  else
    let d := { d with perf := { d.perf with lastDump := d.dumpSlot } }
    if d.up < d.perf.dumpBusy then ({ d with perf := { d.perf with skipped := true } }).bump 0xA000 7 else d.dump

/-- A write of the period: dumps are numbered from 1 again, from the next multiple on. -/
def Dev.dumpPeriod (d : Dev) (v : Nat) : Dev :=
  if 1000000 < v then d
  else
    let d := (d.setObj 0xA000 1 v).setObj 0xA000 6 0
    { d with perf := { d.perf with lastDump := d.dumpSlot } }

/-! ### Meanings -/

/-- DUMP_TICK (R415). -/
def execDumpTick (s : State) : Res := s.act Dev.dumpTick
/-- CNT_CONFIG (R419). -/
def execCntConfig (r : DReq) (s : State) : Res :=
  s.act (fun d => d.command r .cntConfig (fun _ v d => d.ctrConfig (r.idx % 256) (r.sub - 0x0A) v))
/-- CNT_VALUE_WRITE (R419). -/
def execCntValueWrite (r : DReq) (s : State) : Res :=
  s.act (fun d => d.command r .cntValue (fun _ v d => d.ctrWrite (r.idx % 256) (r.sub - 2) v))
/-- CNT_VALUE_READ (R418). -/
def execCntValueRead (r : DReq) (s : State) : Res := s.act (fun d => d.cntRead r)
/-- OVF_POP (R421). -/
def execOvfPop (r : DReq) (s : State) : Res := s.act (fun d => d.command r .ovfPop (fun _ v d => d.ovfPop v))

end Sys2Proof.Machine
end

