-- ==== Sys2Proof/Machine/Net.lean ====
section
/-! DEFINITION. The on-chip network (chapters 05 and 14): topology, routing, arbitration, credits, escape to VC2, route
swaps, power domains and the parking agent. -/

namespace Sys2Proof.Machine

/-! ### Topology (R319, R320) -/

/-- Row and column of a position or bridge number of a die. -/
def gridAt (c : Nat) : Nat × Nat := if c < 30 then (c / 6, c % 6) else if c = 34 then (5, 0) else if c = 35 then (5, 5) else (5, c - 29)

/-- The position or bridge number at a row and column. -/
def gridNum (r k : Nat) : Option Nat :=
  if 5 < r || 5 < k then none
  else if r < 5 then some (6 * r + k)
  else if k = 0 then some 34 else if k = 5 then some 35 else some (29 + k)

/-- The neighbour through a mesh port (0–3) or an express port (4–7). -/
def meshStep (c p : Nat) : Option Nat :=
  let (r, k) := gridAt c
  let n := if p < 4 then 1 else 3
  match p % 4 with
  | 0 => if n ≤ r then gridNum (r - n) k else none
  | 1 => gridNum r (k + n)
  | 2 => gridNum (r + n) k
  | _ => if n ≤ k then gridNum r (k - n) else none

/-- The local port, and the die crossing of a bridge (R327). -/
def ptLocal : Nat := 8
def ptDie : Nat := 9

/-- The router and input port that an output port leads to; none where the port is not present. -/
def Dev.linkTo (d : Dev) (rt p : Nat) : Option (Nat × Nat) :=
  if rt < 36 * d.dies then
    let die := rt / 36
    let c := rt % 36
    if p < 8 then (meshStep c p).map (fun n => (36 * die + n, (p + 2) % 4 + p / 4 * 4))
    else if p = ptDie && 34 ≤ c then some (145 + die, c - 34)
    else none
  else if rt = hubRouter then if p < d.dies then some (145 + p, 2) else none
  else if 145 ≤ rt && rt < 145 + d.dies then
    let n := rt - 145
    match p with
    | 0 => some (36 * n + 34, ptDie)
    | 1 => some (36 * n + 35, ptDie)
    | 2 => some (hubRouter, n)
    | 3 => if d.dies = 4 then some (145 + (n + 1) % 4, 4) else none
    | 4 => if d.dies = 4 then some (145 + (n + 3) % 4, 3) else none
    | _ => none
  else none

/-- The router numbers of R320. -/
def Dev.routerNums (d : Dev) : List Nat := List.range (36 * d.dies) ++ [hubRouter] ++ upFrom 145 d.dies

/-- The position at a router. -/
def routerPos (rt : Nat) : Option Nat := if rt < 144 && rt % 36 < 34 then some (rt / 36 * 34 + rt % 36) else none

/-- The location of a router's faults: the cluster, the die of a bridge, none for a hub router. -/
def routerLoc (rt : Nat) : Nat := match routerPos rt with | some p => posLoc p | none => if rt < 144 then faultLoc 2 (rt / 36) else 0

/-! ### Buffers (R325) -/

def Dev.router (d : Dev) (rt : Nat) : Router := tget routerInit d.fab.noc.routers rt

def Dev.modNoc (d : Dev) (f : Noc → Noc) : Dev := { d with fab := { d.fab with noc := f d.fab.noc } }

def Dev.modRouter (d : Dev) (rt : Nat) (f : Router → Router) : Dev :=
  d.modNoc (fun n => { n with routers := tmod routerInit n.routers rt f })

/-- Buffer slots per input for a virtual channel. -/
def vcDepth (vc : Nat) : Nat := [8, 8, 4, 2].getD vc 0

/-- The head of an input's queue; the local input keeps its packets of a channel in order of injection. -/
def Router.headOf (r : Router) (inp vc : Nat) : Option Buf :=
  if inp = ptLocal then r.inj.find? (fun b => hVc b.f.hdr == vc) else (tget [] r.bufs (inp * 4 + vc)).head?

/-- The next packet of the channel reaches the head now. -/
def freshHead (now vc : Nat) : List Buf → List Buf
  | [] => []
  | b :: r => if hVc b.f.hdr = vc then { b with since := now } :: r else b :: freshHead now vc r

/-- Remove the head of an input's queue. -/
def Router.pop (r : Router) (now inp vc : Nat) : Router :=
  if inp = ptLocal then
    { r with inj := freshHead now vc ((takeFirst (fun (b : Buf) => hVc b.f.hdr == vc) r.inj).elim r.inj (·.2)) }
  else
    { r with bufs := tput [] r.bufs (inp * 4 + vc) (match (tget [] r.bufs (inp * 4 + vc)).drop 1 with
      | [] => []
      | b :: l => { b with since := now } :: l) }

/-- The routers of a domain: those of its positions, and both bridges of a whole die. -/
def Domain.routers (x : Domain) : List Nat :=
  x.positions.map posRouter ++ (if bit x.sub 14 then [36 * (x.sub % 2 ^ 14) + 34, 36 * (x.sub % 2 ^ 14) + 35] else [])

/-- Credits are withheld from a domain that drains (R338 D2). -/
def Dev.draining (d : Dev) (rt : Nat) : Bool :=
  d.fab.noc.domains.any (fun x => !x.up && x.step == 2 && x.routers.contains rt)

/-- A credit is there for a channel toward the input of a router. -/
def Dev.credit (d : Dev) (t : Nat × Nat) (vc : Nat) : Bool :=
  decide ((tget [] (d.router t.1).bufs (t.2 * 4 + vc)).length < vcDepth vc) && !d.draining t.1

/-! ### Routing (R327) -/

/-- A router's entry for a packet. -/
def Dev.routeEntry (d : Dev) (rt : Nat) (h : BitVec 32) : Nat :=
  tget 0xFFF0 (if hEpoch h then (d.router rt).bank1 else (d.router rt).bank0) (hIndex h)

/-- Where a packet goes from a router. -/
inductive Hop where
  | drop
  | park
  | here
  | out (port : Nat)
  deriving DecidableEq, Repr

/-- The way of a packet on a channel. -/
def Dev.hopOf (d : Dev) (rt vc : Nat) (h : BitVec 32) : Hop :=
  let e := d.routeEntry rt h
  let p := if vc ≤ 1 then bits e 15 12 else if vc = 2 then bits e 11 8 else bits e 7 4
  if vc ≤ 1 && bit e 3 then .park
  else if p = ptLocal then
    if d.fab.noc.down.contains (rt, p) then .park else if (routerPos rt).isSome || rt = hubRouter then .here else .drop
  else if (d.linkTo rt p).isNone then .drop
  else if d.fab.noc.down.contains (rt, p) then .park
  else .out p

/-- A header as its check reads it. -/
def Flit.read (f : Flit) : Option (BitVec 32) := (checkHeader f.hdr f.chk).map (·.1)

/-- The way of the head of an input. -/
def Dev.headHop (d : Dev) (rt inp vc : Nat) : Option (Hop × Buf) :=
  ((d.router rt).headOf inp vc).bind (fun b => b.f.read.map (fun h => (d.hopOf rt vc h, b)))

/-! ### Arbitration (R326) -/

/-- The code of an output for the arbiter. -/
def Hop.port (h : Hop) : Option Nat := match h with | .here => some ptLocal | .out p => some p | _ => none

/-- A packet can leave: its sink accepts or its link has a credit. -/
def Dev.canGo (d : Dev) (rt vc : Nat) (h : Hop) : Bool :=
  match h with
  | .here => true
  | .out p => match d.linkTo rt p with | some t => d.credit t vc | none => false
  | _ => false

/-- A packet that waits for an output. -/
structure Cand where
  inp : Nat
  vc  : Nat
  b   : Buf
  go  : Bool

/-- The packets at the heads of a router's inputs that wait for an output. -/
def Dev.cands (d : Dev) (rt port : Nat) : List Cand :=
  (List.range 10).flatMap (fun inp => (List.range 4).filterMap (fun vc =>
    match d.headHop rt inp vc with
    | some (h, b) => if h.port == some port then some ⟨inp, vc, b, d.canGo rt vc h⟩ else none
    | none => none))

/-- Effective priority. -/
def Dev.effPrio (d : Dev) (b : Buf) : Nat := min 7 (hPrio b.f.hdr + (d.up - b.since) / 256)

/-- How far an input stands from the one served last. -/
def turn (last inp : Nat) : Nat := (inp + 9 - last) % 10

/-- The packet that an output serves next. -/
def Dev.winner (d : Dev) (rt port : Nat) : Option Cand :=
  let r := d.router rt
  let last := tget 9 r.rr port
  let cs := (d.cands rt port).filter (·.go)
  let v3 := cs.filter (·.vc == 3)
  let v2 := cs.filter (·.vc == 2)
  if 15 ≤ tget 0 r.vc3 port && !v3.isEmpty then minBy (fun c => turn last c.inp) v3
  else if !v2.isEmpty then minBy (fun c => turn last c.inp) v2
  else minBy (fun c => (7 - d.effPrio c.b) * 100 + (if c.vc = 1 then 0 else if c.vc = 0 then 1 else 2) * 10 + turn last c.inp) cs

/-! ### Moving packets -/

/-- A packet leaves the local input: a flit is injected (0x8040:01, event 0x0D). -/
def Dev.leave (d : Dev) (rt inp vc : Nat) : Dev :=
  let d := d.modRouter rt (fun r => r.pop d.up inp vc)
  if inp = ptLocal then
    let d := d.bump 0x8040 1
    match routerPos rt with | some p => d.posEvent p 0x0D 0 | none => d
  else d

/-- A header's epoch. -/
def setEpoch (h : BitVec 32) (e : Bool) : BitVec 32 := BitVec.ofNat 32 (h.toNat - b2n (hEpoch h) * 2 ^ 14 + b2n e * 2 ^ 14)

/-- A header's virtual channel. -/
def setVc (h : BitVec 32) (vc : Nat) : BitVec 32 := BitVec.ofNat 32 (h.toNat - hVc h * 2 ^ 18 + vc % 4 * 2 ^ 18)

/-- A packet delivered at a local port: to the cluster, or to the hub agent that its header names. An inheritance signal
waits at the cluster's management port. One that reaches the link agent on VC2 stays on VC2 across the link (R115). -/
def Dev.deliver (d : Dev) (rt vc : Nat) (f : Flit) : Dev :=
  match routerPos rt with
  | some p =>
    if hVc f.hdr = 3 then d.modNoc (fun n => { n with mgmt := n.mgmt ++ [(p, tCtx f.pl, f.pl.toNat % 16)] })
    else d.clusterArrive p (hVc f.hdr) (hPrio f.hdr) f.pl
  | none =>
    if hCell f.hdr = agPark then d.modNoc (fun n => { n with parkIn := n.parkIn ++ [f] })
    else if hCell f.hdr = agLink then d.modNoc (fun n => { n with linkOut := n.linkOut ++ [if vc = 2 then { f with hdr := setVc f.hdr 2 } else f] })
    else d

/-- The checks of a packet at a router input (R32, R321): the packet as it goes on, or none where it is discarded. -/
def Dev.hopChecks (d : Dev) (rt vc : Nat) (f : Flit) : Option Flit × Dev :=
  let loc := routerLoc rt
  let (m, b, d) := d.takeInj 7 loc
  match (if m = 2 then none else checkHeader f.hdr f.chk) with
  | none => (none, (d.bump 0x8040 3).report 0x40 loc)
  | some (h, fixed) =>
    let d := if fixed || m = 1 then d.bump 0x8040 2 else d
    let h := if m = 3 then h ^^^ BitVec.ofNat 32 (2 ^ (b % 32)) else h
    if vc = 3 then (some (mkFlit h f.pl), d)
    else match d.checkTok 1 loc f.pl with
      | (some t, d) => (some (mkFlit h t), d)
      | (none, d) => (none, d)

/-- A packet taken from an input goes on through a hop on channel `vc'`. -/
def Dev.goOn (d : Dev) (rt inp vc vc' : Nat) (f : Flit) (h : Hop) : Dev :=
  let d := d.leave rt inp vc
  let ctx := tCtx f.pl
  match d.hopChecks rt vc f with
  | (none, d) => d.quiesce ctx
  | (some f, d) => match h with
    | .out p => match d.linkTo rt p with
      | some t => d.modRouter t.1 (fun r => { r with bufs := tmod [] r.bufs (t.2 * 4 + vc') (fun l => l ++ [(⟨f, d.up⟩ : Buf)]) })
      | none => d
    | .here => d.deliver rt vc' f
    | .park => d.modNoc (fun n => { n with parkIn := n.parkIn ++ [f] })
    | .drop => ((d.bump 0x8040 4).report 0x41 (routerLoc rt)).quiesce ctx

/-- ROUTER_HOP: the head packet of an input is discarded, parked, delivered or forwarded where its output serves it. -/
def Dev.hop (d : Dev) (rt inp vc : Nat) : Dev :=
  match (d.router rt).headOf inp vc with
  | none => d
  | some b => match b.f.read with
    | none => d.goOn rt inp vc vc b.f .drop
    | some hd =>
      let h := d.hopOf rt vc hd
      match h.port with
      | none => d.goOn rt inp vc vc b.f h
      | some p => match d.winner rt p with
        | none => d
        | some w =>
          if w.inp = inp && w.vc = vc then
            let waits := (d.cands rt p).any (·.vc == 3)
            let d := d.modRouter rt (fun r => { r with
              rr := tset r.rr p inp, vc3 := tset r.vc3 p (if vc = 3 || !waits then 0 else tget 0 r.vc3 p + 1) })
            d.goOn rt inp vc vc b.f h
          else d

/-- VC2_ESCAPE (R112, R113): a packet of VC0 or VC1 that has stood 2 µs at its queue's head for want of a credit moves on
along the escape tree. -/
def Dev.escape (d : Dev) (rt inp vc : Nat) : Dev :=
  if 1 < vc then d
  else match (d.router rt).headOf inp vc with
    | none => d
    | some b =>
      if d.up < b.since + 2000 then d
      else match b.f.read with
        | none => d
        | some hd =>
          let h := d.hopOf rt vc hd
          let e := d.hopOf rt 2 hd
          if h.port.isNone || d.canGo rt vc h || !(d.canGo rt 2 e || e == .park) then d
          else
            let d := d.bump 0x2101 1
            let d := match routerPos rt with | some p => d.posEvent p 0x0C 0 | none => d
            d.goOn rt inp vc 2 b.f e

/-! ### Route swaps (R333–R335) -/

/-- The destination indices whose entries differ between the banks in some router. -/
def Noc.changedIdx (n : Noc) : List Nat :=
  (List.range 256).filter (fun i => n.routers.any (fun r => tget 0xFFF0 r.2.bank0 i != tget 0xFFF0 r.2.bank1 i))

/-- The device indices whose entries differ between the banks of the device route table (R346), above the others. -/
def Lnk.changedDev (x : Lnk) : List Nat :=
  (((x.dr0 ++ x.dr1).map (·.1)).eraseDups.filter (fun i => tget 0xFF x.dr0 i != tget 0xFF x.dr1 i)).map (· + 256)

/-- R334 steps 1 and 2. -/
def Dev.startSwap (d : Dev) : Dev :=
  let c := d.fab.noc.changedIdx ++ d.lnk.changedDev
  (d.modNoc (fun n => { n with swap := .draining, changed := c, relVc := [], epoch := n.epoch.map (!·) })).setObj 0x8000 6 c.length

/-- A position's logical cluster comes back: the position is in service and its parking queue replays (R338 U2, U3). -/
def Dev.comeBack (d : Dev) (p : Nat) : Dev :=
  match (d.pos p).logical with
  | some k => (d.modPos p (fun q => { q with st := .inService, rq := q.rq.map sqEnable })).modNoc (fun n => { n with replay := n.replay ++ [k] })
  | none => d

/-- The index of a logical cluster, die × 32 + cluster. -/
def lcIndex (k : Nat) : Nat := k / 32 * 64 + k % 32

/-- The current bank is bank 1; the other one is the shadow bank while no swap runs (R333). -/
def Noc.bankOne (n : Noc) : Bool := n.epoch.getD 0 false

/-- An entry of the current bank. -/
def Router.current (r : Router) (one : Bool) (i : Nat) : Nat := tget 0xFFF0 (if one then r.bank1 else r.bank0) i

/-- An entry of the shadow bank written; the bits R327 reserves stay 0. -/
def Router.shadow (r : Router) (one : Bool) (i v : Nat) : Router :=
  let v := v / 8 % 2 ^ 13 * 8
  if one then { r with bank0 := tput 0xFFF0 r.bank0 i v } else { r with bank1 := tput 0xFFF0 r.bank1 i v }

/-! ### The ward's route tables (R113, R332; log 33) -/

/-- The port of a position's or bridge's router toward another one of its die: first along the row, then along the column,
by express links while three or more steps remain. -/
def gridPort (c t : Nat) : Nat :=
  let (r, k) := gridAt c
  let (r', k') := gridAt t
  if k < k' then (if k + 3 ≤ k' then 5 else 1)
  else if k' < k then (if k' + 3 ≤ k then 7 else 3)
  else if r < r' then (if r + 3 ≤ r' then 6 else 2)
  else (if r' + 3 ≤ r then 4 else 0)

/-- The bridge of a position: four hops at most. -/
def bridgeOf (c : Nat) : Nat := let k := (gridAt c).2; if k = 0 || k = 1 || k = 3 then 34 else 35

/-- The port of a router toward a target router: a position's or the central hub router. -/
def dataPort (rt t : Nat) : Nat :=
  if rt = t then ptLocal
  else if rt < 144 then
    if t < 144 && t / 36 = rt / 36 then gridPort (rt % 36) (t % 36)
    else if 34 ≤ rt % 36 then ptDie else gridPort (rt % 36) (bridgeOf (rt % 36))
  else if rt = hubRouter then t / 36
  else
    let n := rt - 145
    if t = hubRouter then 2
    else if t / 36 = n then (if bridgeOf (t % 36) = 34 then 0 else 1)
    else if t / 36 = (n + 1) % 4 then 3
    else if t / 36 = (n + 3) % 4 then 4
    else 2

/-- The parent of a router in the escape tree: down the column, west to the west bridge, its edge router, the central one. -/
def escUp (rt : Nat) : Nat :=
  if rt < 144 then
    let c := rt % 36
    if c = 34 then 145 + rt / 36
    else
      let (r, k) := gridAt c
      let p := if r < 5 then (if r ≤ 2 then 6 else 2) else if 3 ≤ k then 7 else 3
      rt / 36 * 36 + (meshStep c p).getD c
  else hubRouter

/-- The routers from one to the root. -/
def escPath : Nat → Nat → List Nat
  | 0, _ => []
  | n + 1, rt => if rt = hubRouter then [hubRouter] else rt :: escPath n (escUp rt)

/-- The escape port of a router toward a target. -/
def Dev.escPort (d : Dev) (rt t : Nat) : Nat :=
  if rt = t then ptLocal
  else
    let path := escPath 16 t
    let next := match indexOf? (· == rt) path with
      | some (i + 1) => path.getD i hubRouter
      | _ => escUp rt
    ((List.range 10).find? (fun p => (d.linkTo rt p).map (·.1) == some next)).getD 15

/-- The entry that routes an index to a target; `P_MGMT` as it stands in `e`. -/
def Dev.newRoute (d : Dev) (rt to_ e : Nat) : Nat := dataPort rt to_ * 4096 + d.escPort rt to_ * 256 + e / 16 % 16 * 16

/-- The entry of an index in a router: logical cluster or hub agent, and position for `P_MGMT`. -/
def Dev.tableEntry (d : Dev) (rt i : Nat) : Nat :=
  let k := i % 64
  let die := i / 64
  let mgmt := if k = 63 then dataPort rt hubRouter else if k < 34 then dataPort rt (36 * die + k) else 15
  match (if k = 63 then some hubRouter else if k < 32 then (d.posOf (die * 32 + k)).map posRouter else none) with
  | some t => d.newRoute rt t (mgmt * 16)
  | none => 0xFF00 + mgmt * 16

/-- Both banks of every router, loaded over VC3 before traffic is admitted (R327). -/
def Dev.loadRoutes (d : Dev) : Dev :=
  d.routerNums.foldl (fun d rt =>
    let t := (List.range (64 * d.dies)).foldl (fun t i => tput 0xFFF0 t i (d.tableEntry rt i)) []
    d.modRouter rt (fun r => { r with bank0 := t, bank1 := t })) d

/-- The ward writes the index of a logical cluster in the shadow bank of every router. -/
def Dev.wardShadow (d : Dev) (x : Domain) : Dev :=
  let one := d.fab.noc.bankOne
  let i := lcIndex x.sub
  d.routerNums.foldl (fun d rt =>
    let e := (d.router rt).current one i
    match x.wr with
    | .none => d
    | .park => d.modRouter rt (fun r => r.shadow one i (e / 16 * 16 + 8))
    | .unpark => d.modRouter rt (fun r => r.shadow one i (e / 16 * 16))
    | .routes =>
      let v := match d.posOf x.sub with | some p => d.newRoute rt (posRouter p) e | none => 0xFF00 + e / 16 % 16 * 16
      d.modRouter rt (fun r => r.shadow one i v)) d

/-- A domain's swap starts. What returns to a cluster that was parked only for a test replays too. -/
def Dev.domainSwap (d : Dev) (x : Domain) : Dev :=
  let d := (d.wardShadow x).startSwap
  let d := if x.wr = .unpark then d.modNoc (fun n => { n with replay := n.replay ++ [x.sub] }) else d
  if x.up then (x.positions.filter (fun p => (d.pos p).st == .standby)).foldl Dev.comeBack d else d

/-- The first domain that waits for its swap starts it. -/
def Dev.nextSwap (d : Dev) : Dev :=
  match takeFirst (fun (x : Domain) => x.step == 0) d.fab.noc.domains with
  | some (x, _) =>
    let d := d.modNoc (fun n => { n with swapQ := n.swapQ - 1, domains := n.domains.map (fun (y : Domain) =>
      if y = x then { y with step := 1 } else y) })
    d.domainSwap x
  | none => d

/-- A domain asks for its swap (R335). -/
def Dev.askSwap (d : Dev) (x : Domain) : Dev :=
  if d.fab.noc.swap = .idle then
    (d.modNoc (fun n => { n with domains := n.domains ++ [({ x with step := 1 } : Domain)] })).domainSwap x
  else d.modNoc (fun n => { n with swapQ := n.swapQ + 1, domains := n.domains ++ [({ x with step := 0 } : Domain)] })

/-- A packet of a channel is of the old epoch. -/
def Noc.oldEpoch (n : Noc) (vc : Nat) (f : Flit) : Bool := hEpoch f.hdr != n.epoch.getD vc false

/-- R334 step 3: a channel holds no packet of the old epoch in any router, nor at the link agent on its way to the device
route table (R346). -/
def Noc.drained (n : Noc) (vc : Nat) : Bool :=
  !n.routers.any (fun r =>
    r.2.inj.any (fun b => hVc b.f.hdr == vc && n.oldEpoch vc b.f)
      || r.2.bufs.any (fun q => q.1 % 4 == vc && q.2.any (fun b => n.oldEpoch vc b.f)))
    && !n.linkOut.any (fun f => hVc f.hdr == vc && n.oldEpoch vc f)

/-- A flit put into a router's local input under the current epoch of its channel. -/
def Dev.putFlit (d : Dev) (rt : Nat) (f : Flit) : Dev :=
  let h := setEpoch f.hdr (d.fab.noc.epoch.getD (hVc f.hdr) false)
  d.modRouter rt (fun r => { r with inj := r.inj ++ [(⟨mkFlit h f.pl, d.up⟩ : Buf)] })

/-- The same, held where its index is being swapped (R334 step 2). -/
def Dev.reinject (d : Dev) (rt : Nat) (f : Flit) : Dev :=
  if d.fab.noc.holds (hVc f.hdr) (hIndex f.hdr) then
    (d.modNoc (fun n => { n with held := n.held ++ [(rt, f)] })).bump 0x8000 7
  else d.putFlit rt f

/-- R334 step 4, and what waits for the swap. -/
def Dev.endSwap (d : Dev) : Dev :=
  let d := (d.modNoc (fun n => { n with
    swap := .idle, held := [], domains := (n.domains.map (fun (x : Domain) =>
      if x.step = 1 then { x with step := 2, since := d.up } else x)).filter (fun x => !(x.up && x.step == 2)) })).bump 0x8000 4
  d.nextSwap

/-- SWAP_VC_DRAINED: a channel's held packets are released in their order. -/
def Dev.vcDrained (d : Dev) (vc : Nat) : Dev :=
  let n := d.fab.noc
  if n.swap = .idle || 4 ≤ vc || n.relVc.contains vc || !n.drained vc || n.replay.any (fun k => n.changed.contains (lcIndex k)) then d
  else
    let mine := n.held.filter (fun h => hVc h.2.hdr == vc)
    let d := d.modNoc (fun n => { n with relVc := n.relVc ++ [vc], held := n.held.filter (fun h => hVc h.2.hdr != vc) })
    let d := mine.foldl (fun d h => d.putFlit h.1 h.2) d
    if d.fab.noc.relVc.length = 4 then d.endSwap else d

/-- ROUTE_SWAP: 1 starts a swap; not while one runs. -/
def Dev.routeSwap (d : Dev) (v : Nat) : Dev :=
  if v ≠ 1 then d
  else if d.fab.noc.swap ≠ .idle then d.bump 0x8000 5
  else d.startSwap

/-! ### Power domains (R336, R338) -/

/-- The positions that a request names: one, or a whole die. -/
def Dev.domainOf (d : Dev) (v : Nat) : Option (List Nat) :=
  let n := v % 2 ^ 14
  if bit v 14 then if n < d.dies then some (upFrom (n * 34) 34) else none
  else if 1 ≤ n && n ≤ 34 * d.dies then some [n - 1] else none

/-- R336: the domain may be powered down. -/
def Dev.mayPowerDown (d : Dev) (v : Nat) (ps : List Nat) : Bool :=
  if bit v 14 then !d.wrd.graphs.any (fun g => (d.mapped g.2).any (fun k => k / 32 == v % 2 ^ 14))
  else ps.all (fun p => !((d.pos p).st == .inService && (d.pos p).logical.isSome))

/-- DOMAIN_POWER_DOWN. -/
def Dev.domainDown (d : Dev) (v : Nat) : Dev :=
  match d.domainOf v with
  | none => d.bump 0x8020 2
  | some ps => if d.mayPowerDown v ps then d.askSwap ⟨v % 2 ^ 15, ps, false, 0, d.up, .none⟩ else d.bump 0x8020 2

/-- The output ports that lead to a router. -/
def Dev.portsTo (d : Dev) (rt : Nat) : List (Nat × Nat) := (List.range 10).filterMap (fun p => d.linkTo rt p)

/-- Every flit in a router. -/
def Router.flits (r : Router) : List Flit := r.bufs.flatMap (fun q => q.2.map (·.f)) ++ r.inj.map (·.f)

/-- The flits of a domain's routers go to the parking agent, each counted (R338 D3). -/
def Dev.drainRouter (d : Dev) (rt : Nat) : Dev :=
  let fs := (d.router rt).flits
  let d := (d.modRouter rt (fun r => { r with bufs := [], inj := [] })).bumpBy 0x8030 5 fs.length
  d.modNoc (fun n => { n with parkIn := n.parkIn ++ fs })

/-- A position that holds nothing: its ready queues are disabled and keep their `OVERRUN` (R92, R93). -/
def Pos.emptied (p : Pos) (st : PosState) : Pos := { posInit with st := st, rq := p.rq.map sqDisable }

/-- Power removed from a position: what it held is lost but its assignment (R338 D4). -/
def Pos.powerOff (p : Pos) : Pos :=
  { p.emptied (if p.st = .failed then .failed else .off) with logical := p.logical, spare := p.spare }

/-- DOMAIN_DRAIN_END: a draining domain is empty or its bound of 5 µs is reached. -/
def Dev.domainDrainEnd (d : Dev) : Dev :=
  let empty (x : Domain) : Bool := x.routers.all (fun r => (d.router r).flits.isEmpty)
  match takeFirst (fun (x : Domain) => !x.up && x.step == 2 && (empty x || decide (x.since + 5000 ≤ d.up))) d.fab.noc.domains with
  | none => d
  | some (x, rest) =>
    let d := x.routers.foldl Dev.drainRouter d
    let d := x.positions.foldl (fun d p => d.modPos p Pos.powerOff) d
    (d.modNoc (fun n => { n with domains := rest, down := n.down ++ x.routers.flatMap d.portsTo })).quiesceAll

/-- DOMAIN_POWER_UP. -/
def Dev.domainUp (d : Dev) (v : Nat) : Dev :=
  match d.domainOf v with
  | none => d.bump 0x8020 2
  | some ps => d.modNoc (fun n => { n with domains := n.domains ++ [(⟨v % 2 ^ 15, ps, true, 3, d.up, .none⟩ : Domain)] })

/-- DOMAIN_RAILS_UP: the positions are on Standby, and the swap of step U2 is asked for. -/
def Dev.domainRailsUp (d : Dev) : Dev :=
  match takeFirst (fun (x : Domain) => x.up && x.step == 3) d.fab.noc.domains with
  | none => d
  | some (x, rest) =>
    let ports := x.routers.flatMap d.portsTo
    let d := d.modNoc (fun n => { n with domains := rest, down := n.down.filter (fun p => !ports.contains p) })
    let d := x.positions.foldl (fun d p => d.modPos p (fun q => if q.st = .off then { q with st := .standby } else q)) d
    d.askSwap x

/-! ### Parking (R337, R338) -/

/-- A parking queue that holds nothing: enabled at initialisation. -/
def parkInit : SQ Flit := { (sqOff : SQ Flit) with on := true }

/-- 4 KiB blocks of the parking region (R218). -/
def Dev.parkBlocks (d : Dev) : Nat := d.xs 65536 16384

/-- A parking queue's parameters: only the free space of the region bounds its middle. -/
def Dev.parkCfg (d : Dev) (q : SQ Flit) : SqCfg :=
  ⟨2 ^ 32, sqRoom q (d.parkBlocks - lsum (d.fab.noc.park.map (fun e => sqBlocks e.2))), 2 ^ 33, 0, 0⟩

def Dev.setPark (d : Dev) (k : Nat) (q : SQ Flit) : Dev := d.modNoc (fun n => { n with park := tset n.park k q })

/-- A logical cluster has a position in service and is not parked in the current bank. -/
def Dev.parkPass (d : Dev) (k : Nat) (f : Flit) : Bool :=
  let h := setEpoch f.hdr (d.fab.noc.epoch.getD (hVc f.hdr) false)
  (match d.posOf k with | some p => (d.pos p).st == .inService | none => false) && !bit (d.routeEntry hubRouter h) 3

/-- PARK_RECEIVE: the oldest packet that reached the parking agent. A management packet names a position and has no parking
queue: it ends here, counted. -/
def Dev.parkReceive (d : Dev) : Dev :=
  match d.fab.noc.parkIn with
  | [] => d
  | f :: r =>
    let d := (d.modNoc (fun n => { n with parkIn := r })).bump 0x8030 1
    let k := hDie f.hdr * 32 + hCluster f.hdr
    if hVc f.hdr = 3 then d
    else if 32 ≤ hCluster f.hdr then ((d.bump 0x8040 4).report 0x41 0).quiesce (tCtx f.pl)
    else if d.parkPass k f then d.reinject hubRouter f
    else
      let q := tget parkInit d.fab.noc.park k
      let lost := !sqTakes (d.parkCfg q) q
      let d := d.setPark k (sqWrite (d.parkCfg q) q f)
      if lost then ((d.bump 0x8030 3).report 0x42 (faultLoc 7 agPark)).quiesce (tCtx f.pl) else d

/-- Read a whole parking queue. -/
def sqReadAll (c : SqCfg) : Nat → SQ Flit → List Flit × SQ Flit
  | 0, q => ([], q)
  | n + 1, q => match sqReadAuto c q with
    | none => ([], q)
    | some (f, q) => let r := sqReadAll c n q; (f :: r.1, r.2)

/-- PARK_REPLAY_DONE: a returning logical cluster's queue is replayed in order, once its swap is at step 3 (R338 U3). -/
def Dev.parkReplay (d : Dev) (k : Nat) : Dev :=
  if !d.fab.noc.replay.contains k || !(List.range 4).all d.fab.noc.drained then d
  else
    let q := tget parkInit d.fab.noc.park k
    let r := sqReadAll (d.parkCfg q) (sqFill q + q.held.length) q
    let d := (d.setPark k r.2).modNoc (fun n => { n with replay := n.replay.filter (· != k) })
    (r.1.foldl (fun d f => d.putFlit hubRouter f) d).bumpBy 0x8030 2 r.1.length

/-! ### Meanings -/

/-- ROUTER_HOP (R326). -/
def execRouterHop (router inp vc : Nat) (s : State) : Res := s.act (fun d => d.hop router inp vc)
/-- VC2_ESCAPE (R112). -/
def execVc2Escape (router inp vc : Nat) (s : State) : Res := s.act (fun d => d.escape router inp vc)
/-- ROUTE_SWAP (R334). -/
def execRouteSwap (r : DReq) (s : State) : Res := s.act (fun d => d.command r .routeSwap (fun _ v d => d.routeSwap v))
/-- SWAP_VC_DRAINED (R334). -/
def execSwapVcDrained (vc : Nat) (s : State) : Res := s.act (fun d => d.vcDrained vc)
/-- DOMAIN_POWER_DOWN (R338). -/
def execDomainPowerDown (r : DReq) (s : State) : Res := s.act (fun d => d.command r .domainDown (fun _ v d => d.domainDown v))
/-- DOMAIN_DRAIN_END (R338). -/
def execDomainDrainEnd (s : State) : Res := s.act Dev.domainDrainEnd
/-- DOMAIN_POWER_UP (R338). -/
def execDomainPowerUp (r : DReq) (s : State) : Res := s.act (fun d => d.command r .domainUp (fun _ v d => d.domainUp v))
/-- DOMAIN_RAILS_UP (R338). -/
def execDomainRailsUp (s : State) : Res := s.act Dev.domainRailsUp
/-- PARK_RECEIVE (R337). -/
def execParkReceive (s : State) : Res := s.act Dev.parkReceive
/-- PARK_REPLAY_DONE (R338). -/
def execParkReplayDone (k : Nat) (s : State) : Res := s.act (fun d => d.parkReplay k)

end Sys2Proof.Machine
end

