-- ==== Sys2Proof/Machine/Faults.lean ====
section
/-! DEFINITION. The fault unit (R387–R398), cluster failures and takeover (R399–R402), rolling and full tests (R403, R404)
and error injection (R405, R406). -/

namespace Sys2Proof.Machine

def Dev.src (d : Dev) (s : Nat) : FSrc := tget srcInit d.flt.srcs s

def Dev.modSrc (d : Dev) (s : Nat) (f : FSrc → FSrc) : Dev :=
  { d with flt := { d.flt with srcs := tmod srcInit d.flt.srcs s f } }

def Dev.modHist (d : Dev) (p : HEnt → Bool) (f : HEnt → HEnt) : Dev :=
  { d with flt := { d.flt with hist := d.flt.hist.map (fun e => if p e then f e else e) } }

/-- The live entry of a source. -/
def HEnt.liveOf (s : Nat) (e : HEnt) : Bool := e.estate == 1 && e.src == s

/-! ### Counting (R389, R390) -/

/-- One event in the current sub-window. -/
def addOne (l : List Nat) : List Nat := match l with | [] => [1] | n :: r => (n + 1) :: r

/-- The sub-windows one further on. -/
def shiftSub (l : List Nat) : List Nat := 0 :: l.take 7

/-- Sources that also count by location (R390). -/
def perLoc (s : Nat) : Bool := [0x11, 0x12, 0x17, 0x30].contains s

/-- Count an event of a source at a location. -/
def FSrc.count (x : FSrc) (s loc : Nat) : FSrc :=
  { x with subs := addOne x.subs, locs := if perLoc s then tmod (List.replicate 8 0) x.locs loc addOne else x.locs }

/-- A threshold is reached; 0 disables it. -/
def reaches (n limit : Nat) : Bool := limit != 0 && decide (limit ≤ n)

/-- The class of an event whose count is `n` (R389). -/
def Dev.classOf (d : Dev) (s n : Nat) : Nat :=
  if reaches n (d.obj (0x9100 + s) 4) then 2
  else if reaches n (d.obj (0x9100 + s) 3) then max 1 (srcClass s)
  else srcClass s

/-- FAULT_SUBWINDOW_TICK: an eighth of the window of a source has passed. -/
def Dev.subTick (d : Dev) (s : Nat) : Dev :=
  let w := d.obj (0x9100 + s) 5 * 125
  if srcDefined s && decide ((d.src s).tick + w ≤ d.up) then
    d.modSrc s (fun x => { x with
      tick := x.tick + w, subs := shiftSub x.subs, locs := x.locs.map (fun e => (e.1, shiftSub e.2)) })
  else d

/-! ### History (R396, R397) -/

/-- Which entry a new one takes: a free one, else the oldest closed one. -/
def Faults.slot (f : Faults) : Option Nat :=
  match indexOf? (fun (e : HEnt) => e.estate == 0) f.hist with
  | some i => some i
  | none =>
    let age (i : Nat) : Nat := match f.hist[i]? with | some e => (e.seq + 65535 - f.seq) % 65536 | none => 65536
    minBy age ((List.range f.hist.length).filter (fun i => match f.hist[i]? with | some e => e.estate == 2 | none => false))

/-- An event merged into its source's live entry, or given a new one. -/
def Dev.record (d : Dev) (s cls loc : Nat) : Dev :=
  if d.flt.hist.any (HEnt.liveOf s) then
    d.modHist (HEnt.liveOf s) (fun e => { e with
      count := min 0xFFFF (e.count + 1), lastNs := d.tai, cls := max e.cls cls, lastUp := d.up })
  else match d.flt.slot with
    | none => d.bump 0x9000 6
    | some i =>
      let q := (d.flt.seq + 1) % 65536
      let e : HEnt := ⟨d.time80, d.tai, s, cls, 1, loc, 1, false, 0, q, d.up⟩
      { d with flt := { d.flt with seq := q, hist := lset d.flt.hist i e } }

/-- HISTORY_CLOSE_EXPIRY: an entry that holds only corrected events closes (R396). -/
def Dev.histClose (d : Dev) (i : Nat) : Dev :=
  match d.flt.hist[i]? with
  | some e =>
    if e.estate = 1 && e.cls = 0 && decide (e.lastUp + d.obj 0x9000 3 * 1000 ≤ d.up) then
      { d with flt := { d.flt with hist := lset d.flt.hist i { e with estate := 2 } } }
    else d
  | none => d

/-! ### Sources (R391–R395, R398) -/

/-- When a grace timer started now ends. -/
def Dev.graceEnd (d : Dev) : Nat := d.up + d.obj 0x9000 2 * 1000

/-- Steps 1 and 2, and the merge rules of R396: the source after an event of class `cls`. -/
def FSrc.on (x : FSrc) (s cls loc grace now : Nat) : FSrc :=
  let x := { x with quiet := now }
  if x.st = .idle then
    if cls = 0 then x else { x with st := .opened, cls := cls, loc := loc, grace := if s = 1 then none else some grace }
  else
    let x := if x.st = .acked && x.cls = 1 && cls = 2 then { x with grace := some grace } else x
    { x with cls := max x.cls cls }

/-- Credit 0 at once for the positions that a condition names; it lasts while R393, R387 or R400 hold it. -/
def Dev.zeroCredit (d : Dev) : Dev :=
  { d with fab := { d.fab with pos := d.fab.pos.map (fun e => (e.1, if d.noCredit e.1 then { e.2 with credit := 0 } else e.2)) } }

/-- The containments that the fault unit itself takes (R387): fabric stall, router failure. -/
def Dev.contain (d : Dev) (s loc : Nat) : Dev :=
  if s = 0x1A then
    let die := loc % 2 ^ 28
    let h := if d.fab.stallHold.contains die then d.fab.stallHold else d.fab.stallHold ++ [die]
    ({ d with fab := { d.fab with stallHold := h } }).zeroCredit
  else if s = 0x1E && loc / 2 ^ 28 = 1 then
    let ports := (d.portsTo (posRouter (loc % 2 ^ 28 - 1))).filter (fun p => !d.fab.noc.down.contains p)
    d.modNoc (fun n => { n with down := n.down ++ ports })
  else d

/-- Step 4: fault frame, MSI-X vector 64, ward interrupt cause 0x12. -/
def Dev.announce (d : Dev) (s cls : Nat) : Dev :=
  ((d.ringPut 0x20 ringAll ([BitVec.ofNat 8 s, BitVec.ofNat 8 cls] ++ leOctets 10 d.time80)).msix 64).wardIrq 2

/-! ### Cluster failures (R399–R402) -/

/-- Positions of a die that can take a logical cluster over, lowest-numbered first. -/
def Dev.standby (d : Dev) (die : Nat) : List Nat :=
  (upFrom (die * 34) 34).filter (fun p => (d.pos p).st == .standby && (d.pos p).spare && !d.fab.noc.domains.any (fun x => x.positions.contains p))

/-- A position enters the repair map (R440). -/
def Dev.mapRepair (d : Dev) (p : Nat) : Dev :=
  { d with pwr := { d.pwr with repair := lset d.pwr.repair (p / 34) (d.pwr.repair.getD (p / 34) 0 ||| 2 ^ (p % 34)) } }

/-- What a failed position keeps: its assignment and, until a takeover has copied them, its code lines. -/
def Pos.fail (p : Pos) : Pos :=
  { p.emptied .failed with logical := p.logical, code := p.code, badCode := p.badCode }

/-- Contexts whose charge stands on a logical cluster (R401). -/
def Dev.chargedOn (d : Dev) (k : Nat) : List Nat :=
  (d.key.lives.filter (fun (e : Nat × Life) => e.2.charge.isSome && (d.mappedOf e.2.graph).contains k)).map (·.1)

/-- The walks of R401: `ROLLED_BACK` for every frame that was cached, one deadline token with reason 0x01 for every
affected context that is Armed, Parked or Resumed. -/
def Dev.walks (d : Dev) (tags : List Nat) (k : Nat) : Dev :=
  let d := tags.foldl (fun d c => d.modRecord c (fun f => { f with rolledBack := true })) d
  let cs := (tags ++ d.chargedOn k).eraseDups
  cs.foldl (fun d c => match d.life c with
    | some l => if l.st == .armed || l.st == .parked || l.st == .resumed then (d.deadlineToken l 1).bump 0x9200 7 else d
    | none => d) d

/-- No rolling test runs. -/
def Dev.rollEnd (d : Dev) : Dev := { d with pwr := { d.pwr with roll := none, rollTo := none } }.setObj 0x9210 2 0

/-- R403: a takeover on die `die` that needs the spare that a test has consumed ends the test, and the untested position
serves as the spare. -/
def Dev.rollAbandon (d : Dev) (die : Nat) : Dev :=
  match d.pwr.roll, d.pwr.rollTo with
  | some (p, _), some _ =>
    if p / 34 = die && (d.standby die).isEmpty && (d.pos p).st != .failed then
      d.rollEnd.modPos p (fun x => { x.emptied .standby with spare := true })
    else d
  | _, _ => d

/-- Steps 3 and 4 of R400, or R402 where the die has no Standby spare. -/
def Dev.takeover (d : Dev) (p when_ : Nat) : Dev :=
  let d := d.rollAbandon (p / 34)
  match (d.pos p).logical, d.standby (p / 34) with
  | some k, s :: _ =>
    let d := d.modPos p (fun x => { x with logical := none })
    let d := d.modPos s (fun x => { x with logical := some k, isolated := true, spare := false })
    let d := { d with pwr := { d.pwr with take := some (p / 34, p, s, when_), takeStep := 0 } }
    d.askSwap ⟨k, [s], true, 0, d.up, .routes⟩
  | some _, [] => d.report 0x1D (posLoc p)
  | none, _ => d

/-- The next failure that waits for its takeover. -/
def Dev.nextTakeover (d : Dev) : Dev :=
  match d.pwr.takeQ with
  | [] => d
  | (p, t) :: r => Dev.takeover { d with pwr := { d.pwr with takeQ := r } } p t

/-- A cluster position fails (R399). -/
def Dev.failCluster (d : Dev) (p : Nat) : Dev :=
  let x := d.pos p
  if x.st = .standby then ((d.report 0x1B (posLoc p)).modPos p Pos.fail).mapRepair p
  else if x.st ≠ .inService then d
  else
    let tags := x.lines.map (·.fr.ctx)
    let d := (((d.report 0x1B (posLoc p)).modPos p Pos.fail).mapRepair p).modNoc (fun n => { n with down := n.down ++ [(posRouter p, ptLocal)] })
    let d := match x.logical with | some k => d.walks tags k | none => d
    let d := if x.logical.isNone then d
      else if d.pwr.take.isNone then d.takeover p d.up
      else { d with pwr := { d.pwr with takeQ := d.pwr.takeQ ++ [(p, d.up)] } }
    d.quiesceAll

/-- CLUSTER_FAILURE: of the cluster, or of the position's router, which is source 0x1E. -/
def Dev.clusterFailure (d : Dev) (p : Nat) (router : Bool) : Dev :=
  if router then d.report 0x1E (posLoc p) else d.failCluster p

/-- TAKEOVER_CODE_LOADED: the spare's code cache holds the lines of the failed position. -/
def Dev.takeCode (d : Dev) : Dev :=
  match d.pwr.take with
  | some (_, p, s, _) =>
    if d.pwr.takeStep ≠ 0 then d
    else
      let c := (d.pos p).code
      let d := d.modPos s (fun x => { x with code := x.code ++ c.filter (fun a => !x.code.contains a) })
      let d := d.modPos p (fun x => { x with code := [], badCode := [] })
      { d with pwr := { d.pwr with takeStep := 1 } }
  | none => d

/-- TAKEOVER_COMPLETE: the swap is Idle, the code is loaded, the walks are done. -/
def Dev.takeDone (d : Dev) : Dev :=
  match d.pwr.take with
  | some (_, _, s, t) =>
    if d.pwr.takeStep = 1 && d.fab.noc.swap = .idle && !d.fab.noc.domains.any (fun x => x.positions.contains s) then
      let d := (d.modPos s (fun x => { x with isolated := false })).bump 0x9200 1
      let d := d.setObj 0x9200 6 (min (2 ^ 32 - 1) (d.up - t))
      ({ d with pwr := { d.pwr with take := none, takeStep := 0 } }).nextTakeover
    else d
  | none => d

/-! ### The event (R391) -/

/-- FAULT_EVENT: the oldest condition reported is handled. -/
def Dev.faultEvent (d : Dev) : Dev :=
  match d.flt.queue with
  | [] => d
  | ev :: r =>
    let d := { d with flt := { d.flt with queue := r } }
    let (s, loc) := (ev.src, ev.loc)
    let d := (d.modSrc s (fun x => x.count s loc)).bump (0x9100 + s) 1
    let x := d.src s
    let cls := d.classOf s (lsum x.subs)
    let d := (d.record s cls loc).modSrc s (fun x => x.on s cls loc d.graceEnd d.up)
    let d := if cls = 0 then d else d.contain s loc
    let d := if cls = 0 || s = 1 then d else d.announce s cls
    if perLoc s && loc / 2 ^ 28 = 1 && reaches (lsum (tget [] x.locs loc)) (d.obj (0x9100 + s) 4) then
      d.failCluster (loc % 2 ^ 28 - 1)
    else d

/-- `FAULT_N` is low (R392). -/
def Dev.faultN (d : Dev) : Bool := !d.flt.srcs.any (fun (e : Nat × FSrc) => e.2.st != .idle)

/-- The pending reset of action 3 belongs to a source that is still Deadbolted with it, if any. -/
def Dev.pendingReset (d : Dev) : Dev :=
  if d.flt.resetPending then
    match d.flt.srcs.find? (fun (e : Nat × FSrc) => e.2.st == .deadbolted && e.2.action == 3) with
    | some e => { d with flt := { d.flt with resetSrc := e.1 } }
    | none => { d with flt := { d.flt with resetPending := false, resetSrc := 0 } }
  else d

/-- A source returns to Idle: grace timer stopped, actions withdrawn, its entry closed (R395, R396, R398). -/
def Dev.toIdle (d : Dev) (s : Nat) : Dev :=
  ((d.modSrc s (fun x => { x with st := .idle, cls := 0, grace := none, action := 0, loc := 0 })).modHist (HEnt.liveOf s)
    (fun e => { e with estate := 2 })).pendingReset

/-- A grace timer ends with the deadbolt due (R391 step 5). -/
def FSrc.boltDue (x : FSrc) (now : Nat) : Bool :=
  (match x.grace with | some t => decide (t ≤ now) | none => false) && (x.st == .opened || (x.cls == 2 && x.st != .idle))

/-- The deadbolt of a source: its action is taken, but for the reset of action 4. -/
def Dev.deadboltOf (d : Dev) (s : Nat) : Dev :=
  let a := d.obj (0x9100 + s) 6
  let d := d.modSrc s (fun x => { x with st := .deadbolted, grace := none, action := a })
  let d := d.modHist (HEnt.liveOf s) (fun e => { e with dead := a })
  let d := if a = 0 then d else d.bump 0x9000 7
  let d := if a = 3 then { d with flt := { d.flt with resetPending := true, resetSrc := s } } else d
  d.zeroCredit

/-- RELATCH_EXPIRY (R395). -/
def Dev.relatch (d : Dev) (s : Nat) : Dev :=
  let x := d.src s
  if s ≠ 1 && x.st ≠ .idle && x.cls = 1 && decide (x.quiet + d.obj 0x9000 3 * 1000 ≤ d.up) then
    (d.setObj (0x9100 + s) 7 (min 0xFFFF (d.obj (0x9100 + s) 7 + 1))).toIdle s
  else d

/-- FAULT_ACK of history entry `i` (R394, R398). -/
def Dev.faultAck (d : Dev) (i : Nat) : Dev :=
  match d.flt.hist[i]? with
  | some e =>
    if e.estate ≠ 1 then d
    else
      let x := d.src e.src
      let mark (d : Dev) : Dev := { d with flt := { d.flt with hist := lset d.flt.hist i { e with acked := true } } }
      match x.st with
      | .opened => mark (d.modSrc e.src (fun x => { x with st := .acked, grace := if x.cls = 1 then none else x.grace }))
      | .deadbolted => mark d
      | _ => d
  | none => d

/-- FAULT_CLEAR of a source (R395). -/
def Dev.faultClear (d : Dev) (s : Nat) : Dev :=
  let x := d.src s
  if !srcDefined s || x.st = .idle || (x.cls = 2 && x.st ≠ .deadbolted) then d else d.toIdle s

/-! ### Rolling and full tests (R403, R404) -/

/-- The position that the rotation tests next: in service, on a die with a Standby spare. -/
def Dev.rollNext (d : Dev) : Option Nat :=
  let n := 34 * d.dies
  ((upFrom d.pwr.rollNext n).map (· % n)).find? (fun p =>
    (d.pos p).st == .inService && (d.pos p).logical.isSome && !(d.standby (p / 34)).isEmpty)

/-- A position has fired its queued firings and takes no more packets. -/
def Pos.quiet (p : Pos) : Bool :=
  p.rq.all (fun q => sqFill q == 0) && p.fwait.isEmpty && p.probes.isEmpty && p.in1.isEmpty && p.in0.isEmpty
    && p.cells.all (fun c => c.2.pipe.isEmpty)

/-- Every match entry and frame line of a position written back to HBM (R403 step 2). -/
def Dev.writeBackAll (d : Dev) (p : Nat) : Dev :=
  let d := d.modPos p (fun x => { x with wb := x.wb ++ x.ways.map (fun w => (w.ent, false)), ways := [] })
  let d := (List.range (d.pos p).wb.length).foldl (fun d _ => d.wbLink p) d
  let d := ((d.pos p).lines.filter (·.dirty)).foldl (fun d l => (d.putRecord l.fr).bump 0x2803 2) d
  d.modPos p (fun x => { x with lines := [] })

/-- Step 1 of R403: the interval is due; the position's logical cluster is parked. -/
def Dev.rollBegin (d : Dev) : Dev :=
  let n := d.obj 0x9210 1
  if n = 0 || d.up < d.pwr.rollAt + n * 10 ^ 9 || !d.wardUp || d.pwr.take.isSome
      || !d.fab.noc.domains.isEmpty then d
  else match d.rollNext with
    | none => d
    | some p =>
      let d := { d with pwr := { d.pwr with roll := some (p, d.up), rollAt := d.up, rollNext := p + 1 } }
      let d := ((d.modPos p (fun x => { x with isolated := true, credit := 0 })).setObj 0x9210 2 (p + 1))
      d.askSwap ⟨(d.pos p).logical.getD 0, [], true, 0, d.up, .park⟩

/-- Steps 2 and 3 of R403: the parked position has fired what it held; its entries and frame lines go to HBM, and a spare takes
its logical cluster over. Where no spare is left the test is abandoned, and the position goes on. -/
def Dev.rollMove (d : Dev) (p : Nat) : Dev :=
  if d.fab.noc.swap ≠ .idle || !d.fab.noc.domains.isEmpty then d
  else match (d.pos p).st, (d.pos p).logical with
    | .inService, some k => match d.standby (p / 34) with
      | [] => (d.modPos p (fun x => { x with isolated := false })).rollEnd.askSwap ⟨k, [], true, 0, d.up, .unpark⟩
      | s :: _ =>
        if !(d.pos p).quiet then d
        else
          let d := (d.writeBackAll p).drainRouter (posRouter p)
          let c := (d.pos p).code
          let d := d.modPos s (fun x => { x with logical := some k, code := c, spare := false })
          let d := d.modPos p (fun x => x.emptied .off)
          ({ d with pwr := { d.pwr with rollTo := some s } }).askSwap ⟨k, [s], true, 0, d.up, .routes⟩
    | _, _ => d.rollEnd

/-- ROLL_TEST_START (R403): a test that is due begins; the position under test gives its logical cluster to a spare. -/
def Dev.rollStart (d : Dev) : Dev :=
  match d.pwr.roll, d.pwr.rollTo with
  | none, _ => d.rollBegin
  | some (p, _), none => d.rollMove p
  | _, _ => d

/-- The test of a position ends; its result. -/
def Dev.rollResult (d : Dev) (p : Nat) (pass : Bool) : Dev :=
  if pass then (d.modPos p (fun x => { x.emptied .standby with spare := true })).bump 0x9210 3
  else (((d.modPos p (fun x => x.emptied .failed)).report 0x1C (posLoc p)).mapRepair p).bump 0x9210 4

/-- ROLL_TEST_DONE: steps 4 and 5 of R403, once the swap to the spare is done. -/
def Dev.rollDone (d : Dev) (pass : Bool) : Dev :=
  match d.pwr.roll, d.pwr.rollTo with
  | some (p, _), some _ => if d.fab.noc.swap ≠ .idle || !d.fab.noc.domains.isEmpty then d else (d.rollResult p pass).rollEnd
  | _, _ => d

/-- BIST_CMD: a full test of a die (R404). -/
def Dev.bistStart (d : Dev) (die : Nat) : Dev :=
  if d.dies ≤ die || d.pwr.bist.isSome then d
  else if d.ctxActive ≠ 0 || d.flag 0x3000 1 then d.setObj 0x9220 2 3
  else ({ d with pwr := { d.pwr with bist := some die } }).setObj 0x9220 2 1

/-- BIST_DONE: the positions of the die, by number, that failed. -/
def Dev.bistEnd (d : Dev) (failed : List Nat) : Dev :=
  match d.pwr.bist with
  | none => d
  | some die =>
    let fs := (upFrom (die * 34) 34).filter (fun p => failed.contains (p % 34) && (d.pos p).st != .failed)
    let d := fs.foldl (fun d p => ((d.modPos p Pos.fail).report 0x1C (posLoc p)).mapRepair p) d
    ({ d with pwr := { d.pwr with bist := none } }).setObj 0x9220 2 (if fs.isEmpty then 2 else 4)

/-! ### Error injection (R405, R406) -/

/-- INJ_ARM. -/
def Dev.injArm (d : Dev) (v : Nat) : Dev :=
  let c := d.obj 0x9300 1
  let m := d.obj 0x9300 2
  if v ≠ 1 || d.flt.injLeft ≠ 0 || m = 0 || 3 < m || c = 0 || 0x0B < c then d
  else
    let d := { d with flt := { d.flt with
      injLeft := d.obj 0x9300 4, inj := (c, m, d.obj 0x9300 3, d.obj 0x9300 5) } }
    d.wardLog logInject (BitVec.ofNat 8 c :: BitVec.ofNat 8 m :: leOctets 2 (d.obj 0x9300 3) ++ leOctets 2 (d.obj 0x9300 4) ++ leOctets 4 (d.obj 0x9300 5))

/-! ### Meanings -/

/-- FAULT_EVENT (R391). -/
def execFaultEvent (s : State) : Res := s.act Dev.faultEvent
/-- RELATCH_EXPIRY (R395). -/
def execRelatchExpiry (src : Nat) (s : State) : Res := s.act (fun d => d.relatch src)
/-- FAULT_ACK (R394). -/
def execFaultAck (r : DReq) (s : State) : Res := s.act (fun d => d.command r .faultAck (fun _ v d => d.faultAck v))
/-- FAULT_CLEAR (R395). -/
def execFaultClear (r : DReq) (s : State) : Res := s.act (fun d => d.command r .faultClear (fun _ v d => d.faultClear v))
/-- FAULT_SUBWINDOW_TICK (R389). -/
def execFaultSubwindowTick (src : Nat) (s : State) : Res := s.act (fun d => d.subTick src)
/-- HISTORY_CLOSE_EXPIRY (R396). -/
def execHistoryCloseExpiry (i : Nat) (s : State) : Res := s.act (fun d => d.histClose i)
/-- CLUSTER_FAILURE (R399). -/
def execClusterFailure (pos : Nat) (router : Bool) (s : State) : Res := s.act (fun d => d.clusterFailure pos router)
/-- TAKEOVER_CODE_LOADED (R400). -/
def execTakeoverCodeLoaded (s : State) : Res := s.act Dev.takeCode
/-- TAKEOVER_COMPLETE (R400). -/
def execTakeoverComplete (s : State) : Res := s.act Dev.takeDone
/-- ROLL_TEST_START (R403). -/
def execRollTestStart (s : State) : Res := s.act Dev.rollStart
/-- ROLL_TEST_DONE (R403). -/
def execRollTestDone (pass : Bool) (s : State) : Res := s.act (fun d => d.rollDone pass)
/-- BIST_CMD (R404). -/
def execBistCmd (r : DReq) (s : State) : Res := s.act (fun d => d.command r .bistCmd (fun _ v d => d.bistStart v))
/-- BIST_DONE (R404). -/
def execBistDone (failed : List Nat) (s : State) : Res := s.act (fun d => d.bistEnd failed)
/-- INJ_ARM (R406). -/
def execInjArm (r : DReq) (s : State) : Res := s.act (fun d => d.command r .injArm (fun _ v d => d.injArm v))

end Sys2Proof.Machine
end

