-- ==== Sys2Proof/Machine/Governor.lean ====
section
/-! DEFINITION. Sensors, thermal limits and rails (R225, R361, R437–R439), the pace governor with its AVSBus (R433, R434)
and boost (R435, R436). -/

namespace Sys2Proof.Machine

def Dev.modPwr (d : Dev) (f : Pwr → Pwr) : Dev := { d with pwr := f d.pwr }

/-! ### Boost (R435, R436) -/

/-- The cap of the boost balance, ms. -/
def boostCap : Nat := 1800000000
/-- What is charged ahead: 10 s, in ms and in ns. -/
def boostCharge : Nat := 10000
def boostNs : Nat := 10000000000
/-- The balance gains 1,800,000 s in 31,536,000 s: `boostGain` units of 1 / `boostUnit` ms per ns. -/
def boostGain : Nat := 1800000000
def boostUnit : Nat := 31536000000000000

/-- The balance with a gain in units, up to the cap. -/
def Pwr.gain (w : Pwr) (n : Nat) : Pwr :=
  let k := w.accrRem + n
  let b := w.balance + k / boostUnit
  { w with balance := min boostCap b, accrRem := if boostCap ≤ b then 0 else k % boostUnit }

/-- The balance brought up to date; it gains while the timebase counts. -/
def Dev.accrue (d : Dev) : Dev :=
  d.modPwr (fun w =>
    let w' := if d.mainUp && !d.tb.waitLock then w.gain ((d.up - w.accrAt) * boostGain) else w
    { w' with accrAt := d.up })

/-- `BOOST_BALANCE_MS`, to the nearest ms. -/
def Dev.balanceMs (d : Dev) : Nat :=
  let w := d.accrue.pwr
  if boostUnit ≤ 2 * w.accrRem then w.balance + 1 else w.balance

/-- Boost time since the last charge, ms. -/
def Dev.boostMs (d : Dev) : Nat := if d.pwr.boosting then min boostCharge ((d.up - d.pwr.chargeAt) / 1000000) else 0

/-- Any die or hub sensor is at 95 °C or more. -/
def Dev.hot (d : Dev) : Bool := d.pwr.tj.any (fun t => decide (95000 ≤ t))

/-- Boost begins while `BOOST_ENABLE` is true and the balance is at least 10 s. -/
def Dev.boostTry (d : Dev) : Dev :=
  let d := d.accrue
  if d.flag 0xB011 1 && !d.pwr.boosting && decide (boostCharge ≤ d.pwr.balance) then
    d.modPwr (fun w => { w with boosting := true, chargeAt := d.up, balance := w.balance - boostCharge, entries := (w.entries + 1) % 2 ^ 64 })
  else d

/-- Boost ends and `BOOST_ENABLE` is false; the unspent part of the last charge is returned. -/
def Dev.boostEnd (d : Dev) : Dev :=
  let d := (d.setObj 0xB011 1 0).accrue
  if !d.pwr.boosting then d
  else d.modPwr (fun w =>
    let w := w.gain ((boostNs - (d.up - w.chargeAt)) * (boostUnit / 1000000))
    { w with boosting := false, usedMs := w.usedMs + d.boostMs })

/-- BOOST_ENABLE written. -/
def Dev.boostWrite (d : Dev) (v : Nat) : Dev :=
  if v = 0 then d.boostEnd else if d.flag 0xB011 1 || d.hot then d else (d.setObj 0xB011 1 1).boostTry

/-- BOOST_CHARGE_TICK: every 10 s of boost. A balance that cannot pay the next 10 s has reached zero. -/
def Dev.boostTick (d : Dev) : Dev :=
  if !d.pwr.boosting || d.up < d.pwr.chargeAt + boostNs then d
  else
    let d := (d.modPwr (fun w => { w with usedMs := w.usedMs + boostCharge, chargeAt := w.chargeAt + boostNs })).accrue
    if boostCharge ≤ d.pwr.balance then d.modPwr (fun w => { w with balance := w.balance - boostCharge })
    else ((d.modPwr (fun w => { w with boosting := false })).setObj 0xB011 1 0).report 0x73 0

/-! ### The governor (R433, R434) -/

/-- The setpoint's next step, with the lowest pace `m`: in boost towards 0.85 V, after boost down to 0.80 V, else by R433. -/
def govStep (boosting : Bool) (target m v : Nat) : Nat :=
  if boosting then min 850 (v + 5)
  else if 800 < v then v - 5
  else if m < target then min 800 (v + 5)
  else if target + 50 < m then max 600 (v - 5)
  else v

/-- GOVERNOR_TICK: every 10 µs. -/
def Dev.govTick (d : Dev) : Dev :=
  if !d.mainUp || d.up < d.pwr.govAt + 10000 then d
  else
    let d := (d.modPwr (fun w => { w with govAt := d.up })).boostTry
    match d.inService.map (fun e => e.2.pace) with
    | [] => d
    | p :: ps =>
      let m := ps.foldl min p
      let target := d.obj 0xB010 1
      let v := d.pwr.setMv
      let n := govStep d.pwr.boosting target m v
      let d := if !d.pwr.boosting && v == 800 && m < target then d.bump 0xB010 4 else d
      d.modPwr (fun w => { w with minPace := m, setMv := n, avsOut := if n = v then w.avsOut else w.avsOut ++ [n] })

/-- A rail's or a sensor's location: its sub-index of 0xC100. -/
def sensorLoc (sub : Nat) : Nat := faultLoc 8 sub

/-- A fault of the power chain; while the main rails are out there is no fault unit. -/
def Dev.powerFault (d : Dev) (src sub : Nat) : Dev := if d.mainUp then d.report src (sensorLoc sub) else d

/-- AVS_STATUS_POLL: every 100 µs. -/
def Dev.avsPoll (d : Dev) (answered fault : Bool) : Dev :=
  if !d.mainUp || d.up < d.pwr.pollAt + 100000 then d
  else
    let d := d.modPwr (fun w => { w with pollAt := d.up })
    if answered then
      let d := d.modPwr (fun w => { w with avsSince := d.up })
      if fault then d.powerFault 0x72 0x10 else d
    else if d.pwr.avsSince + 1000000 ≤ d.up then (d.modPwr (fun w => { w with avsSince := d.up })).powerFault 0x72 0x10
    else d

/-! ### Sensors and limits (R361, R437–R439) -/

/-- Die sensor `i` (0–3) or the hub's (4) is there. -/
def Dev.hasSensor (d : Dev) (i : Nat) : Bool := i == 4 || decide (i < d.dies)

/-- A sensor's reading taken: R437's hysteresis, its count, fault, interrupt and log entry. -/
def Dev.sensorRead (d : Dev) (i : Nat) (t : Int) : Dev :=
  let was := d.pwr.above.getD i false
  let now := decide (95000 ≤ t) || (was && decide (93000 ≤ t))
  let d := d.modPwr (fun w => { w with tj := lset w.tj i t, tjMax := max w.tjMax t, above := lset w.above i now })
  if now && !was then ((((d.bump 0xB020 3).powerFault 0x70 (i + 1)).wardIrq 4).wardLog logSensor (BitVec.ofNat 8 (i + 1) :: leOctets 5 (wrap 40 t)))
  else d

/-- SENSOR_SAMPLE: every 100 µs. -/
def Dev.sensorSample (d : Dev) (tj tjHbm : List Int) (rails : List Nat) : Dev :=
  if !d.wardUp || d.up < d.pwr.sampleAt + 100000 then d
  else
    let d := d.modPwr (fun w => { w with
      sampleAt := d.up, tjHbm := (List.range 8).map (fun i => tjHbm.getD i 0), rails := (List.range 8).map (fun i => rails.getD i 0) })
    let d := ((List.range 5).filter d.hasSensor).foldl (fun d i => d.sensorRead i (tj.getD i 0)) d
    if d.hot then d.boostEnd else d

/-- The hottest die or hub sensor. -/
def Dev.hottest (d : Dev) : Nat :=
  (((List.range 5).filter d.hasSensor).foldl (fun (b : Nat × Int) i =>
    let t := d.pwr.tj.getD i 0
    if b.2 < t then (i, t) else b) (0, d.pwr.tj.getD 0 0)).1

/-- THERMAL_TRIP: a comparator finds a sensor at 105 °C. -/
def Dev.thermalTrip (d : Dev) : Dev :=
  if !d.wrd.up || d.pwr.tripLow then d
  else ((d.modPwr (fun w => { w with tripLow := true, tripped := true, trips := (w.trips + 1) % 2 ^ 32 })).powerFault 0x71 (d.hottest + 1)).wardLog logSensor
    (BitVec.ofNat 8 (d.hottest + 1) :: leOctets 5 105000)

/-- A rail's place among the rail readings. -/
def Rail.num (r : Rail) : Nat :=
  match r with
  | .vddFab => 0 | .vddHub => 1 | .vddSer09 => 2 | .vddSer12 => 3 | .vddHbm => 4 | .vddIo => 5 | .aux => 6

/-- RAIL_OUT_OF_RANGE: for 10 µs. -/
def Dev.railOut (d : Dev) (r : Rail) : Dev := d.powerFault 0x72 (0x10 + Rail.num r)

/-- HBM_PERIODIC_CALIBRATION. -/
def Dev.calibrate (d : Dev) (stack : Nat) : Dev := if d.pwr.bs.getD (stack + 1) 0 = 2 && decide (stack < d.xs 8 2) then d.bump 0x6011 1 else d

/-! ### Meanings -/

/-- SENSOR_SAMPLE (R361, R437). -/
def execSensorSample (tj tjHbm : List Int) (rails : List Nat) (s : State) : Res := s.act (fun d => d.sensorSample tj tjHbm rails)
/-- GOVERNOR_TICK (R433). -/
def execGovernorTick (s : State) : Res := s.act Dev.govTick
/-- AVS_STATUS_POLL (R434). -/
def execAvsStatusPoll (answered fault : Bool) (s : State) : Res := s.act (fun d => d.avsPoll answered fault)
/-- BOOST_ENABLE (R435). -/
def execBoostEnable (r : DReq) (s : State) : Res := s.act (fun d => d.command r .boost (fun _ v d => d.boostWrite v))
/-- BOOST_CHARGE_TICK (R436). -/
def execBoostChargeTick (s : State) : Res := s.act Dev.boostTick
/-- THERMAL_TRIP (R438). -/
def execThermalTrip (s : State) : Res := s.act Dev.thermalTrip
/-- RAIL_OUT_OF_RANGE (R439). -/
def execRailOutOfRange (rail : Rail) (s : State) : Res := s.act (fun d => d.railOut rail)
/-- HBM_PERIODIC_CALIBRATION (R225). -/
def execHbmPeriodicCalibration (stack : Nat) (s : State) : Res := s.act (fun d => d.calibrate stack)

end Sys2Proof.Machine
end

