-- ==== Sys2Proof/Machine/Fire.lean ====
section
/-! DEFINITION. What a cell does with the firing at its head (chapters 02, 04, 07, 08 and 09): fetch, token check, stale test,
operands, repetitions, the operation, slot write, destinations, LOOPB actions, split-phase requests, exceptions, retirement. -/

namespace Sys2Proof.Machine

/-- What a firing runs with: where, its tokens, its node and that node's address, its life and iteration, the frame as the
slot read stage finds it, and the graph whose code bank the node lies in. -/
structure FireCtx where
  pos  : Nat
  cell : Nat
  f    : Firing
  addr : Nat
  n    : Node
  ctx  : Nat
  gen  : Nat
  iter : Nat
  fr   : Frame
  slot : Nat
  gr   : Graph

/-- The priority of the tokens that a firing emits (R83, R165). -/
def FireCtx.tokPri (x : FireCtx) : Nat := match x.n.pri with | some p => max p x.f.pri | none => x.f.pri

/-- The modes that an operation runs under (R163, R164, R203). -/
def FireCtx.env (x : FireCtx) : AluEnv :=
  ⟨if x.n.wide.isSome then 80 else 40, x.n.sat, x.n.fix, x.n.rnd.getD x.fr.rounding, x.fr.subnormal, x.gr.e2a, x.gr.a2e⟩

/-! ### Operands (R152, R164, R167) -/

/-- The operand that a port's tokens give; a pair has the `STATUS` of its pair-high token (R30). -/
def FireCtx.tokenOp (x : FireCtx) (p : Nat) : Opd :=
  let half (h : Bool) : Option W128 := x.f.toks.find? (fun t => tPort t == p && (tKind t == kHigh) == h)
  if portCount x.n.wide p = 2 then
    let lo := match half false with | some t => tValue t | none => 0
    let hi := match half true with | some t => (tValue t, tSt t) | none => (0, 0)
    ⟨hi.1 * 2 ^ 40 + lo, true, kWord, hi.2⟩
  else match x.f.toks.find? (fun t => tPort t == p) with
    | some t => ⟨tValue t, false, tKind t, tSt t⟩
    | none => noOpd

/-- A value that no token carried: a word with `STATUS` 0. -/
def wordOp (v : Nat) : Opd := ⟨v, false, kWord, 0⟩

/-- The operand of a source octet in repetition `r`. -/
def FireCtx.sourceOp (x : FireCtx) (fr : Frame) (r : Nat) (s : Src) : Opd :=
  match s.sk with
  | 0 => if x.n.wideBit 4 then ⟨fr.slot (s.si + 1) * 2 ^ 40 + fr.slot s.si, true, kWord, 0⟩ else wordOp (fr.slot s.si)
  | 1 | 2 | 3 => wordOp s.imm
  | 4 => wordOp (fr.banks.getD s.si 0)
  | 5 => wordOp r
  | _ => wordOp x.iter

/-- The operand list of repetition `r`. -/
def FireCtx.operands (x : FireCtx) (fr : Frame) (r : Nat) : List Opd :=
  (List.range x.n.ports).map x.tokenOp ++ x.n.srcs.map (x.sourceOp fr r)

/-- The slots that a slot write sets with a value (R164 [5]). -/
def FireCtx.slotWrite (x : FireCtx) (fr : Frame) (o : Opd) : Frame :=
  match x.n.sw with
  | none => fr
  | some i =>
    if x.n.wideBit 5 then
      let v := o.x 80
      { fr with slots := lset (lset fr.slots i (v % 2 ^ 40)) (i + 1) (v / 2 ^ 40) }
    else { fr with slots := lset fr.slots i (o.v % 2 ^ 40) }

/-! ### Destinations and LOOPB (R80, R151, R164, R168, R169) -/

/-- The `ITER` formed for a destination. -/
def Node.iterFor (n : Node) (iter ita : Nat) : Nat :=
  match n.loopb with
  | none => iter
  | some b =>
    let sub := iter / 2 ^ b.lo % 2 ^ b.w
    let rest := iter - sub * 2 ^ b.lo
    match ita with
    | 0 => iter
    | 1 => rest + (sub + 1) % 2 ^ b.w * 2 ^ b.lo
    | _ => rest

/-- Destination `i` is the permission destination. -/
def Node.permits (n : Node) (i : Nat) : Bool := match n.loopb with | some b => b.ret && i + 1 == n.dsts.length | none => false

/-- The node address of a destination. -/
def Dst.node (t : Dst) : Nat := t.bank * 65536 + t.off

/-- A token of the firing to a node. -/
def Dev.fireToken (d : Dev) (x : FireCtx) (iter node port v kind st : Nat) : Dev :=
  d.cellToken x.pos x.cell x.tokPri (mkTok (mkTag x.ctx x.gen iter node port) v kind st)

/-- A permission (R169). -/
def Dev.permission (d : Dev) (x : FireCtx) (iter node : Nat) : Dev := d.fireToken x iter node 3 (2 ^ 32) kControl 0

/-- The context's generation is still that of a firing (R50): its effects are not dropped. -/
def Dev.lives (d : Dev) (x : FireCtx) : Bool := d.gen x.ctx == x.gen

/-- `n` frame writes of a firing at the frame cache port, applied together: dropped and counted where the context's
generation has moved on since the firing began (R50). -/
def Dev.fireWrite (d : Dev) (x : FireCtx) (n : Nat) (f : Frame → Frame) : Dev :=
  if d.lives x then d.modFrame x.ctx f else d.bumpBy 0x2801 4 n

/-- Change the counter slot of a loop. -/
def Dev.loopSlot (d : Dev) (x : FireCtx) (b : Loopb) (v : Nat) : Dev :=
  d.fireWrite x 1 (fun f => { f with slots := lset f.slots b.c v })

/-- The counter slot of a loop. -/
def Dev.loopWord (d : Dev) (x : FireCtx) (b : Loopb) : Nat := match d.frame x.ctx with | some f => f.slot b.c | none => 0

/-- The LOOPB action of a destination (R169). -/
def Dev.loopDst (d : Dev) (x : FireCtx) (t : Dst) : Dev :=
  match x.n.loopb with
  | none => d
  | some b =>
    let it := x.n.iterFor x.iter t.ita
    let s := d.loopWord x b
    match t.ita with
    | 2 => (d.loopSlot x b 1).permission x it t.node
    | 1 =>
      if s % 1024 < b.k then (d.loopSlot x b (s + 1)).permission x it t.node
      else (d.loopSlot x b (s % 1024 + 1024 + it * 2048)).bump 0x2107 1
    | _ => d

/-- The action of the `RET` bit (R169). -/
def Dev.loopRet (d : Dev) (x : FireCtx) : Dev :=
  match x.n.loopb, x.n.dsts.getLast? with
  | some b, some t =>
    if !b.ret then d
    else
      let s := d.loopWord x b
      if bit s 10 then (d.loopSlot x b (s % 1024)).permission x (bits s 20 11) t.node
      else d.loopSlot x b (s - s % 1024 + (s % 1024 + 1023) % 1024)
  | _, _ => d

/-- A result to destination `i`: one token, or a pair under WIDE[3] with the `STATUS` on its pair-high token (R30, R164). -/
def Dev.sendTo (d : Dev) (x : FireCtx) (i : Nat) (o : Opd) : Dev :=
  match x.n.dsts[i]? with
  | none => d
  | some t =>
    if x.n.permits i then d
    else
      let it := x.n.iterFor x.iter t.ita
      let d :=
        if x.n.wideBit 3 then
          let v := o.x 80
          (d.fireToken x it t.node t.port (v % 2 ^ 40) kLow 0).fireToken x it t.node t.port (v / 2 ^ 40) kHigh o.st
        else d.fireToken x it t.node t.port (o.v % 2 ^ 40) o.kind o.st
      d.loopDst x t

/-- The exception token of a firing (R34, R84). -/
def Dev.fireExc (d : Dev) (x : FireCtx) (code detail st : Nat) : Dev :=
  if x.fr.excEntry = 0 then d.bump 0x2802 3
  else d.cellToken x.pos x.cell x.f.pri (mkTok (mkTag x.ctx x.gen x.iter x.fr.excEntry 0)
    (code * 2 ^ 32 + x.addr * 4096 + detail % 4096) kExc st)

/-! ### Results -/

/-- What an operation gives: the value of each destination that receives one, the value of the slot write, and the
`STATUS` that the trap test sees. -/
structure Outs where
  sends : List (Nat × Opd)
  slot  : Option Opd
  st    : Nat

/-- One result to every destination. -/
def Outs.all (o : Opd) (st : Nat) : Outs := ⟨[(0, o), (1, o)], some o, st⟩

/-- A bit result: `KIND` 1 and `STATUS` 0 (R29). -/
def bitOpd (b : Bool) : Opd := ⟨b2n b, false, kBit, 0⟩

/-- Feature words (R172). -/
def featWord (p : Part) (glolet : Bool) (f : Nat) : Nat :=
  match f with
  | 0 => match p with | .x => 0x0138200000 | .s => 0x0148200000
  | 1 => if glolet then 0x22F else 0x7FF
  | 2 => match p with | .x => 0x10400087 | .s => 0x04100087
  | 3 => 0x007C0100
  | _ => 0

/-- `TIME` (R181); an instant still to come is a free number. -/
def Dev.timeWord (d : Dev) (fr : Frame) (s : Nat) : (Nat × Nat) × Dev :=
  match s with
  | 0 => ((d.tai % 2 ^ 40, 0), d)
  | 1 => ((d.tai / 2 ^ 40 % 2 ^ 24, 0), d)
  | 2 =>
    if fr.ingressNs ≤ d.tai then ((min (2 ^ 39 - 1) ((d.tai - fr.ingressNs) / 1000), 0), d)
    else let (v, d) := d.drawNat (2 ^ 39); ((v, 0), d)
  | _ => ((0, stI), d)

/-- `CTXID` (R181). -/
def FireCtx.idWord (x : FireCtx) (s : Nat) : Nat × Nat :=
  match s with
  | 0 => (x.ctx * 64 + x.gen, 0)
  | 1 => (x.fr.partner, 0)
  | 2 => (x.fr.ring, 0)
  | 3 => (x.fr.template, 0)
  | 4 => (x.iter, 0)
  | _ => (0, stI)

/-- Class D (R181). It never traps. -/
def Dev.dOp (d : Dev) (x : FireCtx) (ops : List Opd) : Outs × Dev :=
  let a := ops.getD 0 noOpd
  let b := ops.getD 1 noOpd
  let c := ops.getD 2 noOpd
  match x.n.op with
  | .const => (Outs.all { b with kind := kWord, st := 0 } 0, d)
  | .sel => (Outs.all (if a.b0 then b else c) 0, d)
  | .swap => (⟨[(0, b), (1, a)], some b, 0⟩, d)
  | .steer => (⟨[(b2n b.b0, a)], some a, 0⟩, d)
  | .gate => (if b.b0 then Outs.all a 0 else ⟨[], none, 0⟩, d)
  | .feat => (Outs.all (wordOp (featWord d.part false (b.v % 256))) 0, d)
  | .time => let (v, d) := d.timeWord x.fr (b.v % 2 ^ 40); (Outs.all ⟨v.1, false, kWord, v.2⟩ 0, d)
  | .ctxid => let v := x.idWord (b.v % 2 ^ 40); (Outs.all ⟨v.1, false, kWord, v.2⟩ 0, d)
  | .raise => (⟨[], none, 0⟩, d)
  | _ => (Outs.all a 0, d)

/-- A frame's mode word (R193). -/
def Frame.modeWord (f : Frame) : Nat :=
  f.classPri * 2048 + f.effPri * 256 + f.trapMask * 8 + b2n f.subnormal * 4 + f.rounding

/-- Flag `n` of a frame set to a bit. -/
def Frame.setFlag (f : Frame) (n : Nat) (b : Bool) : Frame :=
  { f with flags := if b then f.flags ||| 2 ^ n else f.flags - b2n (bit f.flags n) * 2 ^ n }

/-- Class Q (R193): the frame it leaves and its result. -/
def qOp (o : Op) (f : Frame) (ops : List Opd) : Frame × Outs :=
  let v := (ops.getD 0 noOpd).v % 2 ^ 40
  let n := (ops.getD 1 noOpd).v % 2 ^ 40
  let bad (k : Nat) : Frame × Outs := (f, Outs.all ⟨0, false, k, if k = kBit then 0 else stI⟩ stI)
  let word (g : Frame) (w : Nat) : Frame × Outs := (g, Outs.all (wordOp w) 0)
  match o with
  | .flgr => if n < 64 then (f, Outs.all (bitOpd (bit f.flags n)) 0) else bad kBit
  | .flgw => if n < 64 then (f.setFlag n (bit v 0), Outs.all (bitOpd (bit v 0)) 0) else bad kBit
  | .flgtas => if n < 64 then (f.setFlag n true, Outs.all (bitOpd (bit f.flags n)) 0) else bad kBit
  | .setbank => if n < 4 then word { f with banks := lset f.banks n (v % 2 ^ 24) } v else bad kWord
  | .getbank => if n < 4 then word f (f.banks.getD n 0) else bad kWord
  | .settrap => word { f with trapMask := v % 32 } f.modeWord
  | .setsub => word { f with subnormal := bit v 0 } f.modeWord
  | .setrnd => word { f with rounding := v % 4 } f.modeWord
  | _ => word f f.modeWord

/-- The operations of class Q that write a flag, a bank register or a mode field. -/
def qWrites (o : Op) : Bool := [Op.flgw, .flgtas, .setbank, .settrap, .setsub, .setrnd].contains o

/-- What an arithmetic operation's outcome gives (R80, R178). -/
def aluOuts (x : FireCtx) (r : Nat) (r2 : Option Nat) (st : Nat) (asBit : Bool) : Outs :=
  let wd := x.n.wide.isSome && !asBit
  let o (v : Nat) : Opd := if asBit then ⟨v, false, kBit, 0⟩ else ⟨v, wd, kWord, st⟩
  match r2 with
  | some q => ⟨[(0, o r), (1, o q)], some (o r), st⟩
  | none => Outs.all (o r) st

/-! ### Repetitions (R166, R167) -/

/-- How the repetitions of a firing end: the frame with the slot writes applied, their number, the execute time, and the
outcome (none where an operation trapped on a subnormal, with the detail). -/
structure RepEnd where
  fr    : Frame
  wrote : Nat
  units : Nat
  out   : Option Outs
  trap  : Nat

/-- The count of a firing (R166). -/
def FireCtx.count (x : FireCtx) : Nat :=
  match x.n.rep with
  | none => 1
  | some v => if bit v 15 then (let c := x.fr.slot (v % 32) % 256; if c = 0 then 256 else c) else v % 256 + 1

/-- The count of a firing is part of its encoding. -/
def FireCtx.encoded (x : FireCtx) : Bool := match x.n.rep with | some v => !bit v 15 | none => true

/-- The repetitions from number `r` on, `left` of them. A sealed firing that traps holds the time of all that its encoding
counts (R217). -/
def FireCtx.repeat (x : FireCtx) : Nat → Nat → Frame → Option Opd → Nat → Nat → RepEnd
  | 0, r, fr, _, _, u => ⟨fr, r, u, none, 0⟩
  | left + 1, r, fr, prev, acc, u =>
    let ops := x.operands fr r
    let ops := match prev with | some o => o :: ops.drop 1 | none => ops
    let step := execUnits x.n.op x.n.cls x.n.wide.isSome x.n.fix x.n.isSeal x.fr.subnormal ops
    let u := u + step
    match aluExec x.n.op x.n.cls x.env ops with
    | .subnormal t => ⟨fr, r, if x.n.isSeal && x.encoded then u + left * step else u, none, t⟩
    | .ok v v2 st asBit =>
      let out := aluOuts x v v2 st asBit
      let fr := match out.slot with | some o => x.slotWrite fr o | none => fr
      if left = 0 then
        let st := acc ||| st
        let o := aluOuts x v v2 st asBit
        ⟨fr, r + 1, u, some o, 0⟩
      else FireCtx.repeat x left (r + 1) fr out.slot (acc ||| st) u

/-! ### Ends of a firing -/

/-- R122, R413: a retired firing is counted and the stall monitor of its die starts anew. -/
def Dev.retired (d : Dev) (x : FireCtx) : Dev :=
  let d := (((d.bump 0x2200 1).bump 0x2201 (x.pos + 1)).posEvent x.pos 6 x.cell)
  { d with fab := { d.fab with stallSince := terase d.fab.stallSince (x.pos / 34),
                               stallHold := d.fab.stallHold.filter (· != x.pos / 34) } }

/-- The firing at the head of a cell retires and holds the execute stage for its time. -/
def Dev.retire (d : Dev) (x : FireCtx) (units : Nat) (effect : Bool) : Dev :=
  let c := d.cell x.pos x.cell
  let d := d.slotEvent x.pos x.cell (if effect then slotR else slotW) c.slots
  let d := d.modCell x.pos x.cell (fun q =>
    { q with pipe := q.pipe.drop 1, busy := d.up + units, effect := effect, slots := 0 })
  (d.retired x).quiesce x.ctx

/-! ### Split-phase requests (R80, R106, R157, R158, R194) -/

/-- The request of a firing. -/
def FireCtx.req (x : FireCtx) : Req :=
  let ds := (x.n.dsts.zipIdx.filter (fun (p : Dst × Nat) => !x.n.permits p.2)).map (fun (p : Dst × Nat) =>
    (⟨p.1.node, p.1.port, x.n.iterFor x.iter p.1.ita⟩ : Dest))
  ⟨x.ctx, x.gen, x.iter, x.addr, x.fr.excEntry, x.tokPri, x.f.pri, x.n.wideBit 3, ds⟩

/-- Operands of an operation without its optional sequencing operand. -/
def baseCount (o : Op) (c : Cls) : Nat :=
  if o == .acas then 3 else if c == .Y || [Op.st, .stb, .sth, .stw, .iwr, .bst, .blts].contains o then 2 else 1

/-- R158: an attachment call that the graph has no right to, or of a function that is not defined. -/
def Dev.noAttachment (d : Dev) (x : FireCtx) : Dev :=
  ((d.bump (0x6200 + x.slot % 64) 5)).hubWord (if x.n.att < 2 then (if x.n.att = 0 then agTumbler else agLane)
    else if x.n.att = 2 then agLexer else agCustomer) x.req 0

/-- An attachment call: whether its claim was refused, and the block. -/
def Dev.attach (d : Dev) (x : FireCtx) (ops : List Opd) : Bool × Dev :=
  let n := x.n
  let v := ops.map (fun (o : Opd) => o.v % 2 ^ 40)
  let last := v.getLastD 0
  if !bit x.gr.rights n.att then (false, d.noAttachment x)
  else match n.att with
    | 7 =>
      let r := x.req
      (false, match d.checkTok 0x03 (faultLoc 7 agCustomer) (mkTok (mkTag r.ctx r.gen r.iter r.node 0) (v.getD 0 0) kWord 0) with
      | (none, d) => d
      | (some t, d) => { d with free := d.free + 1 }.hubWord agCustomer r (Config.customerLogic n.fn (tValue t) d.free % 2 ^ 40))
    | 2 =>
      if n.fn = 0 || 4 ≤ n.fn then (false, d.noAttachment x)
      else
        let r := d.composerCall n.fn x.req (if n.fn = 2 then v.drop (v.length - 3) else [last])
        (r.refused, r.dev)
    | a => if cryptoFn a n.fn then (false, d.cryptoCall a n.fn x.slot x.req last) else (false, d.noAttachment x)

/-- A split-phase request at its unit: whether a claim was refused, and the block. -/
def Dev.splitPhase (d : Dev) (x : FireCtx) : Bool × Dev :=
  let ops := x.operands x.fr 0
  if x.n.cls == .T then d.attach x ops
  else
    let ops := if baseCount x.n.op x.n.cls < ops.length then ops.drop 1 else ops
    let i := ops.getLastD noOpd
    let a := ops.getD 0 noOpd
    let wd := x.n.wide.isSome
    let ea := wrap 40 ((x.fr.banks.getD (x.n.bank.getD 0) 0 * 65536 + x.n.moff : Nat) + i.s)
    let q : MReq := ⟨x.n.op, wd, ea, if wd then a.x 80 else a.v % 2 ^ 40, (ops.getD 1 noOpd).v % 2 ^ 40, false⟩
    match x.n.cls with
    | .B => (false, d.bitOp x.slot x.req { q with ea := i.v % 2 ^ 36, bad := i.v % 2 ^ 40 / 2 ^ 36 != 0 })
    | .K => (false, match x.n.op with
      | .unlock => d.unlockOp x.slot x.req ea
      | .trylock => d.lockReq x.slot x.req ea x.fr.effPri true
      | _ => d.lockReq x.slot x.req ea x.fr.effPri false)
    | _ => (false, d.memOp x.slot x.req q)

/-! ### The firing -/

/-- Slot write, destinations, LOOPB actions and exception of a firing that has its results, in the order of R80. -/
def Dev.emitOuts (d : Dev) (x : FireCtx) (o : Outs) : Dev :=
  let d := o.sends.foldl (fun d (s : Nat × Opd) => d.sendTo x s.1 s.2) d
  let d := d.loopRet x
  if o.st &&& x.fr.trapMask = 0 then d else d.fireExc x 1 0 o.st

/-- A firing that has passed its checks executes. -/
def Dev.execute (d : Dev) (x : FireCtx) : Dev :=
  let n := x.n
  let one (ops : List Opd) : Nat := execUnits n.op n.cls n.wide.isSome n.fix n.isSeal x.fr.subnormal ops
  match n.cls with
  | .D =>
    let ops := x.operands x.fr 0
    let (o, d) := d.dOp x ops
    let d := match o.slot with | some v => if n.sw.isSome then d.fireWrite x 1 (fun f => x.slotWrite f v) else d | none => d
    let d := d.emitOuts x o
    let d := if n.op == .raise then d.fireExc x 1 (0x800 + (ops.getD 0 noOpd).v % 2048) 0 else d
    d.retire x (one ops) (d.lives x)
  | .Q =>
    let ops := x.operands x.fr 0
    let o := (qOp n.op x.fr ops).2
    let d := d.fireWrite x (b2n (qWrites n.op) + b2n n.sw.isSome) (fun f =>
      let g := (qOp n.op f ops).1
      match o.slot with | some v => x.slotWrite g v | none => g)
    (d.emitOuts x o).retire x (one ops) (d.lives x)
  | .M | .Y | .K | .B | .T =>
    let (refused, d) := d.splitPhase x
    let d := (n.dsts.zipIdx.filter (fun (p : Dst × Nat) => !n.permits p.2)).foldl
      (fun d (p : Dst × Nat) => d.loopDst x p.1) d
    (d.loopRet x).retire x 1 (!refused)
  | _ =>
    let e := x.repeat x.count 0 x.fr none 0 0
    let d := if n.sw.isSome then d.fireWrite x e.wrote (fun f => { f with slots := e.fr.slots }) else d
    match e.out with
    | none => (d.fireExc x 2 e.trap 0).retire x e.units (d.lives x)
    | some o => (d.emitOuts x o).retire x e.units (d.lives x)

/-- The tokens of a firing through checker 0x04 (R32): none where one is uncorrectable. -/
def Dev.checkAll (d : Dev) (loc : Nat) : List W128 → Option (List W128) × Dev
  | [] => (some [], d)
  | t :: r =>
    match d.checkTok 4 loc t with
    | (none, d) => (none, d)
    | (some t, d) => match Dev.checkAll d loc r with
      | (some l, d) => (some (t :: l), d)
      | (none, d) => (none, d)

/-- Flip bit `b` of a list of octets. -/
def flipOctets (l : List Byte) (b : Nat) : List Byte :=
  match l[b / 8]? with
  | some o => lset l (b / 8) (o ^^^ BitVec.ofNat 8 (2 ^ (b % 8)))
  | none => l

/-- The lines that hold an instruction of `len` octets at a node address. -/
def nodeLines (node len : Nat) : List Nat := [lineKey node, lineKey (node + (len - 1))]

/-- Octets of the node that a code line is read for. -/
def nodeLen (octets : List Byte) : Nat := match decodeNode octets with | .ok n => n.len | .error _ => 1

/-- The fetch of a node at checker 0x06 (R89): its octets, or none where a code line must be reloaded first. -/
def Dev.fetchNode (d : Dev) (pos node : Nat) : Option (List Byte) × Dev :=
  let l := d.codeAt node
  if (nodeLines node (nodeLen l)).any (fun k => (d.pos pos).badCode.contains k) then (none, d)
  else
    let (m, b, d) := d.takeInj 6 (posLoc pos)
    if m = 2 then
      (none, ((d.modPos pos (fun p => { p with badCode := p.badCode ++ [lineKey node] })).bump 0x2202 5).report 0x17 (posLoc pos))
    else (some (if m = 3 then flipOctets l (b % 120) else l), d)

/-- A frame for a firing whose context has none. -/
def Dev.frameFor (d : Dev) (ctx : Nat) : Frame := match d.frame ctx with | some f => f | none => zeroFrame ctx

/-- The generation that a firing is held against when it begins (R49). -/
def Dev.genFor (d : Dev) (octets : List Byte) (ctx : Nat) : Nat :=
  match decodeNode octets with
  | .ok n => if n.usesFrame then (match d.frame ctx with | some f => f.gen | none => d.gen ctx) else d.gen ctx
  | .error _ => d.gen ctx

/-- What a firing runs with. -/
def Dev.fireCtx (d : Dev) (pos c : Nat) (f : Firing) (t : W128) (n : Node) : FireCtx :=
  let g := (d.graphOfBank (tNode t / 65536)).getD (0, graphInit)
  ⟨pos, c, f, tNode t, n, tCtx t, tGen t, tIter t, d.frameFor (tCtx t), g.1, g.2⟩

/-- A node that stands for an encoding that is illegal: it has no effect of its own. -/
def illegalNode : Node := bareNode .pass 0 []

/-! ### A firing begins (R28, R32, R49, R89, R171) -/

/-- A firing dropped whole as it begins, one slot of the cell wasted. -/
def Dev.dropFiring (d : Dev) (pos ctx : Nat) : Dev := (d.wasted pos).quiesce ctx

/-- An illegal node: its exception token, one pace unit of the execute stage (R171, R214). -/
def Dev.fireIllegal (d : Dev) (x : FireCtx) (detail : Nat) : Dev :=
  let free := max d.up (d.cell x.pos x.cell).busy
  let d := (d.fireExc x 3 detail 0).retired x
  (d.modCell x.pos x.cell (fun q => { q with busy := free + 1, effect := true })).quiesce x.ctx

/-- A fetched firing begins in a cell (R49): its tokens are checked (R32, R28), its generation is compared, its node is
decoded; a firing of a legal node joins the cell's stages. One malformed token discards the firing (log 115). -/
def Dev.beginFiring (d : Dev) (pos c : Nat) (f : Firing) (l : List Byte) : Dev :=
  match f.toks with
  | [] => d
  | t :: _ =>
    let shape := d.shapeOf (tNode t)
    match d.checkAll (posLoc pos) f.toks with
    | (none, d) => d.dropFiring pos (tCtx t)
    | (some toks, d) =>
      let t := toks.headD t
      if toks.any (fun u => tokMalformed u shape) then (d.malformed pos).quiesce (tCtx t)
      else if tGen t ≠ d.genFor l (tCtx t) then (d.staleAt pos 3).quiesce (tCtx t)
      else
        let f := { f with toks := toks }
        match decodeNode l with
        | .error e => d.fireIllegal (d.fireCtx pos c f t illegalNode) e
        | .ok n =>
          let d := if n.usesFrame then d.modPos pos (fun p => p.touchLine (tCtx t) d.up) else d
          d.modCell pos c (fun x => { x with pipe := x.pipe ++ [(⟨f, some l⟩ : InCell)] })

/-- A cell takes a firing (R86, R89): fetched, it begins; where a code line must be reloaded its fetch waits in the cell; a
firing whose code line is no longer loaded is discarded. -/
def Dev.enterCell (d : Dev) (pos c : Nat) (f : Firing) : Dev :=
  match f.toks with
  | [] => d
  | t :: _ =>
    if !(d.pos pos).code.contains (lineKey (tNode t)) then (d.unmapped pos).quiesce (tCtx t)
    else match d.fetchNode pos (tNode t) with
      | (none, d) => d.modCell pos c (fun x => { x with pipe := x.pipe ++ [(⟨f, none⟩ : InCell)] })
      | (some l, d) => d.beginFiring pos c f l

/-! ### Dispatch (R82, R86) -/

/-- Stages of a cell that hold a firing: those that have begun and the one that holds the execute stage (R78). -/
def Cell.load (x : Cell) (now : Nat) : Nat := x.pipe.length + b2n (decide (now < x.busy))

/-- The lowest-numbered cell that is idle at dispatch: its fetch stage is free and it holds fewer than four firings (R78,
R86). -/
def Pos.idleCell (p : Pos) (now : Nat) : Option Nat :=
  (List.range cellCount).find? (fun c =>
    let x := tget cellInit p.cells c
    decide (x.load now < 4) && x.pipe.all (fun y => y.oct.isSome))

/-- What the scheduler meets at a ready queue. -/
inductive Pick where
  | aside (pri : Nat) (f : Firing)
  | give (pri : Nat) (f : Firing)
  deriving DecidableEq, Repr

/-- The firing's node uses frame state and its line is absent (R82). -/
def Dev.frameAbsent (d : Dev) (pos : Nat) (f : Firing) : Bool :=
  match f.toks with
  | [] => false
  | t :: _ =>
    (match d.nodeOf (tNode t) with | some n => n.usesFrame | none => false) && ((d.pos pos).line (tCtx t)).isNone

/-- The highest-priority queue that can be served, among the `n` lowest. -/
def Dev.pick (d : Dev) (pos : Nat) : Nat → Option Pick
  | 0 => none
  | n + 1 =>
    let p := d.pos pos
    match sqUnread (p.queue n) with
    | [] => Dev.pick d pos n
    | f :: _ =>
      if d.frameAbsent pos f then if p.fwait.length < 64 then some (.aside n f) else Dev.pick d pos n
      else if (p.idleCell d.up).isSome then some (.give n f) else none

/-- Remove the head firing of a ready queue. -/
def Dev.popReady (d : Dev) (pos pri : Nat) : Dev :=
  let q := (d.pos pos).queue pri
  match sqReadAuto (d.rqCfg pos pri q) q with
  | some (_, q) => d.setRq pos pri q
  | none => d

/-- A firing goes to the lowest idle cell (R86). -/
def Dev.toCell (d : Dev) (pos : Nat) (f : Firing) : Dev :=
  match (d.pos pos).idleCell d.up with
  | some c => d.enterCell pos c f
  | none => d

/-- What the scheduler met is served: a firing set aside is counted and waits for its frame line (R82); one that is given
leaves its queue for a cell. -/
def Dev.serve (d : Dev) (pos : Nat) : Pick → Dev
  | .aside pri f =>
    let d := d.modPos pos (fun p => { p with fwait := p.fwait ++ [(⟨{ f with pri := pri }, d.up⟩ : FWait)] })
    (d.popReady pos pri).bump 0x2202 6
  | .give pri f => (d.popReady pos pri).toCell pos { f with pri := pri }

/-- DISPATCH (R86): a firing whose frame line is absent is set aside (R82); else the firing goes to the lowest idle
cell, where it begins. Only a position in service dispatches. -/
def Dev.dispatch (d : Dev) (pos : Nat) : Dev :=
  if (d.pos pos).st != .inService then d
  else match d.pick pos 8 with
    | none => d
    | some p => d.serve pos p

/-! ### Code reloads (R89) -/

/-- The firing whose fetch waits in a cell is taken on. -/
def Dev.retryFetch (d : Dev) (pos c : Nat) : Dev :=
  match (d.cell pos c).pipe.getLast? with
  | some ⟨f, none⟩ => (d.modCell pos c (fun x => { x with pipe := x.pipe.dropLast })).enterCell pos c f
  | _ => d

/-- CODE_RELOAD_DONE: the line of a position that waits longest has been reloaded; the fetches that waited go on. -/
def Dev.codeReload (d : Dev) (pos : Nat) : Dev :=
  if (d.pos pos).badCode.isEmpty then d
  else (List.range cellCount).foldl (fun d c => d.retryFetch pos c) (d.modPos pos (fun p => { p with badCode := p.badCode.drop 1 }))

/-! ### A firing executes -/

/-- The head firing of a cell can go on: the cell's execute stage is free and its router has room for what it emits (R79,
R325). -/
def Dev.cellReady (d : Dev) (pos c : Nat) (n : Node) : Bool :=
  decide ((d.cell pos c).busy ≤ d.up) && (tget routerInit d.fab.noc.routers (posRouter pos)).injRoom n.maxTokens

/-- A cell of a position takes its head firing on, where its node is one that `want` names. -/
def Dev.fireCell (d : Dev) (pos c : Nat) (want : Node → Bool) : Dev :=
  match (d.cell pos c).pipe with
  | ⟨f, some l⟩ :: _ =>
    match f.toks, decodeNode l with
    | t :: _, .ok n => if d.cellReady pos c n && want n then d.execute (d.fireCtx pos c f t n) else d
    | _, _ => d
  | _ => d

/-- DISPATCH (R86). -/
def execDispatch (pos : Nat) (s : State) : Res := s.act (fun d => d.dispatch pos)
/-- CODE_RELOAD_DONE (R89). -/
def execCodeReloadDone (pos : Nat) (s : State) : Res := s.act (fun d => d.codeReload pos)

end Sys2Proof.Machine
end

