-- ==== Sys2Proof/Machine/Links.lean ====
section
/-! DEFINITION. The Fyurn links (R341–R346), the translation of tags, proxies and their admission (R348–R351). -/

namespace Sys2Proof.Machine

/-! ### Ports (R341) -/

def Dev.nLinks (d : Dev) : Nat := d.xs 6 2
def Dev.link (d : Dev) (l : Nat) : Link := tget linkInit d.lnk.links l
def Dev.modLnk (d : Dev) (f : Lnk → Lnk) : Dev := { d with lnk := f d.lnk }
def Dev.modLink (d : Dev) (l : Nat) (f : Link → Link) : Dev :=
  d.modLnk (fun x => { x with links := tmod linkInit x.links l f })

/-- The index of a port's objects. -/
def lidx (l : Nat) : Nat := 0x8101 + 16 * l

/-- The location of a link port's faults (R388). -/
def linkLoc (l : Nat) : Nat := faultLoc 4 l

/-- This device's ID (R345); its bit 15 says that it is unassigned. -/
def Dev.devId (d : Dev) : Nat := d.obj 0x8100 1 % 4096

/-! ### Words and receive buffers (R342, R343) -/

/-- A flit word's bits above its CRC. -/
def LWord.body (w : LWord) : Nat :=
  w.flit.hdr.toNat * 2 ^ 224 + w.flit.pl.toNat * 2 ^ 96 + w.ddev * 2 ^ 84 + w.odev * 2 ^ 72 + w.hops * 2 ^ 64 + w.seq * 2 ^ 52

/-- The CRC of a link word: CRC-32C over [255:32], octet [39:32] first. -/
def linkCrc (w : Nat) : Nat := crc32c (leOctets 28 (w / 2 ^ 32))

/-- A link word with its CRC. -/
def withCrc (w : Nat) : Nat := w / 2 ^ 32 * 2 ^ 32 + linkCrc w

/-- A control word: `WTYPE`, four credit returns, VC0's first, and a `SEQ`. -/
def ctlWord (typ seq : Nat) (returns : List Nat) : Nat :=
  withCrc ((List.range 4).foldl (fun a i => a * 4096 + returns.getD i 0 % 4096) 0 * 2 ^ 208 + seq % 4096 * 2 ^ 196 + typ * 2 ^ 48)

def seq12 (n : Nat) : Nat := n % 4096

/-- A control word with the credits to return, after 64 words or at once while nothing waits to be sent (R343). -/
def Link.returnCredits (x : Link) : Link :=
  if (64 ≤ x.since64 || x.txq.isEmpty) && (0 < x.since64 || x.rxCnt.any (fun n => 0 < n)) then
    { x with sent := x.sent ++ [ctlWord 1 (seq12 (x.seqRx + 4095)) x.rxCnt], rxCnt := [0, 0, 0, 0], since64 := 0 }
  else x

/-- The receive buffer slot of a word that goes on or ends is free: its credit is to be returned. -/
def Dev.freeWord (d : Dev) (w : LWord) : Dev :=
  match w.inp with
  | some l => d.modLink l (fun x =>
      let vc := hVc w.flit.hdr
      ({ x with rxCnt := lset x.rxCnt vc (x.rxCnt.getD vc 0 + 1) } : Link).returnCredits)
  | none => d

/-- A word discarded because port `l` is not Up (R346). -/
def Dev.downDrop (d : Dev) (l : Nat) (w : LWord) : Dev :=
  ((((d.freeWord w).bump (lidx l) 4).report 0x53 (linkLoc l))).quiesce (tCtx w.flit.pl)

/-- Words from a port whose buffers are gone. -/
def forget (l : Nat) (w : LWord) : LWord := if w.inp = some l then { w with inp := none } else w

/-- A port takes a state; where it leaves Up, what it has not delivered is discarded and its receive buffers end. -/
def Dev.linkTo_ (d : Dev) (l : Nat) (st : LinkState) : Dev :=
  let x := d.link l
  let d := d.modLink l (fun x => { x with
    st := st, since := d.up, replay := [], txq := [], retries := [], aligned := false,
    rate := if st = .training then d.obj (lidx l) 7 else x.rate })
  let d := x.txq.foldl (fun d w => d.downDrop l w) (x.replay.foldl (fun d w => d.downDrop l { w with inp := none }) d)
  d.modLnk (fun y => { y with links := y.links.map (fun (e : Nat × Link) => (e.1, { e.2 with txq := e.2.txq.map (forget l) })),
                              wait := y.wait.map (forget l) })

/-- A port goes Up: sequence numbers and credits start afresh. -/
def Dev.linkUp (d : Dev) (l : Nat) : Dev :=
  d.modLink l (fun x => { x with
    st := .up, since := d.up, seqTx := 0, seqRx := 0, awaiting := false, replay := [], credits := linkCredits,
    rxCnt := [0, 0, 0, 0], since64 := 0, retries := [], aligned := true })

/-- LINK_ENABLE_SET. -/
def Dev.linkEnable (d : Dev) (l : Nat) : Dev :=
  let d := d.setObj (lidx l) 1 1
  if (d.link l).st = .disabled then d.linkTo_ l .training else d

/-- LINK_ENABLE_CLEAR: from any state. -/
def Dev.linkDisable (d : Dev) (l : Nat) : Dev := (d.setObj (lidx l) 1 0).linkTo_ l .disabled

/-- LINK_TRAINED: lanes locked and FEC aligned; `neighbour` is the neighbour's `DEVICE_ID`, `flight` the time measured. -/
def Dev.linkTrained (d : Dev) (l neighbour flight : Nat) : Dev :=
  if (d.link l).st ≠ .training || d.nLinks ≤ l || d.pwr.bs.getD (13 + l) 0 ≠ 2 then d
  else if bit (d.obj 0x8100 1) 15 || bit neighbour 15 || neighbour % 4096 == d.devId then d.report 0x50 (linkLoc l)
  else ((d.linkUp l).setObj (lidx l) 8 (neighbour % 4096)).setObj (lidx l) 9 (flight % 65536)

/-- LINK_ALIGNMENT_LOST. -/
def Dev.linkLost (d : Dev) (l : Nat) : Dev := if (d.link l).st = .up then d.linkTo_ l .retraining else d

/-- LINK_REALIGNED: within 100 ms. -/
def Dev.linkRealigned (d : Dev) (l : Nat) : Dev :=
  let x := d.link l
  if x.st = .retraining && decide (d.up < x.since + 100000000) then d.linkUp l else d

/-- LINK_RETRAIN_TIMEOUT: 100 ms in Retraining. -/
def Dev.linkTimeout (d : Dev) (l : Nat) : Dev :=
  let x := d.link l
  if x.st = .retraining && decide (x.since + 100000000 ≤ d.up) then (d.linkTo_ l .down).report 0x51 (linkLoc l) else d

/-- LINK_DOWN_EXPIRY: 10 ms in Down. -/
def Dev.linkDownEnd (d : Dev) (l : Nat) : Dev :=
  let x := d.link l
  if x.st = .down && decide (x.since + 10000000 ≤ d.up) then d.linkTo_ l .training else d

/-- A retry request sent or received: counted; eight within 1 ms put the port in Retraining. -/
def Dev.retryNote (d : Dev) (l : Nat) : Dev :=
  let d := d.bump (lidx l) 3
  let rs := d.up :: (d.link l).retries.filter (fun t => decide (d.up < t + 1000000))
  if 8 ≤ rs.length then d.linkTo_ l .retraining else d.modLink l (fun x => { x with retries := rs })

/-! ### Device routes (R346) -/

/-- The entry that a word uses: of the bank that its `EPOCH` names. -/
def Dev.devRoute (d : Dev) (w : LWord) : Nat :=
  let e := tget 0xFF (if hEpoch w.flit.hdr then d.lnk.dr1 else d.lnk.dr0) w.ddev
  if hVc w.flit.hdr = 2 then e % 16 else e / 16

/-- A word under the current epoch of its channel (R333). -/
def Dev.atEpoch (d : Dev) (w : LWord) : LWord :=
  { w with flit := mkFlit (setEpoch w.flit.hdr (d.fab.noc.epoch.getD (hVc w.flit.hdr) false)) w.flit.pl }

/-- The link selection entry `i` (R348). -/
def Dev.linkSel (d : Dev) (i : Nat) : Nat := d.obj (if i < 128 then 0x8130 else 0x8138) (i % 128 + 1)

/-- The lowest-numbered selection entry that matches an origin. -/
def Dev.linkMatch (d : Dev) (odev : Nat) : Option Nat :=
  (List.range 256).find? (fun i => let w := d.linkSel i; bit w 63 && (bit w 62 || bits w 61 50 == odev))

def lsEntry (w : Nat) : Nat := bits w 49 30
def lsTpl (w : Nat) : Nat := bits w 29 22
def lsReturn (w : Nat) : Dest := ⟨bits w 21 2, bits w 1 0, 0⟩

/-- Two tokens of one origin triple. -/
def LTok.same (a b : LTok) : Bool := a.odev == b.odev && tCtx a.pl == tCtx b.pl && tGen a.pl == tGen b.pl

/-- The proxy of an origin triple. -/
def Dev.proxyOf (d : Dev) (odev : Nat) (t : W128) : Option Proxy :=
  d.lnk.proxies.find? (fun p => p.odev == odev && p.octx == tCtx t && p.ogen == tGen t)

/-- `CTX` and `GEN` replaced (R349). -/
def retag (t : W128) (ctx gen : Nat) : W128 :=
  withCheck ((ctx % 2 ^ 24 * 2 ^ 40 + gen % 64 * 2 ^ 34 + bits t.toNat 97 64) * 2 ^ 48 + bits t.toNat 63 16)

/-- A token from a link goes into this device's network; on VC2 it stays there (R115). -/
def Dev.linkInject (d : Dev) (vc pri : Nat) (t : W128) : Dev :=
  d.inject hubRouter vc pri (hubSrc agLink) (d.route (tNode t) (tCtx t)) t

/-- R348: discarded. -/
def Dev.orphanToken (d : Dev) : Dev := d.bump 0x8102 4

/-- A node's code belongs to a graph. -/
def Dev.ownsNode (d : Dev) (g node : Nat) : Bool :=
  match d.graphOfBank (node / 65536) with | some (s, _) => s == g | none => false

/-- The graphs that an origin's tokens enter: those of the link entry nodes that its selection entries name. -/
def Dev.shardNode (d : Dev) (odev node : Nat) : Bool :=
  (List.range 256).any (fun i =>
    let w := d.linkSel i
    bit w 63 && (bit w 62 || bits w 61 50 == odev) && d.ownsNode (tGraph (d.tpl (lsTpl w))) node)

/-- A word whose destination is this device (R348, R349, R351): a proxy's token is translated; one to a link entry node
waits for the keyway; a return token goes on as it is, stale or not (R49); any other token for a graph that the origin
enters is discarded. A return token is one for the graph of its Active context, or for a graph that the origin does not
enter. -/
def Dev.wordHere (d : Dev) (w : LWord) : Dev :=
  let t := w.flit.pl
  let vc := hVc w.flit.hdr
  let pri := hPrio w.flit.hdr
  let x : LTok := ⟨w.odev, t, pri, w.at_⟩
  match d.proxyOf w.odev t with
  | some p => d.linkInject vc pri (retag t p.ctx p.gen)
  | none =>
    let entry := match d.linkMatch w.odev with | some i => lsEntry (d.linkSel i) == tNode t | none => false
    let mine := match d.life (tCtx t) with | some l => l.gen == tGen t && d.ownsNode l.graph (tNode t) | none => false
    if entry then
      if d.lnk.decide_.any (LTok.same x) then d.modLnk (fun y => { y with hold := y.hold ++ [x] })
      else d.modLnk (fun y => { y with decide_ := y.decide_ ++ [x] })
    else if mine || !d.shardNode w.odev (tNode t) then d.linkInject vc pri t
    else d.orphanToken

/-- A word on its way: to a port's queue, into this device, or discarded. A word of this device's own that finds no route
counts at port 0. -/
def Dev.wordOn (d : Dev) (w : LWord) : Dev :=
  let p := d.devRoute w
  let l := w.inp.getD 0
  if p = 8 then (d.wordHere w).freeWord w
  else if p < d.nLinks then
    if (d.link p).st = .up then d.modLink p (fun x => { x with txq := x.txq ++ [w] }) else d.downDrop p w
  else (((d.freeWord w).bump (lidx l) 5).report 0x53 (linkLoc l)).quiesce (tCtx w.flit.pl)

/-- The same, held while the word's device index is being swapped (R334, R346). -/
def Dev.wordGo (d : Dev) (w : LWord) : Dev :=
  if d.fab.noc.holds (hVc w.flit.hdr) (w.ddev + 256) then (d.modLnk (fun x => { x with wait := x.wait ++ [w] })).bump 0x8000 7
  else d.wordOn w

/-! ### Receiving (R342–R344) -/

/-- Data bit `b` of a link word inverted. -/
def flipLink (w : LWord) (b : Nat) : LWord :=
  if 96 ≤ b && b < 224 then { w with flit := { w.flit with pl := w.flit.pl ^^^ BitVec.ofNat 128 (2 ^ (b - 96)) } }
  else if 224 ≤ b then { w with flit := { w.flit with hdr := w.flit.hdr ^^^ BitVec.ofNat 32 (2 ^ (b - 224)) } }
  else if 84 ≤ b then { w with ddev := w.ddev ^^^ 2 ^ (b - 84) }
  else if 72 ≤ b then { w with odev := w.odev ^^^ 2 ^ (b - 72) }
  else if 64 ≤ b then { w with hops := w.hops ^^^ 2 ^ (b - 64) }
  else w

/-- A retry request for the expected `SEQ`. -/
def Dev.askRetry (d : Dev) (l : Nat) : Dev :=
  (d.modLink l (fun x => { x with awaiting := true, sent := x.sent ++ [ctlWord 3 x.seqRx []] })).retryNote l

/-- A word taken in order into a receive buffer. -/
def Link.take (x : Link) : Link := { x with awaiting := false, seqRx := seq12 (x.seqRx + 1), since64 := x.since64 + 1 }

/-- LINK_WORD_RECEIVE. The word takes the local epoch of its channel (R333). -/
def Dev.wordReceive (d : Dev) (l : Nat) (i : WordIn) : Dev :=
  if (d.link l).st ≠ .up then d
  else
    let (m, b, d) := d.takeInj 0x0A (linkLoc l)
    let w : LWord := ⟨mkFlit i.hdr i.pl, i.ddev % 4096, i.odev % 4096, i.hops % 256, seq12 i.seq, some l, d.tai⟩
    if i.fec || i.crc ≠ linkCrc w.body || m = 1 || m = 2 then d.askRetry l
    else if w.seq ≠ (d.link l).seqRx then if (d.link l).awaiting then d else d.askRetry l
    else
      let w := d.atEpoch (if m = 3 then flipLink w b else w)
      let d := d.modLink l Link.take
      let d :=
        if w.hops = 31 then (((d.freeWord w).bump (lidx l) 6).report 0x52 (linkLoc l)).quiesce (tCtx w.flit.pl)
        else if d.devRoute w = 8 then d.wordGo w
        else d.wordGo { w with hops := w.hops + 1 }
      d.modLink l Link.returnCredits

/-- A word of the replay buffer is acknowledged by `SEQ` `q`. -/
def ackedBy (q : Nat) (w : LWord) : Bool := decide (seq12 (q + 4096 - w.seq) < 2048)

/-- Credits returned, per VC. -/
def addCredits : List Nat → List Nat → List Nat
  | c :: cs, r :: rs => (c + r) :: addCredits cs rs
  | cs, _ => cs

/-- LINK_CREDIT_WORD. -/
def Dev.creditWord (d : Dev) (l : Nat) (returns : List Nat) (q : Nat) : Dev :=
  if (d.link l).st ≠ .up then d
  else d.modLink l (fun x => { x with
    credits := addCredits x.credits returns, replay := x.replay.filter (fun w => !ackedBy (seq12 q) w) })

/-- LINK_RETRY_REQUEST: everything before `SEQ` `q` is acknowledged and the rest sent again in order. -/
def Dev.retryRequest (d : Dev) (l q : Nat) : Dev :=
  if (d.link l).st ≠ .up then d
  else
    let d := d.modLink l (fun x =>
      let rest := x.replay.filter (fun w => !ackedBy (seq12 (q + 4095)) w)
      { x with replay := rest, sent := x.sent ++ rest.map (fun w => withCrc w.body) })
    d.retryNote l

/-! ### Sending (R349, R350) -/

/-- A word of this device's own. -/
def Dev.ownWord (d : Dev) (hdr : BitVec 32) (t : W128) (ddev : Nat) : LWord :=
  ⟨mkFlit hdr t, ddev, d.devId, 0, 0, none, d.tai⟩

/-- R350: the first return token of a proxy claims the response, marked as stand-in. -/
def Dev.returnClaim (d : Dev) (p : Proxy) : Option Dev :=
  match d.lifeOf p.ctx p.gen with
  | none => none
  | some l =>
    if !l.takesResponse true then none
    else
      let d := d.setLife { l.release with
        st := .claimed, timer := false, respNs := some d.tai, respDone := true, flags := l.flags ||| 2 }
      some (d.modLnk (fun x => { x with proxies := x.proxies.map (fun q => if q = p then { q with first := true } else q) }))

/-- A token that reached the link agent leaves for its device. A claim that is refused counts as a wasted slot of the
context's home cluster (R21). -/
def Dev.tokenOut (d : Dev) (f : Flit) : Dev :=
  let t := f.pl
  let dev := bits (d.placeEntry (tNode t)) 28 17
  match (if dev = d.devId then d.lnk.proxies.find? (fun p => p.ctx == tCtx t && p.gen == tGen t) else none) with
  | none => d.wordGo (d.ownWord f.hdr t dev)
  | some p =>
    let w := d.ownWord f.hdr (retag t p.octx p.ogen) p.odev
    if p.first then (d.wordGo w).quiesce p.ctx
    else match d.returnClaim p with
      | some d => (d.wordGo w).quiesce p.ctx
      | none => (match d.homePos p.ctx with | some k => d.wasted k | none => d).quiesce p.ctx

/-- Refusal words go first; then words that were held; then the oldest token. -/
def Dev.agentStep (d : Dev) : Dev :=
  let rs := d.lnk.refusals
  let d := d.modLnk (fun x => { x with refusals := [] })
  let d := rs.foldl (fun d r => (d.bump 0x8120 3).wordGo (d.atEpoch (d.ownWord (mkHdr 0 0x3F agLink 1 r.pri false (hubSrc agKeyway) 0) r.pl r.odev))) d
  let free (w : LWord) : Bool := !d.fab.noc.holds (hVc w.flit.hdr) (w.ddev + 256)
  let ws := d.lnk.wait.filter free
  let d := d.modLnk (fun x => { x with wait := x.wait.filter (fun w => !free w) })
  let d := ws.foldl (fun d w => d.wordOn (d.atEpoch w)) d
  match d.fab.noc.linkOut with
  | [] => d
  | f :: r => (d.modNoc (fun n => { n with linkOut := r })).tokenOut f

/-- The word that a port sends next: VC2 first, else the oldest with a credit (R326, R343). -/
def Link.next (x : Link) : Option (LWord × List LWord) :=
  let can (w : LWord) : Bool := decide (0 < x.credits.getD (hVc w.flit.hdr) 0)
  match takeFirst (fun w => can w && hVc w.flit.hdr == 2) x.txq with
  | some r => some r
  | none => takeFirst can x.txq

/-- A port sends a word: into the replay buffer, of 2,048 words (R344). -/
def Dev.transmit (d : Dev) (l : Nat) : Dev :=
  let x := d.link l
  if x.st ≠ .up || 2048 ≤ x.replay.length then d
  else match x.next with
    | none => d
    | some (w, rest) =>
      let vc := hVc w.flit.hdr
      let w := { w with seq := x.seqTx }
      let d := d.modLink l (fun x => { x with
        txq := rest, replay := x.replay ++ [{ w with inp := none }], sent := x.sent ++ [withCrc w.body], seqTx := seq12 (x.seqTx + 1),
        credits := lset x.credits vc (x.credits.getD vc 0 - 1) })
      let d := (d.freeWord w).modLink l Link.returnCredits
      if vc = 2 then d.bump 0x2101 3 else d

/-- LINK_TOKEN_SEND. -/
def Dev.tokenSend (d : Dev) (l : Nat) : Dev := d.agentStep.transmit l

/-! ### Proxies (R348, R350, R351) -/

def Dev.proxyCap (d : Dev) : Nat := d.xs 262144 65536

/-- The ring number that no proxy's response uses: it is never Above. -/
def noRing : Nat := 256

/-- The life that an accepted token begins. -/
def Dev.proxyLife (d : Dev) (x : LTok) (i ctx lc : Nat) : Life :=
  let w := d.linkSel i
  let t := lsTpl w
  let o := d.tpl t
  { ctx := ctx, gen := d.gen ctx, tpl := t, graph := tGraph o, partner := x.odev, ring := 0, session := 0xFFFF,
    home := lc, st := .armed, ingress := x.at_, arrived := true, ddlUs := tInternal o,
    due := dueTime x.at_ (tInternal o) (tStandin o), fb := fbPoint x.at_ (tInternal o), timer := true,
    charge := some (d.mkCharge (tClass o) (d.shares t).1 (cdiv (tFixed o) 1000)), commit := tPre o,
    forwarded := false, byStandin := false, respNs := none, respDone := false, flags := 0, app := [],
    typeCode := i, lexing := false, refusal := some (lsReturn w), retCtx := tCtx x.pl * 64 + tGen x.pl,
    match_ := tMatch o, spill := tSpill o }

/-- The code of a refusal, or the life with its home. -/
def Dev.proxyAdmit (d : Dev) (x : LTok) (i : Nat) : Except Nat (Life × Nat × Nat) :=
  let t := lsTpl (d.linkSel i)
  let o := d.tpl t
  let g := tGraph o
  if d.keyClosed then .error 0x01
  else if !d.tplUsable t || !d.flag (0x3100 + t) 5 then .error 0x05
  else if d.shortOf g then .error 0x06
  else if d.proxyCap ≤ d.lnk.proxies.length then .error 0x07
  else match d.freeHead with
    | none => .error 0x07
    | some ctx => match d.pickHome g ctx with
      | none => .error 0x08
      | some (k, lc) => match d.admitCode t noRing (d.tai - x.at_ - 300) x.at_ with
        | 0 => .ok (d.proxyLife x i ctx lc, k, lc)
        | e => .error e

/-- A token turned away: counted, refused to its origin, journaled. -/
def Dev.proxyReject (d : Dev) (x : LTok) (i code : Nat) : Dev :=
  let w := d.linkSel i
  let t := lsTpl w
  let d := if code = 0x08 then d.requeueHead else d
  let d := (((d.bump 0x3000 3).bump 0x3010 code).hubEvent 0x41 code).bump (0x3100 + t) 7
  let d := d.refuseWord x.odev (tCtx x.pl * 64 + tGen x.pl) (lsReturn w) (tClass (d.tpl t)) 1 code
  d.journal { jrec0 with
    typ := 3, reason := code, session := 0xFFFF, partner := x.odev, ingress := x.at_, typeCode := i }

/-- A proxy context begun (R348): its first token and those of its triple that waited enter as its own. -/
def Dev.proxyBegin (d : Dev) (x : LTok) (i : Nat) (more : List LTok) (l : Life) (k lc : Nat) : Dev :=
  let d := (((d.allocate l k lc).bump 0x3000 2).bump (0x3100 + l.tpl) 6).hubEvent 0x40 l.tpl
  let p : Proxy := ⟨x.odev, tCtx x.pl, tGen x.pl, l.ctx, l.gen, i, false⟩
  let d := (d.modLnk (fun y => { y with proxies := y.proxies ++ [p] })).bump 0x8120 2
  (x :: more).foldl (fun d (z : LTok) => d.linkInject 1 z.pri (retag z.pl l.ctx l.gen)) d

/-- The decision on a link token that matches entry `i` (R348). -/
def Dev.proxyDecide (d : Dev) (x : LTok) (i : Nat) (more : List LTok) : Dev :=
  let d := d.lateBy (d.tai - x.at_ - 300)
  match d.proxyAdmit x i with
  | .error code => more.foldl (fun d _ => d.orphanToken) (d.proxyReject x i code)
  | .ok (l, k, lc) => d.proxyBegin x i more l k lc

/-- PROXY_ADMISSION: the oldest token to a link entry node is decided; those of its triple that wait follow it. -/
def Dev.proxyAdmission (d : Dev) : Dev :=
  match d.lnk.decide_ with
  | [] => d
  | x :: rest =>
    if d.paceDue || d.signalNext then d
    else
      let d := d.drainTick
      let more := d.lnk.hold.filter (LTok.same x)
      let d := d.modLnk (fun y => { y with decide_ := rest, hold := y.hold.filter (fun z => !z.same x) })
      match d.linkMatch x.odev with
      | none => (x :: more).foldl (fun d _ => d.orphanToken) d
      | some i => d.proxyDecide x i more

/-- DEVICE_ID_WRITE (R345, R357): ignored while any port is not Disabled; [14:12] read as written 0. -/
def Dev.deviceIdWrite (d : Dev) (v : Nat) : Dev :=
  if (List.range d.nLinks).any (fun l => (d.link l).st != .disabled) then d
  else d.setObj 0x8100 1 (if bit v 15 then 0x8000 else v % 4096)

/-! ### Meanings -/

/-- The port that a request's object belongs to. -/
def Dev.reqLink (d : Dev) (r : DReq) (f : Dev → Nat → Dev) : Dev :=
  match linkOfIdx d.part r.idx with | some l => f d l | none => d

/-- LINK_ENABLE_SET (R341). -/
def execLinkEnableSet (r : DReq) (s : State) : Res := s.act (fun d => d.command r .linkSet (fun _ _ d => d.reqLink r Dev.linkEnable))
/-- LINK_ENABLE_CLEAR (R341). -/
def execLinkEnableClear (r : DReq) (s : State) : Res := s.act (fun d => d.command r .linkClear (fun _ _ d => d.reqLink r Dev.linkDisable))
/-- LINK_TRAINED (R341). -/
def execLinkTrained (l neighbour flight : Nat) (s : State) : Res := s.act (fun d => d.linkTrained l neighbour flight)
/-- LINK_ALIGNMENT_LOST (R341). -/
def execLinkAlignmentLost (l : Nat) (s : State) : Res := s.act (fun d => d.linkLost l)
/-- LINK_REALIGNED (R341). -/
def execLinkRealigned (l : Nat) (s : State) : Res := s.act (fun d => d.linkRealigned l)
/-- LINK_RETRAIN_TIMEOUT (R341). -/
def execLinkRetrainTimeout (l : Nat) (s : State) : Res := s.act (fun d => d.linkTimeout l)
/-- LINK_DOWN_EXPIRY (R341). -/
def execLinkDownExpiry (l : Nat) (s : State) : Res := s.act (fun d => d.linkDownEnd l)
/-- LINK_WORD_RECEIVE (R342). -/
def execLinkWordReceive (l : Nat) (w : WordIn) (s : State) : Res := s.act (fun d => d.wordReceive l w)
/-- LINK_CREDIT_WORD (R343). -/
def execLinkCreditWord (l : Nat) (returns : List Nat) (seq : Nat) (s : State) : Res := s.act (fun d => d.creditWord l returns seq)
/-- LINK_RETRY_REQUEST (R344). -/
def execLinkRetryRequest (l seq : Nat) (s : State) : Res := s.act (fun d => d.retryRequest l seq)
/-- LINK_TOKEN_SEND (R349). -/
def execLinkTokenSend (l : Nat) (s : State) : Res := s.act (fun d => d.tokenSend l)
/-- PROXY_ADMISSION (R348). -/
def execProxyAdmission (s : State) : Res := s.act Dev.proxyAdmission
/-- DEVICE_ID_WRITE (R345). -/
def execDeviceIdWrite (r : DReq) (s : State) : Res := s.act (fun d => d.command r .deviceId (fun _ v d => d.deviceIdWrite v))

end Sys2Proof.Machine
end

