-- ==== Sys2Proof/Machine/Ward.lean ====
section
/-! DEFINITION. The ward's starts and firmware (R359, R360, R364, R365): watchdog, restart, verification, trials. -/

namespace Sys2Proof.Machine

def Dev.modWrd (d : Dev) (f : Wrd → Wrd) : Dev := { d with wrd := f d.wrd }

/-! ### Firmware images (R364) -/

/-- The header's fields, packed in the order in which R364 lists them. -/
def fwField (o : List Byte) (i n : Nat) : Nat := leNat ((o.drop i).take n)
def fwVersion (o : List Byte) : Nat := fwField o 4 4
def fwLevel (o : List Byte) : Nat := fwField o 8 2
def fwLength (o : List Byte) : Nat := fwField o 10 4
def fwEntry (o : List Byte) : Nat := fwField o 14 4

/-- The public key in the mask ROM. -/
def fwPub : List Byte := 4 :: (List.range 96).map Config.fwKey

/-- The header holds together and the signature verifies. -/
def fwSigned (o : List Byte) : Bool :=
  let n := fwLength o
  fwField o 0 4 == 1 && decide (224 ≤ n) && decide (n ≤ 8388608) && decide (n ≤ o.length)
    && ecdsaVerify p384 fwPub (sha384 (o.take (n - 96))) ((o.drop (n - 96)).take 96)

/-- Slot A is 0, slot B is 1. -/
def Dev.fwSlot (d : Dev) (i : Nat) : FwSlot := if i = 0 then d.wrd.fwA else d.wrd.fwB
def Dev.setFw (d : Dev) (i : Nat) (x : FwSlot) : Dev := d.modWrd (fun w => if i = 0 then { w with fwA := x } else { w with fwB := x })

/-- The slot that the boot record does not name. -/
def Dev.fwOther (d : Dev) : Nat := 1 - d.wrd.fwActive

/-- The active slot of the factory: its octets are not known, and it boots (log 12). -/
def FwSlot.factory (x : FwSlot) : Bool := x.st == .active && x.octets.isEmpty

/-- An image is bootable, whatever its slot's state (R364), unless it is still being written. -/
def Dev.bootable (d : Dev) (i : Nat) : Bool :=
  let x := d.fwSlot i
  x.factory || (x.st != .receiving && fwSigned x.octets && decide (d.wrd.rollback ≤ fwLevel x.octets))

/-- The version that a slot's image states. -/
def FwSlot.version (x : FwSlot) : Nat := if x.factory then Config.fwFactory % 2 ^ 32 else fwVersion x.octets

/-! ### Starts (R359, R360, R364) -/

/-- Where SRAM begins in the core's address space (R358). -/
def sramBase : Nat := 0x100000

/-- The order in which slots are tried: a trial slot first, then the one that the boot record names, then the other. -/
def Dev.bootOrder (d : Dev) : List Nat :=
  if (d.fwSlot d.fwOther).st = .trial then [d.fwOther, d.wrd.fwActive] else [d.wrd.fwActive, d.fwOther]

/-- The mask ROM, from EA 0 to its jump: a slot's code in SRAM and a jump to its entry, or recovery. The log entry of a start
into recovery names no slot and no version: all ones (log 34). -/
def Dev.wardBoot (d : Dev) : Dev :=
  match d.bootOrder.find? d.bootable with
  | none =>
    (d.modWrd (fun w => { w with state := 2, core := gloletInit, sram := [], since := d.up, dog := d.up })).wardLog logStart
      (List.replicate 5 0xFF)
  | some i =>
    let x := d.fwSlot i
    let o := (x.octets.take (fwLength x.octets - 96)).drop 128
    let pc := if x.factory then 0 else sramBase + fwEntry x.octets
    let d := d.modWrd (fun w => { w with
      state := 0, core := { gloletInit with pc := pc }, sram := memWrite [] sramBase o, since := d.up, dog := d.up, fwVer := x.version })
    d.wardLog logStart (BitVec.ofNat 8 i :: leOctets 4 x.version)

/-- A trial ends without confirmation (R365). -/
def Dev.trialReject (d : Dev) : Dev :=
  let x := d.fwSlot d.fwOther
  ((d.setFw d.fwOther { x with st := .rejected }).modWrd (fun w => { w with trialAt := none })).wardRecord 4 x.version 0xFF 0

/-- The trial as a restart finds it: one marked begins, one that runs is rejected. -/
def Dev.trialRestart (d : Dev) : Dev :=
  if (d.fwSlot d.fwOther).st ≠ .trial then d
  else if d.wrd.trialAt.isSome then d.trialReject
  else d.modWrd (fun w => { w with trialAt := some d.up })

/-- Sessions closed, transfers and work under way abandoned. -/
def Dev.wardForget (d : Dev) : Dev :=
  d.modWrd (fun w => { w with
    sessions := [], imgs := w.imgs.map (fun e => (e.1, e.2.abandon)), fwA := w.fwA.abandon, fwB := w.fwB.abandon,
    storeBusy := 0, storeSt := if w.storeBusy = 0 then w.storeSt else 0 })

/-- A ward restart (R360) with its cause: 0 watchdog, 1 a keyholder's write, 2 a trial begins, 3 a trial times out. The
boot is one step of the model. -/
def Dev.wardReset (d : Dev) (cause : Nat) : Dev :=
  (((d.bump 0xC000 2).wardLog logRestart [BitVec.ofNat 8 cause]).wardForget.trialRestart).wardBoot

/-- WATCHDOG_EXPIRY: 100 ms after its last restart. -/
def Dev.watchdog (d : Dev) : Dev :=
  if d.wardUp && decide (d.wrd.dog + 100000000 ≤ d.up) then ((d.bump 0xC000 3).report 0x60 0).wardReset 0 else d

/-! ### Updates (R365) -/

/-- FW_VERIFY_DONE. -/
def Dev.fwVerifyDone (d : Dev) : Dev :=
  let i := d.fwOther
  let x := d.fwSlot i
  if !x.verify || !d.jobReady .firmware then d
  else
    let ok := fwSigned x.octets && decide (d.wrd.rollback ≤ fwLevel x.octets)
    (d.dropJob .firmware).setFw i ⟨if ok then .valid else .invalid, x.octets, false⟩

/-- FW_COMMAND: 1 starts a trial of a Valid inactive slot. -/
def Dev.fwCommand (d : Dev) (v : Nat) : Dev :=
  let x := d.fwSlot d.fwOther
  if v ≠ 1 || x.st ≠ .valid then d
  else ((d.setFw d.fwOther { x with st := .trial }).modWrd (fun w => { w with trialAt := none })).wardReset 2

/-- FW_TRIAL_CONFIRM: the self-check passes within 60 s of the trial's start. -/
def Dev.fwConfirm (d : Dev) : Dev :=
  match d.wrd.trialAt with
  | none => d
  | some t =>
    if t + 60000000000 ≤ d.up then d
    else
      let i := d.fwOther
      let x := d.fwSlot i
      let old := d.fwSlot d.wrd.fwActive
      let r := max d.wrd.rollback (fwLevel x.octets)
      let d := (d.setFw i { x with st := .active }).setFw d.wrd.fwActive { old with st := .valid }
      let d := d.modWrd (fun w => { w with fwActive := i, trialAt := none, rollback := r })
      d.wardRecord 3 (x.version + r * 2 ^ 32) 0xFF 0

/-- FW_TRIAL_TIMEOUT: 60 s pass without confirmation. -/
def Dev.fwTimeout (d : Dev) : Dev :=
  match d.wrd.trialAt with
  | some t => if t + 60000000000 ≤ d.up then d.wardReset 3 else d
  | none => d

/-! ### Meanings -/

/-- WATCHDOG_EXPIRY (R360). -/
def execWatchdogExpiry (s : State) : Res := s.act Dev.watchdog
/-- WARD_RESTART (R360). -/
def execWardRestart (r : DReq) (s : State) : Res :=
  s.act (fun d => d.command r .wardRestart (fun _ v d => if v = 1 then d.wardReset 1 else d))
/-- FW_VERIFY_DONE (R365). -/
def execFwVerifyDone (s : State) : Res := s.act Dev.fwVerifyDone
/-- FW_COMMAND (R365). -/
def execFwCommand (r : DReq) (s : State) : Res := s.act (fun d => d.command r .fwCommand (fun _ v d => d.fwCommand v))
/-- FW_TRIAL_CONFIRM (R365). -/
def execFwTrialConfirm (s : State) : Res := s.act Dev.fwConfirm
/-- FW_TRIAL_TIMEOUT (R365). -/
def execFwTrialTimeout (s : State) : Res := s.act Dev.fwTimeout

end Sys2Proof.Machine
end

