-- ==== Sys2Proof/Machine/Images.lean ====
section
/-! DEFINITION. Graph images, format tables and composer templates (R379–R385): the container, its verification,
activation with its checks, deactivation, erasure. -/

namespace Sys2Proof.Machine

/-! ### The container (R379) -/

def imgField (o : List Byte) (i n : Nat) : Nat := leNat ((o.drop i).take n)
def imgBanks (o : List Byte) : Nat := imgField o 6 2
def imgVersion (o : List Byte) : Nat := imgField o 0x0C 4

/-- Section `i`: offset from the start of the container, and length. -/
def imgBounds (o : List Byte) (i : Nat) : Nat × Nat := (imgField o (0x28 + 8 * i) 4, imgField o (0x2C + 8 * i) 4)
def imgSection (o : List Byte) (i : Nat) : List Byte := (o.drop (imgBounds o i).1).take (imgBounds o i).2

/-- Kind and slot of an image index. -/
def imgKindOf (idx : Nat) : Nat := idx / 256 - 0xD0
def imgSlotOf (idx : Nat) : Nat := idx % 256

def Dev.img (d : Dev) (idx : Nat) : Img := tget imgInit d.wrd.imgs idx
def Dev.setImg (d : Dev) (idx : Nat) (x : Img) : Dev := d.modWrd (fun w => { w with imgs := tset w.imgs idx x })

/-- The banks of a set, ascending. -/
def bankList (banks : Nat) : List Nat := (List.range 16).filter (fun b => bit banks b)

/-- Records of a section that come in pieces of `n` octets. -/
def imgPieces (n : Nat) (l : List Byte) : List (List Byte) := pieces n l.length l

/-- A section's length is one that its kind may have. -/
def sectionOk (o : List Byte) (i : Nat) : Bool :=
  let n := (imgBounds o i).2
  let nb := (bankList (imgBanks o)).length
  match i with
  | 0 => decide (n ≤ 65536 * nb)
  | 1 => n == 1024 * nb
  | 2 => n % 68 == 0 && (imgPieces 68 (imgSection o 2)).all (fun p => decide (imgField p 0 4 < 256))
  | 3 => n == 0 || n == 256
  | 4 => n % 1540 == 0 && (imgPieces 1540 (imgSection o 4)).all (fun p => decide (imgField p 0 4 < 64))
  | 5 => decide (n ≤ 9)
  | 6 => n == 0 || n == 512
  | _ => true

/-- Check 0x02: kind, slot, length and section bounds. -/
def imgHeaderOk (idx : Nat) (o : List Byte) : Bool :=
  decide (352 ≤ o.length) && imgField o 0 4 == 1 && imgField o 4 1 == imgKindOf idx && imgField o 5 1 == imgSlotOf idx
    && (imgKindOf idx == 0 || imgBanks o == 0) && imgField o 8 4 == o.length && decide (o.length ≤ 1048576)
    && (List.range 9).all (fun i =>
      let (a, n) := imgBounds o i
      n == 0 || (decide (256 ≤ a) && decide (a + n ≤ o.length - 96)))
    && (imgKindOf idx != 0 || (List.range 7).all (sectionOk o))

/-- The key in `IMAGE_KEY`, where it may verify images. -/
def Dev.imageKey (d : Dev) : Option KeyRec :=
  match d.key? (d.obj 0xC010 1) with
  | some k => if d.ringReady && (aUsage k.attr == uS0 || aUsage k.attr == uPub) && aRev k.attr && aAlg k.attr == algEcc && aSize k.attr == 1
    then some k else none
  | none => none

/-- Check 0x01. The signature is the container's last 96 octets. -/
def Dev.imgSigned (d : Dev) (o : List Byte) : Bool :=
  match d.imageKey with
  | some k => ecdsaVerify p384 k.pub (sha384 (o.take (o.length - 96))) (o.drop (o.length - 96))
  | none => false

/-! ### What a graph image holds -/

/-- The graph of a container. The code section holds the occupied banks in ascending order, 64 KiB each (log 31). -/
def imgGraph (o : List Byte) : Graph :=
  let code := imgSection o 0
  let words (n : Nat) (l : List Byte) : List Nat := (imgPieces n l).map leNat
  { banks := imgBanks o, rights := imgField o 0x10 2, modes := imgField o 0x12 1, exc := imgField o 0x14 3 % 2 ^ 20,
    bankIni := words 3 ((o.drop 0x18).take 12),
    windows := (words 16 (imgSection o 3)).map (fun w => w / 2 ^ 42 * 2 ^ 42),
    maps := (imgPieces 1540 (imgSection o 4)).foldl (fun t p => tset t (imgField p 0 4) (words 8 (p.drop 4))) [],
    jmap := (imgSection o 5).map (fun b => b.toNat % 32), e2a := (imgSection o 6).take 256, a2e := (imgSection o 6).drop 256,
    tpls := (imgPieces 68 (imgSection o 2)).map (fun p => imgField p 0 4),
    code := (bankList (imgBanks o)).zipIdx.map (fun (e : Nat × Nat) => (e.1, (code.drop (65536 * e.2)).take 65536)) }

/-- The bits of each octet of a template record that are not reserved (R127, R10). -/
def tplMask : List Nat :=
  [7, 0xFF, 3, 0] ++ List.replicate 50 0xFF ++ [0, 0, 0xFF, 0xFF, 0x0F, 0xFF, 0xFF, 0, 0, 0]

/-- The template records of a container, as delivered but for their reserved bits. -/
def imgTpls (o : List Byte) : List (Nat × List Byte) :=
  (imgPieces 68 (imgSection o 2)).map (fun p =>
    (imgField p 0 4, ((p.drop 4).zip tplMask).map (fun e => BitVec.ofNat 8 (e.1.toNat &&& e.2))))

/-- Placement entries by block (R329). -/
def imgPlace (o : List Byte) : List (Nat × Nat) :=
  let l := (imgPieces 4 (imgSection o 1)).map (fun p => leNat p / 1024 * 1024)
  let keys := (bankList (imgBanks o)).flatMap (fun b => upFrom (256 * b) 256)
  keys.zip l

def peLocal (e : Nat) : Bool := bit e 31 && !bit e 29
def peHome (e : Nat) : Bool := bit e 30
def peCluster (e : Nat) : Nat := bits e 16 15 * 32 + bits e 14 10

/-- The clusters that a placement maps a graph to (R129). -/
def placeClusters (pl : List (Nat × Nat)) : List Nat := ((pl.filter (fun e => peLocal e.2)).map (fun e => peCluster e.2)).eraseDups

/-! ### The nodes of a graph image (log 32) -/

/-- The octets of a node, to the end of its bank or of the code section, at most 15. -/
def Graph.octetsAt (g : Graph) (a : Nat) : List Byte := ((tget [] g.code (a / 65536)).drop (a % 65536)).take 15

/-- A node found: its address and what it decodes to. -/
abbrev NodeTab := Tab (Except Nat Node)

/-- Nodes that firings of a node can send to: its destinations, and the node a constant names as the reply's. -/
def Node.targets (n : Node) : List Nat :=
  n.dsts.map Dst.node ++
    (if n.op == .att && n.att == 2 && n.fn == 2 then
      match n.srcs.getLast? with | some s => if s.sk == 0 || 4 ≤ s.sk then [] else [s.imm / 16 % 2 ^ 20] | none => []
     else [])

/-- The nodes that can be reached from a list of addresses; `here` tells the addresses of the image. -/
def Graph.reach (g : Graph) (here : Nat → Bool) : Nat → List Nat → NodeTab → NodeTab
  | 0, _, t => t
  | _, [], t => t
  | k + 1, a :: r, t =>
    if !here a || (tget? t a).isSome then g.reach here k r t
    else
      let n := decodeNode (g.octetsAt a)
      let more := match n with | .ok n => n.targets | .error _ => []
      g.reach here k (more ++ r) (tset t a n)

/-- Where tokens enter a graph: delivery maps, exception entry, stand-in entries, link entries. -/
def Dev.graphRoots (d : Dev) (g : Graph) (tpls : List (Nat × List Byte)) : List Nat :=
  let maps := g.maps.flatMap (fun (e : Nat × List Nat) => e.2.flatMap (fun w =>
    (if dmForm w = 0 then [] else [dmDest w / 4]) ++ (if dmAux w = 0 then [] else [dmAuxDest w / 4])))
  let ents := ((List.range 256).map d.linkSel).filter (fun w => bit w 63 && tpls.any (fun t => t.1 == lsTpl w))
  maps ++ (if g.exc = 0 then [] else [g.exc]) ++ tpls.map (fun t => tStandinEntry t.2) ++ ents.map lsEntry

/-- The local nodes of a container. -/
def Dev.imgNodes (d : Dev) (o : List Byte) : NodeTab :=
  let g := imgGraph o
  let pl : Tab Nat := imgPlace o
  let here (a : Nat) : Bool := bit g.banks (a / 65536) && !bit (tget 0 pl (a / 256)) 29
  g.reach here 16777216 (d.graphRoots g (imgTpls o)) []

/-- Addresses that must be gates: named by `ENTER`, `NEXT` or a permission destination (R169). -/
def Node.gates (n : Node) : List Nat :=
  n.dsts.zipIdx.filterMap (fun (e : Dst × Nat) =>
    if e.1.ita = 1 || e.1.ita = 2 || n.permits e.2 then some e.1.node else none)

/-- Check 0x03: the first illegal node, its detail. -/
def nodesBad (t : NodeTab) : Option (Nat × Nat) :=
  let gs := t.flatMap (fun (e : Nat × Except Nat Node) => match e.2 with | .ok n => n.gates | .error _ => [])
  t.findSome? (fun (e : Nat × Except Nat Node) => match e.2 with
    | .error x => some (x, e.1)
    | .ok n => if !n.ctl && gs.contains e.1 then some (0x00C, e.1) else none)

/-- Lines of a container by cluster (R88): lines of a block that hold a node's octet. A `HOME` block is loaded in every
mapped cluster. -/
def imgLines (o : List Byte) (t : NodeTab) : List (Nat × Nat) :=
  let g := imgGraph o
  let pl : Tab Nat := imgPlace o
  let all := placeClusters pl
  let spots (e : Nat) : List Nat := if !peLocal e then [] else if peHome e then all else [peCluster e]
  let filled := pl.flatMap (fun (e : Nat × Nat) =>
    let c := ((tget [] g.code (e.1 / 256)).drop (e.1 % 256 * 256)).take 256
    let ls := (List.range 4).filter (fun i => ((c.drop (64 * i)).take 64).any (fun b => b != 0))
    (spots e.2).flatMap (fun k => ls.map (fun i => (k, e.1 * 4 + i))))
  let nodes := t.flatMap (fun (e : Nat × Except Nat Node) => match e.2 with
    | .ok n => (spots (tget 0 pl (e.1 / 256))).flatMap (fun k => [(k, e.1 / 64), (k, (e.1 + n.len - 1) / 64)])
    | .error _ => [])
  (filled ++ nodes).eraseDups

/-! ### Tables (kinds 1 and 2) -/

/-- The body of a format table holds together (R256, R257). -/
def formatOk (t : List Byte) : Bool :=
  decide (fmtFamily t ≤ 1) && decide (fmtVersion t ≤ 2) && decide (fmtHeaderLen t ≤ 48) && decide (fmtMtiEnc t ≤ 2)
    && decide (fmtBitmapEnc t ≤ 2) && decide (fmtCorrField t ≤ 192)
    && (if fmtFamily t = 0 then
          t.length == 1544 && fmtCorrField t != 1
            && (upFrom 1 192).all (fun n => let e := fmtField t n
                e.lenType == 3 || (decide (1 ≤ e.max) && decide (e.max ≤ 999) && decide (e.chars ≤ 1)))
        else
          let n := (t.getD 10 0).toNat
          decide ((t.getD 8 0).toNat ≤ 16) && decide ((t.getD 9 0).toNat ≤ 64) && decide (n ≤ 192) && t.length == xPathAt + 32 * n
            && (List.range n).all (fun i => let k := (t.getD (xPathAt + 32 * i) 0).toNat; decide (1 ≤ k) && decide (k ≤ 12)))

/-- Kinds of composer templates in which a source may stand (R265). -/
def srcKinds (s : Nat) : List Nat :=
  match s with
  | 0 => [0, 1, 2, 3] | 1 => [0, 1, 3] | 2 => [0, 1, 3] | 3 => [0, 1, 3] | 4 => [0, 1] | 5 => [1] | 6 => [2] | 7 => [2] | 8 => [0, 1, 3]
  | _ => []

/-- The body of a composer template holds together (R264, R265). -/
def composerOk (t : List Byte) : Bool :=
  decide (ctKind t ≤ 3) && decide (ctFormat t ≤ 63) && decide (ctCount t ≤ 200) && decide (16 + 8 * ctCount t ≤ t.length)
    && (ctEntries t).all (fun e => decide (e.field ≤ 192) && (srcKinds e.src).contains (ctKind t))

/-! ### Activation (R381, R382) -/

/-- `IMG_RESULT`. -/
def imgResult (reason detail node : Nat) : Nat := reason * 2 ^ 56 + detail % 4096 * 2 ^ 44 + node % 2 ^ 20 * 2 ^ 24

/-- An image that holds its banks, templates, lines and tables: Active, Draining, or past its checks (log 127). -/
def Img.holds (x : Img) : Bool := x.st == .active || x.st == .draining || x.busy == .install

/-- The other graph slots that hold. -/
def Dev.holders (d : Dev) (slot : Nat) : List (Nat × Img) :=
  d.wrd.imgs.filter (fun (e : Nat × Img) => inPage e.1 0xD0 && imgSlotOf e.1 != slot && e.2.holds)

/-- Octets of structure memory. -/
def Dev.structOctets (d : Dev) : Nat := d.xs 2080768 360448 * 65536

/-- Check 0x04 on an entry (R222). -/
def Dev.windowOk (d : Dev) (w : Nat) : Bool :=
  !bit w 42 || (decide (bits w 127 88 ≤ bits w 87 48)
    && decide (bits w 87 48 < if bit w 43 then 2 ^ 36 else d.structOctets))

/-- An image slot is Active. -/
def Dev.imgActive (d : Dev) (idx : Nat) : Bool := (d.img idx).st == .active

/-- A composer template is Active and of a kind. -/
def Dev.compIs (d : Dev) (c kind : Nat) : Bool := d.imgActive (0xD200 + c) && ctKind (tget [] d.wrd.comps c) == kind

/-- Check 0x08: the first cluster without room for its lines. -/
def Dev.linesShort (d : Dev) (slot : Nat) (ls : List (Nat × Nat)) : Option Nat :=
  let waiting := (d.holders slot).filter (fun (e : Nat × Img) => e.2.busy == .install)
  let held := waiting.flatMap (fun (e : Nat × Img) => imgLines e.2.octets (d.imgNodes e.2.octets))
  let onK (k : Nat) (l : List (Nat × Nat)) : Nat := (l.filter (fun e => e.1 == k)).length
  let cs := (ls.map (·.1)).eraseDups
  let bad := cs.filterMap (fun k => (d.posOf k).bind (fun p =>
    if 2048 < (d.pos p).code.length + onK k held + onK k ls then some (p + 1) else none))
  minBy (fun n => n) bad

/-- The first check of R382 that a graph image fails, in ascending order of reasons. -/
def Dev.graphCheck (d : Dev) (slot : Nat) (o : List Byte) : Nat :=
  let g := imgGraph o
  let t := d.imgNodes o
  let ts := imgTpls o
  let hs := (d.holders slot).map (fun e => e.2.octets)
  let low (l : List Nat) : Option Nat := minBy (fun n => n) l
  let ids := ts.map (·.1)
  match nodesBad t with
  | some (x, a) => imgResult 3 x a
  | none =>
  match indexOf? (fun w => !d.windowOk w) g.windows with
  | some i => imgResult 4 i 0
  | none =>
  match low ((ts.filter (fun e => !(tValid e.2 && tplTimesOk e.2))).map (·.1)) with
  | some i => imgResult 5 i 0
  | none =>
  match low (ids.filter (fun i => hs.any (fun h => (imgGraph h).tpls.contains i))) with
  | some i => imgResult 6 i 0
  | none =>
  match low ((bankList g.banks).filter (fun b => hs.any (fun h => bit (imgBanks h) b))) with
  | some b => imgResult 7 b 0
  | none =>
  match d.linesShort slot (imgLines o t) with
  | some n => imgResult 8 n 0
  | none =>
  match low ((g.maps.map (·.1)).filter (fun f => !d.imgActive (0xD100 + f))) with
  | some f => imgResult 9 f 0
  | none =>
  match ts.findSome? (fun e =>
      if !d.compIs (tFallback e.2) 3 then some (tFallback e.2) else if !d.compIs (tReject e.2) 2 then some (tReject e.2) else none) with
  | some c => imgResult 0x0A c 0
  | none =>
  match low (((List.range 256).map d.linkSel).filterMap (fun w =>
      if bit w 63 && ts.any (fun e => e.1 == lsTpl w && tForward e.2) then some (lsTpl w) else none)) with
  | some i => imgResult 0x0B i 0
  | none =>
  match (if g.e2a.isEmpty then t.find? (fun (e : Nat × Except Nat Node) => match e.2 with
      | .ok n => n.op == .eb2as || n.op == .as2eb | .error _ => false) else none) with
  | some e => imgResult 0x0E 0 e.1
  | none => 0

/-- The first check that an image fails; 0 where it passes. -/
def Dev.imgCheck (d : Dev) (idx : Nat) (o : List Byte) : Nat :=
  if !d.imgSigned o then imgResult 1 0 0
  else if !imgHeaderOk idx o then imgResult 2 0 0
  else match imgKindOf idx with
    | 0 => d.graphCheck (imgSlotOf idx) o
    | 1 => if formatOk (imgSection o 8) then 0 else imgResult 0x0C 0 0
    | _ => if composerOk (imgSection o 8) then 0 else imgResult 0x0C 0 0

/-- `DETAIL` of R385. -/
def imgDetail (idx : Nat) (o : List Byte) : Nat := imgSlotOf idx + imgKindOf idx * 256 + imgVersion o * 2 ^ 32

/-- IMG_VERIFY_DONE (R380). -/
def Dev.imgVerify (d : Dev) (idx : Nat) : Dev :=
  let x := d.img idx
  if x.st ≠ .receiving || x.busy ≠ .verify || !d.jobReady (.image idx) then d
  else
    let d := d.dropJob (.image idx)
    let fail (r : Nat) : Dev := d.setImg idx { x with st := .empty, busy := .none, octets := [], result := imgResult r 0 0 }
    if !d.imgSigned x.octets then fail 1
    else if !imgHeaderOk idx x.octets then fail 2
    else d.setImg idx { x with st := .loaded, busy := .none, result := 0 }

/-- IMG_ACTIVATE: step 1. -/
def Dev.imgStart (d : Dev) (idx sess role : Nat) : Dev :=
  let x := d.img idx
  if x.st ≠ .loaded || x.busy ≠ .none then d
  else
    let r := d.imgCheck idx x.octets
    if r ≠ 0 then (d.setImg idx { x with result := r }).wardLog logActivation (leOctets 2 idx ++ leOctets 8 r)
    else d.setImg idx { x with busy := .install, by_ := (sess, role) }

/-- Code lines of an image loaded into the positions of its clusters. -/
def Dev.loadLines (d : Dev) (ls : List (Nat × Nat)) : Dev :=
  ls.foldl (fun d e => match d.posOf e.1 with
    | some p => d.modPos p (fun x => if x.code.contains e.2 then x else { x with code := x.code ++ [e.2] })
    | none => d) d

/-- Step 2 for a graph image. -/
def Dev.installGraph (d : Dev) (slot : Nat) (o : List Byte) : Dev :=
  let pl := imgPlace o
  let d := d.modWrd (fun w => { w with graphs := tset w.graphs slot (imgGraph o) })
  let d := d.modNoc (fun n => { n with place := pl.foldl (fun t (e : Nat × Nat) => tset t e.1 e.2) n.place })
  let d := { d with key := { d.key with
    tpls := (imgTpls o).foldl (fun t (e : Nat × List Byte) => tset t e.1 e.2) d.key.tpls } }
  d.loadLines (imgLines o (d.imgNodes o))

/-- The contents of an image in their place: a graph's, a format table or a composer table (R381). -/
def Dev.putImage (d : Dev) (idx : Nat) (o : List Byte) : Dev :=
  let s := imgSlotOf idx
  let body := imgSection o 8
  if imgKindOf idx = 0 then d.installGraph s o
  else if imgKindOf idx = 1 then d.modWrd (fun w => { w with fmts := tset w.fmts s body })
  else d.modWrd (fun w => { w with comps := tset w.comps s body })

/-- A graph image unloaded: its placement entries invalid, its lines and templates free. -/
def Dev.unloadGraph (d : Dev) (slot : Nat) : Dev :=
  match d.graph slot with
  | none => d
  | some g =>
    let d := d.modNoc (fun n => { n with place := n.place.map (fun e => if bit g.banks (e.1 / 256) then (e.1, e.2 % 2 ^ 31) else e) })
    let keep (l : List Nat) : List Nat := l.filter (fun k => !bit g.banks (k / 1024))
    let d := { d with fab := { d.fab with
      pos := d.fab.pos.map (fun (e : Nat × Pos) => (e.1, { e.2 with code := keep e.2.code, badCode := keep e.2.badCode })) } }
    let d := { d with key := { d.key with tpls := d.key.tpls.filter (fun e => !g.tpls.contains e.1),
                                          shares := d.key.shares.filter (fun e => !g.tpls.contains e.1) } }
    d.modWrd (fun w => { w with graphs := terase w.graphs slot })

/-- The contents of an image taken out (R382). -/
def Dev.dropImage (d : Dev) (idx : Nat) : Dev :=
  let s := imgSlotOf idx
  if imgKindOf idx = 0 then d.unloadGraph s
  else if imgKindOf idx = 1 then d.modWrd (fun w => { w with fmts := terase w.fmts s })
  else d.modWrd (fun w => { w with comps := terase w.comps s })

/-- IMG_INSTALL_DONE: steps 2 and 3. -/
def Dev.imgInstall (d : Dev) (idx : Nat) : Dev :=
  let x := d.img idx
  if x.st ≠ .loaded || x.busy ≠ .install then d
  else
    let s := imgSlotOf idx
    let d := (d.putImage idx x.octets).setImg idx { x with st := .active, busy := .none, result := 0 }
    (if imgKindOf idx = 0 then d.usableNow s else d).wardRecord 1 (imgDetail idx x.octets) x.by_.1 x.by_.2

/-! ### Deactivation and erasure (R382, R383) -/

/-- Check 0x0D: the first graph that holds and names a table. -/
def Dev.namedBy (d : Dev) (idx : Nat) : Option Nat :=
  let s := imgSlotOf idx
  ((d.holders 256).find? (fun (e : Nat × Img) => match imgKindOf idx with
    | 1 => ((imgGraph e.2.octets).maps.map (·.1)).contains s
    | 2 => (imgTpls e.2.octets).any (fun t => tFallback t.2 == s || tReject t.2 == s)
    | _ => false)).map (fun e => imgSlotOf e.1)

/-- A table that an Active graph image names is refused. -/
def Dev.unlessNamed (d : Dev) (idx : Nat) (f : Dev → Dev) : Dev :=
  match d.namedBy idx with
  | some g => d.setImg idx { d.img idx with result := imgResult 0x0D g 0 }
  | none => f d

/-- IMG_DEACTIVATE. -/
def Dev.imgDrain (d : Dev) (idx sess role : Nat) : Dev :=
  let x := d.img idx
  if x.st ≠ .active then d else d.unlessNamed idx (fun d => d.setImg idx { x with st := .draining, by_ := (sess, role) })

/-- IMG_DRAIN_DONE: no Active context runs under a template of the image. -/
def Dev.imgDrained (d : Dev) (idx : Nat) : Dev :=
  let x := d.img idx
  let s := imgSlotOf idx
  if x.st ≠ .draining || (imgKindOf idx == 0 && d.key.lives.any (fun (e : Nat × Life) => e.2.graph == s)) then d
  else
    ((d.dropImage idx).setImg idx { x with st := .loaded }).wardRecord 2 (imgDetail idx x.octets) x.by_.1 x.by_.2

/-- IMG_ERASE: of a Loaded slot. -/
def Dev.imgClear (d : Dev) (idx sess role : Nat) : Dev :=
  let x := d.img idx
  if x.st ≠ .loaded then d
  else d.unlessNamed idx (fun d =>
    (d.setImg idx { imgInit with result := x.result }).wardRecord 2 (imgDetail idx x.octets) sess role)

/-! ### Meanings -/

/-- A role as `ACTOR_ROLE` has it (R296); the ward's own accesses carry 0. -/
def actorRole (ro : Role) : Nat := if ro = .W then 0 else roleNum ro + 1

/-- IMG_VERIFY_DONE (R380). -/
def execImgVerifyDone (idx : Nat) (s : State) : Res := s.act (fun d => d.imgVerify idx)
/-- IMG_ACTIVATE (R381, R382). -/
def execImgActivate (r : DReq) (s : State) : Res :=
  s.act (fun d => d.command r .imgActivate (fun ro _ d => d.imgStart r.idx r.sess (actorRole ro)))
/-- IMG_DEACTIVATE (R383). -/
def execImgDeactivate (r : DReq) (s : State) : Res :=
  s.act (fun d => d.command r .imgDeactivate (fun ro _ d => d.imgDrain r.idx r.sess (actorRole ro)))
/-- IMG_DRAIN_DONE (R383). -/
def execImgDrainDone (idx : Nat) (s : State) : Res := s.act (fun d => d.imgDrained idx)
end Sys2Proof.Machine
end

