-- ==== Sys2Proof/Machine/Time.lean ====
section
/-! DEFINITION. The timebase (R309–R312), the PPS outputs (R314) and PTP (R316). -/

namespace Sys2Proof.Machine

/-! ### States and records -/

/-- A signed object. -/
def Dev.objI (d : Dev) (idx sub w : Nat) : Int := sgn w (d.obj idx sub)

/-- A type 0x09 record (R295) with its `DETAIL`. -/
def Dev.timeRec (d : Dev) (detail : Nat) : Dev := d.journal { jrec0 with typ := 9, reason := d.quality, detail := detail }

/-- The PPS outputs may be high in this state (R314). -/
def Dev.ppsOk (d : Dev) (st : TbState) : Bool := st == .locked || (st == .holdover && d.flag 0x7100 0x0B)

/-- A transition of R311 without its record. -/
def Dev.tbMove (d : Dev) (st : TbState) (src : Nat) : Dev :=
  { d with tb := { d.tb with
    st := st, src := if st = .unset || st = .freeRun then 0 else src, good := 0, ever := d.tb.ever || st == .locked,
    hold := if st = .holdover then d.up else d.tb.hold, pps := if d.ppsOk st then d.tb.pps else 0 } }

/-- A transition of R311 with its record. -/
def Dev.tbTo (d : Dev) (st : TbState) (src : Nat) : Dev := (d.tbMove st src).timeRec 0

/-- The selected source (R310). -/
def Dev.tbSel (d : Dev) : Nat := d.obj 0x7100 2

/-- The offset to be slewed becomes `e` ns of error taken out. -/
def Dev.slewOut (d : Dev) (e : Int) : Dev := { d with tb := { d.tb with slew := -e } }

/-- A measurement of the phase error in ps against the selected source (R311). -/
def Dev.measure (d : Dev) (src : Nat) (e : Int) : Dev :=
  if d.tb.waitLock || d.tbSel ≠ src then d
  else
    let d := d.setObj 0x7100 0x0C (wrap 40 e)
    let ns := e.tdiv 1000
    let near := decide (-2000 ≤ e) && decide (e ≤ 2000)
    let seen (d : Dev) : Dev := { d with tb := { d.tb with lastMeas := d.up } }
    match d.tb.st with
    | .unset => if src = 1 then d else ((seen d).slewOut ns).tbTo .acquiring src
    | .freeRun => ((seen d).slewOut ns).tbTo .acquiring src
    | .acquiring =>
      let n := if near && d.tb.src = src then d.tb.good + 1 else if near then 1 else 0
      let d := (seen d).slewOut ns
      let d := { d with tb := { d.tb with src := src, good := n } }
      if 16 ≤ n then d.tbTo .locked src else d
    | .locked => if d.tb.src = src then (seen d).slewOut ns else d
    | .holdover => if near then ((seen d).slewOut ns).tbTo .locked src else d.slewOut ns
    | .refLost => d

/-- A remainder taken to the nearest side of zero. -/
def centred (x m : Int) : Int := if m < 2 * (x % m) then x % m - m else x % m

/-- PPS_IN_EDGE (R310, R315, R449): the edge is captured; with `PPS_IN` selected its distance from the whole second is the
phase error. While Locked an edge more than 1 ms away counts as missing. `frac` is the fraction in 1/256 ns. -/
def Dev.ppsEdge (d : Dev) (frac : Nat) : Dev :=
  if d.tb.waitLock || d.tbSel ≠ 1 then d
  else
    let f := frac % 256
    let d := { d with tb := { d.tb with edge := some d.up, capture := d.tai * 65536 + f * 256 + d.quality } }
    let e := centred (d.tai * 1000 + f * 1000 / 256 - d.objI 0x7100 7 40 * 1000) (10 ^ 12)
    if d.tb.step.isSome || (d.tb.st = .locked && decide (10 ^ 9 < e.natAbs)) then d else d.measure 1 e

/-! ### Steps and slews (R312) -/

/-- TAI_SET. -/
def Dev.taiSet (d : Dev) (v : Nat) : Dev :=
  if d.tb.st = .unset || d.tb.st = .freeRun || (d.ctxActive = 0 && !d.flag 0x3000 1) then
    { d with tb := { d.tb with step := some v, edge := none } }
  else d.bump 0x7100 0x0E

/-- TAI_STEP_APPLY: at the `PPS_IN` edge captured now, or at the whole second with another source. -/
def Dev.taiStep (d : Dev) : Dev :=
  match d.tb.step with
  | none => d
  | some v =>
    let due := if d.tbSel = 1 then d.tb.edge == some d.up else d.tai % 10 ^ 9 == 0
    if d.tb.waitLock || !due then d
    else
      let new := wrap 64 (v + if d.tbSel = 1 then d.objI 0x7100 7 40 else 0)
      let detail := wrap 40 ((new : Int) - d.tai)
      let d := { d with tai := new, tb := { d.tb with step := none, edge := none, good := 0 } }
      let d := if d.tb.st ≠ .unset then d else if d.tbSel = 0 then d.tbMove .freeRun 0
        else ({ d with tb := { d.tb with lastMeas := d.up } }).tbMove .acquiring d.tbSel
      d.timeRec detail

/-- TAI_SLEW_NS: the offset is added; a total beyond ±1 s is ignored. -/
def Dev.taiSlew (d : Dev) (v : Nat) : Dev :=
  let t := d.tb.slew + sgn 40 v
  if decide (t.natAbs ≤ 10 ^ 9) then { d with tb := { d.tb with slew := t } } else d

/-- TB_SOURCE_WRITE: source codes 0–3. -/
def Dev.tbSource (d : Dev) (v : Nat) : Dev := if v ≤ 3 then d.setObj 0x7100 2 v else d

/-! ### Loss and return (R311) -/

/-- The PTP sync interval in ns, 2^(code − 4) s (R318). -/
def Dev.syncNs (d : Dev) : Nat := 10 ^ 9 * 2 ^ min 5 (d.obj 0x7200 9) / 16

/-- How long a source may stay silent. -/
def Dev.lossNs (d : Dev) : Nat := match d.tb.src with | 1 => 2 * 10 ^ 9 | 2 => 3 * d.syncNs | _ => 4000000

/-- The source is lost: Acquiring falls back to Free-running, Locked to Holdover. -/
def Dev.sourceLost (d : Dev) : Dev :=
  match d.tb.st with
  | .acquiring => d.tbTo .freeRun 0
  | .locked => d.tbTo .holdover d.tb.src
  | _ => d

/-- SOURCE_LOSS_TIMEOUT. -/
def Dev.sourceTimeout (d : Dev) : Dev := if d.tb.lastMeas + d.lossNs < d.up then d.sourceLost else d

/-- REFCLK_LOCK_LOST. -/
def Dev.refLost (d : Dev) : Dev :=
  if d.tb.waitLock || d.tb.st = .refLost then d else (d.tbTo .refLost d.tb.src).report 0x34 0

/-- The timebase leaves wait-lock: counter at zero, state Unset (R310). -/
def Dev.tbStart (d : Dev) : Dev := if d.tb.waitLock then { d with tai := 0, tb := { d.tb with waitLock := false } } else d

/-- REFCLK_LOCK_REGAINED. -/
def Dev.refRegained (d : Dev) : Dev :=
  if d.tb.st = .refLost then d.tbTo (if d.tb.ever then .holdover else .freeRun) d.tb.src else d

/-! ### PPS outputs (R314) -/

/-- The pins follow `PPS_HOLDOVER` at once. -/
def Dev.ppsHold (d : Dev) : Dev := { d with tb := { d.tb with pps := if d.ppsOk d.tb.st then d.tb.pps else 0 } }

/-- PPS_OUT_PULSE. -/
def Dev.ppsPulse (d : Dev) : Dev :=
  if d.tb.ever && d.ppsOk d.tb.st && ((d.tai : Int) - d.objI 0x7100 9 40) % 10 ^ 9 == 0 then
    let en := d.obj 0x7100 8 % 4
    let off := [0, 1].foldl (fun t p => if bit en p then tset t p (d.up + d.obj 0x7100 0x0A * 1000) else t) d.tb.ppsOff
    { d with tb := { d.tb with pps := d.tb.pps ||| en, ppsOff := off } }
  else d

/-- PPS_OUT_WIDTH_END. -/
def Dev.ppsFall (d : Dev) (p : Nat) : Dev :=
  match tget? d.tb.ppsOff p with
  | some t => if t ≤ d.up then
      { d with tb := { d.tb with pps := if bit d.tb.pps p then d.tb.pps - 2 ^ p else d.tb.pps, ppsOff := terase d.tb.ppsOff p } }
    else d
  | none => d

/-! ### PTP (R316) -/

/-- A logical port runs PTP. -/
def Dev.ptpOn (d : Dev) (p : Nat) : Bool :=
  decide (p < d.xs 8 4) && (d.obj 0x7200 1 == 1 || d.obj 0x7200 1 == 2) && bit (d.obj 0x7200 2) p

/-- The port is a boundary clock's slave. -/
def Dev.ptpSlave (d : Dev) (p : Nat) : Bool := d.ptpOn p && d.obj 0x7200 1 == 2 && d.obj 0x7200 3 == p

def Dev.ptpP2p (d : Dev) (p : Nat) : Bool := bit (d.obj 0x7200 4) p

/-- The clock identity that the device announces: `MAC_BASE` as a number. -/
def Dev.ptpIdent (d : Dev) : Nat := leNat d.ident.mac

/-- clockClass: 6 while Locked to `PPS_IN`, 7 in Holdover, 248 otherwise. -/
def Dev.clockClass (d : Dev) : Nat := if d.tb.st = .locked && d.tb.src = 1 then 6 else if d.tb.st = .holdover then 7 else 248

/-- The ordering key of the best master clock algorithm of IEEE 1588: `priority1`, clockClass, clockAccuracy, variance,
`priority2`, grandmaster identity, steps removed, and the sender's identity. -/
def masterRank (p1 cls acc var p2 gm steps ident : Nat) : Nat :=
  beNum [(8, p1), (8, cls), (8, acc), (16, var), (8, p2), (64, gm), (16, steps), (64, ident)]
where
  /-- Fields of given widths, the first one most significant. -/
  beNum (l : List (Nat × Nat)) : Nat := l.foldl (fun a f => a * 2 ^ f.1 + f.2 % 2 ^ f.1) 0

def ptpRank (m : PtpMsg) : Nat := masterRank m.prio1 m.cls m.acc m.var m.prio2 m.gm m.steps m.ident

/-- This clock's key: its accuracy is unknown (0xFE) and its variance not computed (0xFFFF), which the spec leaves open. -/
def Dev.ownKey (d : Dev) : Nat :=
  masterRank (d.obj 0x7200 7) d.clockClass 0xFE 0xFFFF (d.obj 0x7200 8) d.ptpIdent 0 d.ptpIdent

/-- How long a foreign master stays without an Announce: three announce intervals of 2 s, the default profile's. -/
def announceTimeout : Nat := 6 * 10 ^ 9

/-- The foreign master that a port holds. -/
def Dev.ptpForeign (d : Dev) (p : Nat) : Option Nat :=
  match tget? d.tb.ptpMaster p with
  | some (k, t) => if d.up ≤ t + announceTimeout then some k else none
  | none => none

/-- What a slave port follows: the best foreign master announced, if it is better than this clock. -/
def Dev.ptpFollows (d : Dev) (p : Nat) (m : PtpMsg) : Bool :=
  match d.ptpForeign p with
  | some k => decide (k < d.ownKey) && k % 2 ^ 64 == m.ident % 2 ^ 64
  | none => false

/-- A message sent on a port. -/
def Dev.ptpSend (d : Dev) (p : Nat) (m : PtpMsg) : Dev := { d with tb := { d.tb with ptpOut := d.tb.ptpOut ++ [(p, m)] } }

/-- A message of this clock: it announces itself, or, as a boundary clock, the master that its slave port follows, one step
further. -/
def Dev.ptpMsg (d : Dev) (typ seq stamp : Nat) (corr : Int) (two : Bool) : PtpMsg :=
  let own := d.ownKey
  let k := match (if d.obj 0x7200 1 = 2 then d.ptpForeign (d.obj 0x7200 3) else none) with
    | some k => if k < own then k + 2 ^ 64 else own
    | none => own
  { typ := typ, seq := seq, domain := d.obj 0x7200 6, transp := d.obj 0x7200 5, stamp := stamp, corr := corr, twoStep := two,
    prio1 := bits k 191 184, cls := bits k 183 176, acc := bits k 175 168, var := bits k 167 152, prio2 := bits k 151 144,
    gm := bits k 143 80, steps := bits k 79 64, ident := d.ptpIdent, rx := 0 }

/-- The instant of a start-of-frame delimiter now, in 1/256 ns: the fraction is that of the medium (R315). -/
def Dev.ptpNow (d : Dev) : Nat × Dev := let q := d.drawNat 256; (d.tai * 256 + q.1, q.2)

/-- The mean path delay of a port. -/
def Dev.ptpDelay (d : Dev) (p : Nat) : Int := tget 0 d.tb.ptpDelay p

def Dev.setDelay (d : Dev) (p : Nat) (v : Int) : Dev :=
  { d with tb := { d.tb with ptpDelay := tset d.tb.ptpDelay p v, ptpReq := terase d.tb.ptpReq p, ptpPd := terase d.tb.ptpPd p } }

/-- Time received from the master: receipt minus origin of a Sync. -/
def Dev.ptpTime (d : Dev) (p : Nat) (fwd : Int) : Dev :=
  let d := { d with tb := { d.tb with ptpFwd := tset d.tb.ptpFwd p fwd, ptpPend := terase d.tb.ptpPend p } }
  d.measure 2 ((fwd - d.ptpDelay p) * 1000 / 256)

/-- PTP_MESSAGE_RECEIVE: message types 0 Sync, 1 Delay_Req, 2 Pdelay_Req, 3 Pdelay_Resp, 8 Follow_Up, 9 Delay_Resp,
0x0A Pdelay_Resp_Follow_Up, 0x0B Announce, of the configured domain and transport. -/
def Dev.ptpReceive (d : Dev) (p : Nat) (m : PtpMsg) : Dev :=
  if !d.ptpOn p || m.domain ≠ d.obj 0x7200 6 || m.transp ≠ d.obj 0x7200 5 then d
  else match m.typ with
  | 0 =>
    if !d.ptpSlave p || !d.ptpFollows p m then d
    else if m.twoStep then { d with tb := { d.tb with ptpPend := tset d.tb.ptpPend p (m.seq, m.rx, m.corr) } }
    else d.ptpTime p ((m.rx : Int) - m.stamp - m.corr)
  | 8 => match tget? d.tb.ptpPend p with
    | some (q, rx, c) => if q = m.seq && d.ptpFollows p m then d.ptpTime p ((rx : Int) - m.stamp - c - m.corr) else d
    | none => d
  | 1 => if d.ptpSlave p || d.ptpP2p p then d else d.ptpSend p (d.ptpMsg 9 m.seq m.rx m.corr false)
  | 9 => match tget? d.tb.ptpReq p with
    | some (q, t) =>
      if q = m.seq && !d.ptpP2p p && d.ptpSlave p then
        d.setDelay p ((tget 0 d.tb.ptpFwd p + ((m.stamp : Int) - t - m.corr)) / 2)
      else d
    | none => d
  | 2 =>
    if !d.ptpP2p p then d
    else
      let (now, d) := d.ptpNow
      if d.flag 0x7200 0x0A then
        (d.ptpSend p (d.ptpMsg 3 m.seq m.rx m.corr true)).ptpSend p (d.ptpMsg 0x0A m.seq now 0 false)
      else d.ptpSend p (d.ptpMsg 3 m.seq 0 (m.corr + ((now : Int) - m.rx)) false)
  | 3 => match tget? d.tb.ptpReq p with
    | some (q, t) =>
      if q ≠ m.seq || !d.ptpP2p p then d
      else if m.twoStep then { d with tb := { d.tb with ptpPd := tset d.tb.ptpPd p (m.stamp, m.rx) } }
      else d.setDelay p (((m.rx : Int) - t - m.corr) / 2)
    | none => d
  | 0x0A => match tget? d.tb.ptpReq p, tget? d.tb.ptpPd p with
    | some (q, t), some (t2, t4) =>
      if q = m.seq && d.ptpP2p p then d.setDelay p ((((t4 : Int) - t) - ((m.stamp : Int) - t2) - m.corr) / 2) else d
    | _, _ => d
  | 0x0B =>
    let k := ptpRank m
    if (match d.ptpForeign p with | none => true | some o => decide (k ≤ o) || o % 2 ^ 64 == k % 2 ^ 64) then
      { d with tb := { d.tb with ptpMaster := tset d.tb.ptpMaster p (k, d.up) } }
    else d
  | _ => d

/-- The next sequence number of a port and message kind. -/
def Dev.ptpNext (d : Dev) (p kind : Nat) : Nat × Dev :=
  let k := p * 16 + kind
  let n := tget 0 d.tb.ptpSeq k
  (n, { d with tb := { d.tb with ptpSeq := tset d.tb.ptpSeq k ((n + 1) % 65536) } })

/-- The port is a master. -/
def Dev.ptpMasterPort (d : Dev) (p : Nat) : Bool := d.ptpOn p && !d.ptpSlave p

/-- PTP_SYNC_SEND: one-step, or two-step with its Follow_Up. -/
def Dev.ptpSync (d : Dev) (p : Nat) : Dev :=
  let due := match tget? d.tb.ptpSent p with | some t => decide (t + d.syncNs ≤ d.up) | none => true
  if !d.ptpMasterPort p || !due then d
  else
    let (n, d) := d.ptpNext p 0
    let d := { d with tb := { d.tb with ptpSent := tset d.tb.ptpSent p d.up } }
    let (now, d) := d.ptpNow
    if d.flag 0x7200 0x0A then (d.ptpSend p (d.ptpMsg 0 n 0 0 true)).ptpSend p (d.ptpMsg 8 n now 0 false)
    else d.ptpSend p (d.ptpMsg 0 n now 0 false)

/-- PTP_ANNOUNCE_SEND. -/
def Dev.ptpAnnounce (d : Dev) (p : Nat) : Dev :=
  if !d.ptpMasterPort p then d else let (n, d) := d.ptpNext p 11; d.ptpSend p (d.ptpMsg 0x0B n (d.tai * 256) 0 false)

/-- PTP_DELAY_REQUEST_SEND: a Pdelay_Req on a peer-delay port, a Delay_Req on the slave port otherwise. -/
def Dev.ptpDelayReq (d : Dev) (p : Nat) : Dev :=
  if !d.ptpOn p || !(d.ptpP2p p || d.ptpSlave p) then d
  else
    let kind := if d.ptpP2p p then 2 else 1
    let (n, d) := d.ptpNext p kind
    let (now, d) := d.ptpNow
    let d := { d with tb := { d.tb with ptpReq := tset d.tb.ptpReq p (n, now), ptpPd := terase d.tb.ptpPd p } }
    d.ptpSend p (d.ptpMsg kind n now 0 false)

/-! ### Meanings -/

/-- PPS_IN_EDGE (R310). -/
def execPpsInEdge (frac : Nat) (s : State) : Res := s.act (fun d => d.ppsEdge frac)
/-- TAI_SET (R312). -/
def execTaiSet (r : DReq) (s : State) : Res := s.act (fun d => d.command r .taiSet (fun _ v d => d.taiSet v))
/-- TAI_STEP_APPLY (R312). -/
def execTaiStepApply (s : State) : Res := s.act Dev.taiStep
/-- TAI_SLEW_NS (R312). -/
def execTaiSlewNs (r : DReq) (s : State) : Res := s.act (fun d => d.command r .taiSlew (fun _ v d => d.taiSlew v))
/-- TB_SOURCE_WRITE (R310). -/
def execTbSourceWrite (r : DReq) (s : State) : Res := s.act (fun d => d.command r .tbSource (fun _ v d => d.tbSource v))
/-- SOURCE_LOSS_TIMEOUT (R311). -/
def execSourceLossTimeout (s : State) : Res := s.act Dev.sourceTimeout
/-- REFCLK_LOCK_LOST (R311). -/
def execRefclkLockLost (s : State) : Res := s.act Dev.refLost
/-- REFCLK_LOCK_REGAINED (R311). -/
def execRefclkLockRegained (s : State) : Res := s.act Dev.refRegained
/-- PPS_OUT_PULSE (R314). -/
def execPpsOutPulse (s : State) : Res := s.act Dev.ppsPulse
/-- PPS_OUT_WIDTH_END (R314). -/
def execPpsOutWidthEnd (pin : Nat) (s : State) : Res := s.act (fun d => d.ppsFall pin)
/-- PTP_MESSAGE_RECEIVE (R316). -/
def execPtpMessageReceive (port : Nat) (m : PtpMsg) (s : State) : Res := s.act (fun d => d.ptpReceive port m)
/-- PTP_SYNC_SEND (R316). -/
def execPtpSyncSend (port : Nat) (s : State) : Res := s.act (fun d => d.ptpSync port)
/-- PTP_ANNOUNCE_SEND (R316). -/
def execPtpAnnounceSend (port : Nat) (s : State) : Res := s.act (fun d => d.ptpAnnounce port)
/-- PTP_DELAY_REQUEST_SEND (R316). -/
def execPtpDelayRequestSend (port : Nat) (s : State) : Res := s.act (fun d => d.ptpDelayReq port)

end Sys2Proof.Machine
end

