-- ==== Sys2Proof/Machine/Ports.lean ====
section
/-! DEFINITION. The Ethernet ports (R352, R353): frames addressed to a session, to PTP, to ARP or neighbour discovery, flow
control received; and the PCIe host port (R354, R355). -/

namespace Sys2Proof.Machine

/-! ### Octets of a frame -/

/-- `n` octets from offset `i`. -/
def cutAt (l : List Byte) (i n : Nat) : List Byte := (l.drop i).take n

/-- A big-endian field. -/
def beAt (l : List Byte) (i n : Nat) : Nat := beNat (cutAt l i n)

/-- The sum of the 16-bit words of octets. -/
def sum16 : List Byte → Nat
  | a :: b :: r => a.toNat * 256 + b.toNat + sum16 r
  | [a] => a.toNat * 256
  | [] => 0

/-- The ones' complement sum. -/
def ones16 (n : Nat) : Nat :=
  let f (m : Nat) : Nat := m % 65536 + m / 65536
  f (f (f n))

/-- A sum with its check field in it comes to all ones. -/
def sumOk (n : Nat) : Bool := ones16 n == 65535

/-! ### Ports -/

/-- A logical port exists in the mode in force and its block runs (R352, R429). -/
def Dev.ethRuns (d : Dev) (e : Nat) : Bool :=
  d.portOn e && d.pwr.bs.getD (9 + e / 2) 0 == 2

/-- A frame dropped. -/
def Dev.ethDrop (d : Dev) (e : Nat) : Dev := d.bump (0x8200 + e) 8

/-- The EtherType and what follows it, once the tag is what the port's VLAN asks for. -/
def Dev.untag (d : Dev) (e : Nat) (f : List Byte) : Option (Nat × List Byte) :=
  let v := d.obj (0x8200 + e) 7 % 4096
  let t := beAt f 12 2
  if v = 0 then if t = 0x8100 then none else some (t, f.drop 14)
  else if t = 0x8100 && beAt f 14 2 % 4096 == v then some (beAt f 16 2, f.drop 18)
  else none

/-- A frame sent on a port by the port itself: to a MAC address, with its own tag. -/
def Dev.ethSend (d : Dev) (e : Nat) (dst : List Byte) (typ : Nat) (pl : List Byte) : Dev :=
  let tag := if d.ethTci e = 0 then [] else beOctets 2 0x8100 ++ beOctets 2 (d.ethTci e)
  let f := dst ++ leOctets 6 (d.ethMac e) ++ tag ++ beOctets 2 typ ++ pl
  { d with lnk := { d.lnk with ethOut := d.lnk.ethOut ++ [(e, f ++ List.replicate (60 - f.length) 0)] } }

/-! ### ARP and neighbour discovery -/

/-- An ARP request for the port's address is answered. -/
def Dev.arp (d : Dev) (e : Nat) (p : List Byte) : Dev :=
  let own := leOctets 4 (d.obj (0x8200 + e) 4)
  if beAt p 0 2 = 1 && beAt p 2 2 = 0x0800 && beAt p 4 2 = 0x0604 && beAt p 6 2 = 1 && cutAt p 24 4 == own && own != [0, 0, 0, 0] then
    let sha := cutAt p 8 6
    d.ethSend e sha 0x0806 (beOctets 2 1 ++ beOctets 2 0x0800 ++ beOctets 2 0x0604 ++ beOctets 2 2
      ++ leOctets 6 (d.ethMac e) ++ own ++ sha ++ cutAt p 14 4)
  else if 28 ≤ p.length then d
  else d.ethDrop e

/-- The sum over an IPv6 pseudo-header. -/
def pseudo6 (src dst : List Byte) (n next : Nat) : Nat := sum16 src + sum16 dst + n + next

/-- A neighbour solicitation for the port's address is answered with an advertisement; `mac` asked. Other messages of neighbour
discovery are taken without effect (R353). -/
def Dev.neighbour (d : Dev) (e : Nat) (mac src icmp : List Byte) : Dev :=
  let own := leOctets 16 (d.obj (0x8200 + e) 5)
  if (icmp.headD 0).toNat = 135 && cutAt icmp 8 16 == own then
    let body (c : Nat) : List Byte :=
      [136, 0] ++ beOctets 2 c ++ beOctets 4 0x60000000 ++ own ++ [2, 1] ++ leOctets 6 (d.ethMac e)
    let c := 65535 - ones16 (pseudo6 own src 32 58 + sum16 (body 0))
    d.ethSend e mac 0x86DD (beOctets 4 0x60000000 ++ beOctets 2 32 ++ [58, 255] ++ own ++ src ++ body c)
  else if 133 ≤ (icmp.headD 0).toNat && (icmp.headD 0).toNat ≤ 137 then d
  else d.ethDrop e

/-! ### TCP segments and PTP messages -/

/-- The options of a TCP header: MSS, window scale, SACK permitted, SACK blocks. -/
structure TcpOpts where
  mss   : Option Nat
  scale : Option Nat
  sackOk : Bool
  sacks : List (Nat × Nat)
  deriving DecidableEq, Repr

/-- SACK blocks. -/
def sackBlocks : Nat → List Byte → List (Nat × Nat)
  | 0, _ => []
  | n + 1, o => (beAt o 0 4, beAt o 4 4) :: sackBlocks n (o.drop 8)

/-- The options read in order; what does not parse ends them. -/
def tcpOpts : Nat → TcpOpts → List Byte → TcpOpts
  | 0, t, _ => t
  | n + 1, t, o =>
    let k := (o.headD 0).toNat
    let len := (o.getD 1 0).toNat
    if o.isEmpty || k = 0 then t
    else if k = 1 then tcpOpts n t (o.drop 1)
    else if len < 2 || o.length < len then t
    else
      let v := cutAt o 2 (len - 2)
      let t :=
        if k = 2 && len = 4 then { t with mss := some (beNat v) }
        else if k = 3 && len = 3 then { t with scale := some (beNat v) }
        else if k = 4 && len = 2 then { t with sackOk := true }
        else if k = 5 then { t with sacks := sackBlocks ((len - 2) / 8) v }
        else t
      tcpOpts n t (o.drop len)

/-- A TCP segment; none where the header does not hold together. -/
def parseTcp (v6 : Bool) (addr : Nat) (o : List Byte) : Option SegIn :=
  let h := (o.getD 12 0).toNat / 16 * 4
  let fl := (o.getD 13 0).toNat
  if h < 20 || o.length < h then none
  else
    let t := tcpOpts 40 ⟨none, none, false, []⟩ (cutAt o 20 (h - 20))
    some { v6 := v6, addr := addr, sport := beAt o 0 2, dport := beAt o 2 2, seq := beAt o 4 4, ack := beAt o 8 4,
           syn := bit fl 1, ackF := bit fl 4, fin := bit fl 0, rst := bit fl 2, wnd := beAt o 14 2, mss := t.mss,
           scale := t.scale, sackOk := t.sackOk, sacks := t.sacks, data := o.drop h }

/-- A PTP message that came by a transport at an instant. Its correction field counts 2^−16 ns. -/
def parsePtp (transp rx : Nat) (o : List Byte) : Option PtpMsg :=
  if o.length < 44 || (o.getD 1 0).toNat % 16 ≠ 2 then none
  else
    some { typ := beAt o 0 1 % 16, seq := beAt o 30 2, domain := beAt o 4 1, transp := transp,
           stamp := (beAt o 34 6 * 10 ^ 9 + beAt o 40 4) * 256, corr := sgn 64 (beAt o 8 8) / 256,
           twoStep := bit (beAt o 6 1) 1, prio1 := beAt o 47 1, cls := beAt o 48 1, acc := beAt o 49 1, var := beAt o 50 2,
           prio2 := beAt o 52 1, gm := beAt o 53 8, steps := beAt o 61 2, ident := beAt o 20 8, rx := rx }

/-- A message for PTP: delivered, or dropped on a port that does not run it. -/
def Dev.ptpFrame (d : Dev) (e transp : Nat) (o : List Byte) : Dev :=
  let (now, d) := d.ptpNow
  match parsePtp transp now o with
  | some m => if d.ptpOn e then d.ptpReceive e m else d.ethDrop e
  | none => d.ethDrop e

/-- A segment: delivered where a session has the connection or listens for it. -/
def Dev.tcpFrame (d : Dev) (e : Nat) (g : SegIn) : Dev :=
  if (d.connOf e g).isSome || (d.listener e g).isSome then (d.segment e g).settle else d.ethDrop e

/-- What IP carries: protocol 6 to this port's address, or UDP to the PTP ports. -/
def Dev.ipFrame (d : Dev) (e : Nat) (v6 : Bool) (own : Bool) (addr proto pseudo : Nat) (o : List Byte) : Dev :=
  if proto = 6 && own && sumOk (pseudo + sum16 o) then
    match parseTcp v6 addr o with | some g => d.tcpFrame e g | none => d.ethDrop e
  else if proto = 17 && (beAt o 2 2 = 319 || beAt o 2 2 = 320) then d.ptpFrame e (if v6 then 2 else 1) (o.drop 8)
  else d.ethDrop e

/-- An IPv4 packet: options and fragments are dropped (R246). -/
def Dev.ip4 (d : Dev) (e : Nat) (p : List Byte) : Dev :=
  let n := beAt p 2 2
  if (p.headD 0).toNat ≠ 0x45 || p.length < n || n < 20 || beAt p 6 2 % 0x4000 ≠ 0 || !sumOk (sum16 (p.take 20)) then d.ethDrop e
  else
    let o := cutAt p 20 (n - 20)
    d.ipFrame e false (leNat (cutAt p 16 4) == d.obj (0x8200 + e) 4) (leNat (cutAt p 12 4)) (beAt p 9 1)
      (sum16 (cutAt p 12 8) + beAt p 9 1 + o.length) o

/-- An IPv6 packet: extension headers are dropped (R246). -/
def Dev.ip6 (d : Dev) (e : Nat) (mac p : List Byte) : Dev :=
  let n := beAt p 4 2
  if (p.headD 0).toNat / 16 ≠ 6 || p.length < 40 + n then d.ethDrop e
  else
    let o := cutAt p 40 n
    let next := beAt p 6 1
    let sum := pseudo6 (cutAt p 8 16) (cutAt p 24 16) n next
    if next = 58 then if sumOk (sum + sum16 o) then d.neighbour e mac (cutAt p 8 16) o else d.ethDrop e
    else d.ipFrame e true (leNat (cutAt p 24 16) == d.obj (0x8200 + e) 5) (leNat (cutAt p 8 16)) next sum o

/-! ### Flow control received (R252, R353) -/

/-- Time of `q` quanta of 512 bit times in ns: 100 Gb/s on a split port, else 200 Gb/s. -/
def Dev.quanta (d : Dev) (e q : Nat) : Nat := if tget false d.lnk.split (e / 2) then q * 512 / 100 else q * 512 / 200

def Dev.setFcRx (d : Dev) (e i q : Nat) : Dev :=
  { d with ses := { d.ses with fcRx := tset d.ses.fcRx (e * 16 + i) (d.up + d.quanta e q) } }

/-- PAUSE in PAUSE mode, PFC in PFC mode; what is freed sends on. -/
def Dev.macControl (d : Dev) (e : Nat) (p : List Byte) : Dev :=
  let mode := d.obj 0x4020 (e + 2)
  let d :=
    if beAt p 0 2 = 1 && mode = 1 then d.setFcRx e 8 (beAt p 2 2)
    else if beAt p 0 2 = 0x0101 && mode = 2 then
      ((List.range 8).filter (fun i => bit (beAt p 2 2) i)).foldl (fun d i => d.setFcRx e i (beAt p (4 + 2 * i) 2)) d
    else d
  (d.ses.ses.filter (fun (x : Nat × Ses) => x.2.tcb.conn && cfgPort x.2.cfg == e)).foldl (fun d x => d.pump x.1) d

/-- A frame's destination is one that the port takes: its own address, or a group address. -/
def Dev.macFor (d : Dev) (e : Nat) (f : List Byte) : Bool :=
  leNat (f.take 6) == d.ethMac e || bit (f.headD 0).toNat 0

/-- ETH_FRAME_RECEIVE: a frame without its check sequence, 64 to 9,216 octets with it. -/
def Dev.ethReceive (d : Dev) (e : Nat) (f : List Byte) : Dev :=
  if !d.ethRuns e then d
  else if f.length < 60 || 9212 < f.length || !d.macFor e f then d.ethDrop e
  else if beAt f 12 2 = 0x8808 then d.macControl e (f.drop 14)
  else match d.untag e f with
    | none => d.ethDrop e
    | some (t, p) =>
      if t = 0x0806 then d.arp e p
      else if t = 0x88F7 then d.ptpFrame e 0 p
      else if t = 0x0800 then d.ip4 e p
      else if t = 0x86DD then d.ip6 e (cutAt f 6 6) p
      else d.ethDrop e

/-- ETH_SPLIT: on even logical ports only. -/
def Dev.ethSplit (d : Dev) (e v : Nat) : Dev :=
  if e % 2 = 0 then (d.setObj (0x8200 + e) 1 v).splitSettle else d

/-! ### The PCIe host port (R354, R355) -/

/-- PCIE_LINK_UP: width and rate codes as negotiated. -/
def Dev.pcieUp_ (d : Dev) (width rate : Nat) : Dev :=
  if d.pwr.bs.getD 19 0 ≠ 2 then d
  else ({ d with lnk := { d.lnk with pcieUp := true } }).setObj 0x8300 1 (width % 16 * 16 + rate % 16)

/-- PCIE_LINK_RESET: the queue pairs are reset and the sessions they carry closed; the link is down until it trains. -/
def Dev.pcieReset (d : Dev) : Dev :=
  { d with
    lnk := { d.lnk with pcieUp := false, qps := [], masked := [], frames := [] },
    wrd := d.wrd.closePcie,
    jnl := { d.jnl with posted := if d.obj 0x7000 8 = 1 then 0 else d.jnl.posted } }

/-- The frame that a host buffer of a dictionary queue pair holds is one for this node (R374). -/
def Dev.hostFrame (d : Dev) (q : Nat) (f : RFrame) : Bool :=
  decide (f.typ ≤ 6) && f.flags == 0 && f.hops == 0 && f.src == leOctets 8 q && f.dst == d.nodeId

/-- A ring length that BAR0 may hold (R355). -/
def ringLenOk (n : Nat) : Bool := decide (2 ≤ n) && decide (n ≤ 65536)

/-- PCIE_DOORBELL: an entry of a queue pair's submission ring, at `index`, naming a buffer of `octets` octets; `x` are the
pair's registers. One that exceeds the ring, or meets a ring of no legal length, or names an unaligned buffer is
completed with status 1. -/
def Dev.doorbell (d : Dev) (q : Nat) (x : QpRegs) (index octets : Nat) (aligned : Bool) (f : RFrame) : Dev :=
  if !d.lnk.pcieUp || 34 ≤ q then d
  else
    let d := d.modQp q (fun y => { y with subLen := x.subLen, cplLen := x.cplLen })
    let d := { d with lnk := { d.lnk with masked := x.masked } }
    if !(ringLenOk x.subLen && ringLenOk x.cplLen && decide (index < x.subLen) && aligned) then (d.complete q index 1).bump 0x8300 2
    else
      let d := d.modQp q (fun y => { y with head := (index + 1) % x.subLen })
      if q < 32 then if d.hostFrame q f then (d.complete q index 0).wardIrq 1 else d.complete q index 0
      else
        let d := d.modQp q (fun x => { x with bufs := x.bufs ++ [(index, octets)] })
        if q = 32 then d.exportNext else d

/-! ### Meanings -/

/-- ETH_FRAME_RECEIVE (R353). -/
def execEthFrameReceive (port : Nat) (frame : List Byte) (s : State) : Res := s.act (fun d => d.ethReceive port frame)
/-- ETH_SPLIT (R352). -/
def execEthSplit (r : DReq) (s : State) : Res := s.act (fun d => d.command r .ethSplit (fun _ v d => d.ethSplit (r.idx % 256) v))
/-- PCIE_LINK_UP (R354). -/
def execPcieLinkUp (width rate : Nat) (s : State) : Res := s.act (fun d => d.pcieUp_ width rate)
/-- PCIE_LINK_RESET (R442). -/
def execPcieLinkReset (s : State) : Res := s.act Dev.pcieReset
/-- PCIE_DOORBELL (R355). -/
def execPcieDoorbell (qp : Nat) (x : QpRegs) (index octets : Nat) (aligned : Bool) (frame : RFrame) (s : State) : Res :=
  s.act (fun d => d.doorbell qp x index octets aligned frame)

end Sys2Proof.Machine
end

