-- ==== Sys2Proof/Machine/Queues.lean ====
section
/-! DEFINITION. Bursts and refills of every spill queue (R90–R99, R101, R249, R337), and the break of an orphaned lock
(R239). -/

namespace Sys2Proof.Machine

/-- SPILL_BURST_DONE (R91). -/
def Dev.burst (d : Dev) (q : QId) : Dev :=
  match q with
  | .ready p k => let x := (d.pos p).queue k; d.setRq p k (sqBurst (d.rqCfg p k x) x)
  | .ingress r => let x := d.ing r; ((d.setIng r { x with q := sqBurst (d.ringCfg 0x4100 r x.q) x.q }).resume r).settle
  | .egress r => let x := d.egr r; d.setEgr r { x with q := sqBurst (d.ringCfg 0x4200 r x.q) x.q }
  | .park k => let x := tget parkInit d.fab.noc.park k; d.setPark k (sqBurst (d.parkCfg x) x)

/-- A refill that is due at a queue; held writes follow where the tail window gained room. -/
def sqDoRefill {α : Type} (c : SqCfg) (q : SQ α) : SQ α := if sqRefillDue q = 0 then q else sqFlush c (sqRefill q)

/-- SPILL_REFILL_DONE (R91, R94). -/
def Dev.refill (d : Dev) (q : QId) : Dev :=
  match q with
  | .ready p k => let x := (d.pos p).queue k; d.setRq p k (sqDoRefill (d.rqCfg p k x) x)
  | .ingress r => let x := d.ing r; ((d.setIng r { x with q := sqDoRefill (d.ringCfg 0x4100 r x.q) x.q }).resume r).settle
  | .egress r => let x := d.egr r; d.setEgr r { x with q := sqDoRefill (d.ringCfg 0x4200 r x.q) x.q }
  | .park k => let x := tget parkInit d.fab.noc.park k; d.setPark k (sqDoRefill (d.parkCfg x) x)

/-- The journal record of a break (R239, R295, R296). -/
def Dev.breakRec (d : Dev) (reason ea new sess : Nat) (ro : Role) (e : Option LockEnt) : Dev :=
  let c := match e with | some e => e.hctx * 64 + e.hgen | none => 0
  d.journal { jrec0 with
    lane := c / 64 % 16, typ := 5, reason := reason, corr := c, detail := ea + new * 2 ^ 40, actor := sess,
    role := roleNum ro + 1 }

/-- ORPHAN_BREAK (R239). -/
def Dev.orphanBreak (d : Dev) (ea sess : Nat) (ro : Role) : Dev :=
  let refuse : Dev := (d.bump 0x6310 3).breakRec 2 ea 0 sess ro none
  match d.lockOf ea with
  | none => refuse
  | some (i, e) =>
    if !e.orphan then refuse
    else
      let new := match d.nextWaiter e with | some w => (d.hslot w).ctx | none => 0
      ((d.release i).bump 0x6310 2).breakRec 1 ea new sess ro (some e)

/-- SPILL_BURST_DONE (R91). -/
def execSpillBurstDone (q : QId) (s : State) : Res := s.act (fun d => d.burst q)
/-- SPILL_REFILL_DONE (R91). -/
def execSpillRefillDone (q : QId) (s : State) : Res := s.act (fun d => d.refill q)
/-- ORPHAN_BREAK (R239). -/
def execOrphanBreak (r : DReq) (s : State) : Res :=
  s.act (fun d => d.command r .orphanBreak (fun ro v d => d.orphanBreak (v % 2 ^ 40) r.sess ro))

end Sys2Proof.Machine
end

