-- ==== Sys2Proof/Machine/Objects.lean ====
section
/-! DEFINITION. What every object of the dictionary reads as, and what a plain write does (R10–R13 and the object tables). -/

namespace Sys2Proof.Machine

/-! ### Reading: the number an object holds -/

def SesState.code (t : SesState) : Nat :=
  match t with
  | .disabled => 0 | .listening => 1 | .connecting => 2 | .handshaking => 3 | .opened => 4 | .closing => 5 | .backoff => 6
def LinkState.code (t : LinkState) : Nat := match t with | .disabled => 0 | .training => 1 | .up => 2 | .retraining => 3 | .down => 4
def ImgState.code (t : ImgState) : Nat := match t with | .empty => 0 | .receiving => 1 | .loaded => 2 | .active => 3 | .draining => 4
def FwState.code (t : FwState) : Nat :=
  match t with | .empty => 0 | .receiving => 1 | .valid => 2 | .invalid => 3 | .active => 4 | .trial => 5 | .rejected => 6
def SwapSt.code (t : SwapSt) : Nat := match t with | .idle => 0 | .flipping => 1 | .draining => 2
def SrcSt.code (t : SrcSt) : Nat := match t with | .idle => 0 | .opened => 1 | .acked => 2 | .deadbolted => 3
def PosState.code (t : PosState) : Nat := match t with | .off => 0 | .standby => 1 | .inService => 2 | .failed => 3

/-- Bits of a list, bit 0 first. -/
def bitsOf (l : List Bool) : Nat := l.foldr (fun b n => b2n b + 2 * n) 0

/-- Identity, ring and dictionary. -/
def Dev.read1 (d : Dev) (idx sub : Nat) : Nat :=
  match idx, sub with
  | 0x1000, 1 => if d.part = .x then 0 else 1
  | 0x1000, 2 => d.ident.grade
  | 0x1000, 3 => d.ident.rev
  | 0x1000, 4 => leNat d.ident.serial
  | 0x1000, 5 => leNat d.ident.mac
  | 0x1000, 6 => d.wrd.fwVer
  | 0x1000, 7 => d.wrd.rollback
  | 0x1010, 2 => d.wrd.storeSt
  | 0x1100, 1 => bitsOf [d.rng.sync.getD 0 false, d.rng.sync.getD 1 false, d.rng.hinge.getD 0 false, d.rng.hinge.getD 1 false, d.rng.master]
  | 0x1100, 3 => leNat d.rng.mId
  | 0x1200, 1 => (d.wrd.sessions.filter (fun (e : Nat × WSes) => e.2.stage == .opened)).length
  | 0x1F00, 3 => dirSubs d.part (d.obj 0x1F00 1)
  | 0x1F00, 4 => match objRow d.part (d.obj 0x1F00 1) (d.obj 0x1F00 2) with | some o => o.desc | none => 0
  | _, _ => d.obj idx sub

/-- Fabric. Sub-index *n* of a per-cluster object is position *n* − 1 (R104). -/
def Dev.read2 (d : Dev) (idx sub : Nat) : Nat :=
  let p := sub - 1
  match idx, sub with
  | 0x2000, 2 => d.fab.reserved
  | 0x2000, 3 => lsum (d.fab.heads.map (fun (e : Nat × List OvfEnt) => e.2.length))
  | 0x2000, 4 => d.fab.leaked
  | 0x2000, 7 => b2n d.fab.mOpen
  | 0x2003, _ => let f := tget ⟨[], 0⟩ d.fab.free p; 8388608 - f.fresh + f.returned.length
  | 0x2105, _ => tget 0 d.fab.stallMap p
  | 0x2200, 2 => 16 * d.inService.length
  | 0x2300, 2 => d.fab.spillRes
  | 0x2300, 3 => 64 * lsum (d.fab.pos.map (fun (e : Nat × Pos) => lsum (e.2.rq.map (fun q => q.mid.length))))
  | 0x2300, 6 => b2n d.fab.sOpen
  | 0x2318, _ =>
    let qs := (List.range 8).map (fun i => (d.pos p).queue i)
    bitsOf (qs.map (·.above)) + 256 * bitsOf (qs.map (·.overrun))
  | 0x2400, _ => (d.pos p).pace
  | 0x2501, _ => (d.pos p).code.length
  | 0x2800, 2 => d.ctxActive
  | 0x2800, 3 => (d.key.lives.filter (fun (e : Nat × Life) => e.2.st == .parked)).length
  | 0x2800, 4 => ctxCount - d.key.freshCtx + d.key.freeTail.length
  | _, _ =>
    if 0x2310 ≤ idx && idx ≤ 0x2317 then
      let q := (d.pos p).queue (idx - 0x2310)
      sqFill q + (d.rqCfg p (idx - 0x2310) q).aside
    else d.obj idx sub

/-- Keyway and contracts. -/
def Dev.read3 (d : Dev) (idx sub : Nat) : Nat :=
  let p := sub - 1
  if inPage idx 0x31 && sub ≤ 4 then
    let t := idx % 256
    let o := d.tpl t
    match sub with
    | 1 => leNat o
    | 2 => b2n (d.tplUsable t)
    | 3 => if d.tplUsable t then (d.shares t).1 else 0
    | _ => if d.tplUsable t then tplAllowance o else 0
  else if idx = 0x3300 && 2 ≤ sub then tget 0 d.key.sel (d.obj 0x3300 1 * 64 + (sub - 2))
  else if 0x3030 ≤ idx && idx ≤ 0x3037 then d.backlog p (idx - 0x3030)
  else match idx, sub with
    | 0x3002, 4 => d.committed.1
    | 0x3002, 5 => d.committed.2.1
    | 0x3002, 6 => d.committed.2.2
    | 0x3020, _ => (d.pos p).credit
    | 0x3040, 1 => (d.key.lives.filter (fun (e : Nat × Life) => e.2.timer)).length
    | _, _ => d.obj idx sub

/-- The status object of a ring. -/
def sqStatus {α : Type} (q : SQ α) : Nat := bitsOf [q.full, q.above, q.overrun]

/-- Sessions and rings. -/
def Dev.read4 (d : Dev) (idx sub : Nat) : Nat :=
  let x := d.sess (d.obj 0x4001 1)
  if inPage idx 0x41 then
    let q := (d.ing (idx % 256)).q
    match sub with | 1 => b2n q.on | 8 => sqFill q | 9 => sqStatus q | _ => d.obj idx sub
  else if inPage idx 0x42 then
    let q := (d.egr (idx % 256)).q
    match sub with | 1 => b2n q.on | 8 => sqFill q | 9 => sqStatus q | _ => d.obj idx sub
  else if inPage idx 0x44 then
    match tget? d.wrd.fmts (idx % 256) with
    | some t => if sub = 1 then fmtWord t 0 else 1
    | none => 0
  else match idx, sub with
    | 0x4000, 1 => (d.ses.ses.filter (fun (e : Nat × Ses) => e.2.st == .opened)).length
    | 0x4000, 5 => d.ses.hsQ.length
    | 0x4001, 2 => x.cfg
    | 0x4001, 3 => x.addr
    | 0x4001, 4 => x.st.code
    | 0x4001, 6 => x.rx
    | 0x4001, 7 => x.tx
    | 0x4001, 8 => x.disc
    | 0x4001, 9 => x.hb
    | 0x4001, 10 => x.lost
    | 0x4002, 2 => d.partner (d.obj 0x4002 1)
    | _, _ => d.obj idx sub

/-- Crypto and keyring. -/
def Dev.read5 (d : Dev) (idx sub : Nat) : Nat :=
  let k := d.key? (d.obj 0x5001 1)
  match idx, sub with
  | 0x5000, 1 => d.cry.ring
  | 0x5000, 2 => d.cry.keys.length
  | 0x5001, 2 => match k with | some k => k.attr | none => 0
  | 0x5001, 3 => match k with | some k => leNat (checkValue k) | none => 0
  | 0x5002, 4 => d.cry.impSt
  | 0x5003, 3 => d.cry.expSt
  | 0x5004, 2 => leNat (d.cry.compChk.take 5)
  | 0x5005, 3 => d.cry.genSt
  | 0x5020, 1 => d.cry.drbg
  | _, _ => d.obj idx sub

/-- Structure memory and hasp. -/
def Dev.read6 (d : Dev) (idx sub : Nat) : Nat :=
  if inPage idx 0x61 then match d.graph (idx % 256) with | some g => g.windows.getD (sub - 1) 0 | none => 0
  else match idx, sub with
    | 0x6020, 2 => d.mem.defers.length
    | 0x6300, 2 => d.hasp.locks.length
    | 0x6300, 4 => d.hasp.slots.length
    | 0x6300, 5 => (d.hasp.slots.filter (fun (e : Nat × HSlot) => e.2.queued.isSome)).length
    | 0x6300, 11 => b2n d.hasp.low
    | 0x6301, 1 => d.orphans.length
    | 0x6301, 3 => match d.orphans[d.obj 0x6301 2]? with | some e => e.2.pack | none => 0
    | _, _ => d.obj idx sub

/-- Journal and timebase. -/
def Dev.read7 (d : Dev) (idx sub : Nat) : Nat :=
  match idx, sub with
  | 0x7000, 3 => d.jnlUnexported
  | 0x7000, 5 => b2n (!d.jnl.closed)
  | 0x7000, 10 => d.jnl.epoch
  | 0x7001, _ => d.laneSeq (sub - 1)
  | 0x7010, 1 => d.jnl.ckptLast
  | 0x7100, 1 => d.quality
  | 0x7100, 4 => d.time80
  | 0x7100, 13 => if d.tb.st = .holdover then (d.up - d.tb.hold) / 10 ^ 9 else 0
  | 0x7300, 1 => b2n d.rng.master
  | _, _ => d.obj idx sub

/-- A position's state object. -/
def Pos.object (p : Pos) : Nat :=
  p.st.code * 64 + b2n p.spare * 32 + (if p.st = .inService then match p.logical with | some k => k % 32 | none => 0 else 0)

/-- Network, links, host. -/
def Dev.read8 (d : Dev) (idx sub : Nat) : Nat :=
  let n := d.fab.noc
  let one := n.bankOne
  match linkOfIdx d.part idx with
  | some l => match sub with
    | 2 => (d.link l).st.code
    | 8 => if (d.link l).st = .up then d.obj idx 8 else 0x8000
    | _ => d.obj idx sub
  | none => match idx, sub with
    | 0x8000, 1 => bitsOf n.epoch
    | 0x8000, 3 => n.swap.code
    | 0x8001, 3 => (d.router (d.obj 0x8001 1)).current (!one) (d.obj 0x8001 2)
    | 0x8001, 4 => (d.router (d.obj 0x8001 1)).current one (d.obj 0x8001 2)
    | 0x8002, 2 => tget 0 n.place (d.obj 0x8002 1)
    | 0x8002, 4 => tget 0 n.home (d.obj 0x8002 3)
    | 0x8010, _ => (d.pos (sub - 1)).object
    | 0x8030, 4 => 64 * lsum (n.park.map (fun (e : Nat × SQ Flit) => e.2.mid.length))
    | 0x8110, 2 => tget 0xFF (if one then d.lnk.dr0 else d.lnk.dr1) (d.obj 0x8110 1)
    | 0x8120, 1 => d.lnk.proxies.length
    | _, _ => if inPage idx 0x82 && sub = 3 then d.ethMac (idx % 256) else d.obj idx sub

/-- A history entry as R396 lays it out. -/
def HEnt.pack (e : HEnt) : Nat :=
  e.first * 2 ^ 176 + e.lastNs % 2 ^ 64 * 2 ^ 112 + e.src * 2 ^ 104 + e.cls * 2 ^ 102 + e.count * 2 ^ 86
    + e.loc % 2 ^ 32 * 2 ^ 54 + e.estate * 2 ^ 52 + b2n e.acked * 2 ^ 51 + e.dead * 2 ^ 48 + e.seq * 2 ^ 32

/-- Faults. -/
def Dev.read9 (d : Dev) (idx sub : Nat) : Nat :=
  if inPage idx 0x91 && (sub = 2 || sub = 8) then
    let x := d.src (idx % 256)
    if sub = 2 then x.st.code else lsum x.subs
  else match idx, sub with
    | 0x9000, 1 => (d.flt.srcs.filter (fun (e : Nat × FSrc) => e.2.st != .idle)).length
    | 0x9001, _ => match d.flt.hist[sub - 1]? with | some e => e.pack | none => 0
    | 0x9200, 2 => (d.standby 0).length
    | 0x9200, 3 => (d.standby 1).length
    | 0x9200, 4 => (d.standby 2).length
    | 0x9200, 5 => (d.standby 3).length
    | 0x9300, 7 => d.flt.injLeft
    | _, _ => d.obj idx sub

/-- Performance counters. -/
def Dev.readA (d : Dev) (idx sub : Nat) : Nat :=
  if inPage idx 0xA1 && sub ≤ 17 then
    if sub = 1 then d.tai
    else if sub ≤ 9 then (d.ctr (idx % 256) (sub - 2)).value
    else (d.ctr (idx % 256) (sub - 10)).cfg
  else match idx, sub with
    | 0xA000, 10 => match d.perf.ovfQ with
      | (b, k, c) :: r => 2 ^ 31 + b % 8 * 2 ^ 21 + k % 8 * 2 ^ 16 + c % 256 * 256 + min 255 (r.length + 1)
      | [] => 0
    | 0xA200, _ => d.slotCount (sub - 1) 4
    | 0xA201, _ => d.slotCount (sub - 1) slotR
    | 0xA202, _ => d.slotCount (sub - 1) slotW
    | 0xA203, _ => d.slotCount (sub - 1) slotB
    | 0xA204, _ => d.slotCount (sub - 1) slotF
    | _, _ => d.obj idx sub

/-- Reset, power, thermal. -/
def Dev.readB (d : Dev) (idx sub : Nat) : Nat :=
  let w := d.pwr
  match idx, sub with
  | 0xB000, 3 => w.sysResets
  | 0xB003, _ => w.bs.getD (sub - 1) 0
  | 0xB010, 2 => w.setMv
  | 0xB010, 3 => w.minPace
  | 0xB011, 2 => b2n (decide (800 < w.setMv))
  | 0xB011, 3 => d.balanceMs
  | 0xB011, 4 => (w.usedMs + d.boostMs) / 1000
  | 0xB011, 5 => w.entries
  | 0xB020, 4 => w.trips
  | 0xB020, 5 => wrap 40 w.tjMax
  | 0xB030, 1 => w.hours
  | 0xB030, 2 => w.hours95
  | 0xB040, _ => w.repair.getD (sub - 1) 0
  | _, _ => d.obj idx sub

/-- A ward log entry as R363 lays it out: entry number `n`, from 1 (log 34). -/
def Dev.logEntry (d : Dev) (n : Nat) : List Byte :=
  let zero := List.replicate 64 (0 : Byte)
  if n = 0 || d.wrd.logCount < n then zero
  else match d.wrd.log[d.wrd.logCount - n]? with
    | some e => leOctets 10 e.time ++ leOctets 2 e.code ++ List.replicate 4 0 ++ e.detail
    | none => zero

/-- Ward and update. -/
def Dev.readC (d : Dev) (idx sub : Nat) : Nat :=
  match idx, sub with
  | 0xC000, 1 => d.wrd.state
  | 0xC100, _ =>
    if sub ≤ 5 then wrap 40 (d.pwr.tj.getD (sub - 1) 0)
    else if sub ≤ 13 then wrap 40 (d.pwr.tjHbm.getD (sub - 6) 0)
    else d.pwr.rails.getD (sub - 16) 0
  | 0xC200, 2 => d.wrd.fwA.st.code
  | 0xC200, 3 => d.wrd.fwB.st.code
  | 0xC500, 1 => d.wrd.logCount
  | 0xC500, 3 => leNat (d.logEntry (d.obj 0xC500 2))
  | _, _ => d.obj idx sub

/-- Images. -/
def Dev.readD (d : Dev) (idx sub : Nat) : Nat :=
  match sub with
  | 2 => (d.img idx).st.code
  | 4 => (d.img idx).result
  | _ => 0

/-- The number that an object reads as: its octets, least significant first. -/
def Dev.readObj (d : Dev) (idx sub : Nat) : Nat :=
  match idx / 4096 with
  | 1 => d.read1 idx sub
  | 2 => d.read2 idx sub
  | 3 => d.read3 idx sub
  | 4 => d.read4 idx sub
  | 5 => d.read5 idx sub
  | 6 => d.read6 idx sub
  | 7 => d.read7 idx sub
  | 8 => d.read8 idx sub
  | 9 => d.read9 idx sub
  | 10 => d.readA idx sub
  | 11 => d.readB idx sub
  | 12 => d.readC idx sub
  | 13 => d.readD idx sub
  | _ => d.obj idx sub

/-- Octets of the device's own certificates, which the factory fixes: free, one value each (log 35). -/
def factoryOctets (base n : Nat) : List Byte := (upFrom base n).map Config.freeOctet

/-- The bits of each octet of a container's header that are not reserved (R379, R10). -/
def imgHeaderMask : List Nat :=
  List.replicate 0x13 0xFF ++ [0, 0xFF, 0xFF, 0x0F, 0] ++ List.replicate 12 0xFF ++ List.replicate 4 0 ++ List.replicate 72 0xFF

/-- A container's header as `IMG_HEADER` shows it. -/
def imgHeaderRead (o : List Byte) : List Byte := (o.zip imgHeaderMask).map (fun e => BitVec.ofNat 8 (e.1.toNat &&& e.2))

/-- The octets of an object of `n` octets. Those too large for one response are octet strings of their own. -/
def Dev.objOctets (d : Dev) (idx sub n : Nat) : List Byte :=
  if idx = 0x5001 && sub = 4 then
    padTo n (match d.key? (d.obj 0x5001 1) with | some k => k.pub | none => [])
  else if idx = 0x5003 && sub = 4 then padTo n d.cry.expBlock
  else if idx = 0x7010 && sub = 5 then
    let k := d.obj 0x7010 4
    match tget? d.jnl.ckpts (k % ckptSlots) with
    | some c => if leNat (c.take 8) = k then c else List.replicate n 0
    | none => List.replicate n 0
  else if idx = 0x7020 && sub = 1 then d.jnlPub
  else if idx = 0x7020 && sub = 2 then factoryOctets (2 ^ 42) n
  else if 0xD000 ≤ idx && sub = 5 then padTo n (imgHeaderRead (d.img idx).octets)
  else leOctets n (d.readObj idx sub)

/-! ### Writing -/

/-- The bits of a value that the object holds; reserved ones are ignored (R10). -/
def keptBits (idx sub w v : Nat) : Nat :=
  let v := v % 2 ^ w
  if idx = 0x4001 && sub = 2 then v - bits v 38 32 * 2 ^ 32
  else if idx = 0x4002 && sub = 2 then v / 2 ^ 43 * 2 ^ 43
  else if (idx = 0x3300 && 2 ≤ sub) || inPage idx 0x40 && 0x4010 ≤ idx && idx < 0x4020 then v / 2 ^ 14 * 2 ^ 14
  else if inPage idx 0xA1 && 0x12 ≤ sub then v - bits v 11 3 * 8
  else if inPage idx 0x82 && sub = 7 then v % 2 ^ 15
  else if idx = 0x8002 && sub = 3 then v % 2 ^ 24
  else if idx = 0x8002 && sub = 2 then v / 2 ^ 10 * 2 ^ 10
  else if idx = 0x5005 && sub = 1 then v - bits v 19 2 * 4
  else v

/-- `lo` ≤ `v` ≤ `hi`. -/
def within_ (v lo hi : Nat) : Bool := decide (lo ≤ v) && decide (v ≤ hi)

/-- The ranges outside which the object tables have a write ignored. A code that a table does not list is ignored too
(log 36). -/
def Dev.writeRange (d : Dev) (idx sub v : Nat) : Bool :=
  if inPage idx 0x41 || inPage idx 0x42 then
    match sub with | 2 => decide (v ≤ 1048576) | 5 => within_ v 64 65536 | 6 => decide (v ≤ 7) | 7 => decide (v ≤ 7) | _ => true
  else if inPage idx 0x91 then
    let s := idx % 256
    match sub with
    | 5 => within_ v 100 1000000
    | 6 => decide (v ≤ 4) && (v != 4 || s == 0x71 || s == 0x72) && (srcClass s != 2 || decide (2 ≤ v))
    | _ => true
  else if inPage idx 0x82 && sub = 2 then v == 1500 || v == 9000
  else if (linkOfIdx d.part idx).isSome && sub = 7 then decide (v ≤ 1)
  else if idx = 0x4020 && 2 ≤ sub then decide (v ≤ 2)
  else if idx = 0x9300 && sub ≤ 5 then d.flt.injLeft == 0 && (sub != 4 || v != 0)
  else match idx, sub with
    | 0x2803, 1 => within_ v 64 512
    | 0x2000, 5 => decide (v < d.obj 0x2000 6)
    | 0x2000, 6 => decide (v ≤ d.obj 0x2000 1 / 2) && decide (d.obj 0x2000 5 < v)
    | 0x2001, 1 => within_ v 5 10000
    | 0x2300, 4 => decide (v < d.obj 0x2300 5)
    | 0x2300, 5 => decide (v ≤ d.obj 0x2300 1 / 2) && decide (d.obj 0x2300 4 < v)
    | 0x2102, 6 => within_ v 8 1024
    | 0x3002, 1 => v != 0
    | 0x3002, 2 => v != 0
    | 0x3002, 3 => v != 0 && decide (v ≤ d.obj 0x6300 3)
    | 0x3300, 1 => decide (v ≤ d.xs 4095 1023)
    | 0x4000, 7 => within_ v 10 600000
    | 0x4001, 1 => decide (v ≤ d.xs 65535 16383)
    | 0x4002, 1 => decide (v ≤ d.xs 4095 1023)
    | 0x5001, 1 => v != 0
    | 0x5010, 1 => v != 0 || !d.ringReady
    | 0x7000, 4 => within_ v 4096 (d.obj 0x7000 2 / 4)
    | 0x7000, 8 => decide (v ≤ 2)
    | 0x7010, 2 => within_ v 10 60000
    | 0x7100, 3 => decide (v ≤ 1)
    | 0x7100, 9 => decide ((sgn 40 v).natAbs ≤ 500000000)
    | 0x7100, 10 => within_ v 1 500000
    | 0x7200, 1 => decide (v ≤ 2)
    | 0x7200, 3 => decide (v ≤ 7)
    | 0x7200, 5 => decide (v ≤ 2)
    | 0x7200, 6 => decide (v ≤ 127)
    | 0x7200, 9 => decide (v ≤ 5)
    | 0x8001, 1 => d.routerNums.contains v
    | 0x8002, 1 => decide (v ≤ 4095)
    | 0x8110, 1 => decide (v ≤ 4095)
    | 0x9000, 2 => within_ v 10 100000
    | 0x9000, 3 => within_ v 100 10000000
    | 0x9210, 1 => v == 0 || within_ v 60 604800
    | 0xA000, 3 => v % 128 == 0
    | 0xA000, 4 => decide (d.xs 5 2 ≤ v)
    | 0xB010, 1 => within_ v 1177 1500
    | _, _ => true

/-- The objects whose written value is a command and stays nowhere. -/
def commandObj (idx sub : Nat) : Bool :=
  (idx == 0x4001 && sub == 5) || (idx == 0x1010 && sub == 1) || (decide (0xD000 ≤ idx) && sub == 3) || (idx == 0xB002 && sub == 1)
    || ((inPage idx 0x41 || inPage idx 0x42) && (sub == 1 || sub == 9)) || idx == 0x2318

/-- A role secret written (R375, R385). -/
def Dev.setSecret (d : Dev) (sub v actor role : Nat) : Dev :=
  (d.modWrd (fun w => { w with secrets := tset w.secrets (sub - 1) (leOctets 32 v), kSet := w.kSet || sub == 3 })).wardRecord 5 sub actor role

/-- A value that has passed its range, stored where its object stands. -/
def Dev.store_ (d : Dev) (idx sub v actor role : Nat) : Dev :=
  let n := d.fab.noc
  let one := n.bankOne
  let s := d.obj 0x4001 1
  let shadowOk := n.swap == .idle
  if commandObj idx sub then d
  else if idx = 0x3300 && 2 ≤ sub then { d with key := { d.key with sel := tput 0 d.key.sel (d.obj 0x3300 1 * 64 + (sub - 2)) v } }
  else match idx, sub with
    | 0x2000, _ => (d.setObj idx sub v).poolStates
    | 0x2001, 3 => (d.setObj idx sub v).relevel v
    | 0x2300, _ => (d.setObj idx sub v).poolStates
    | 0x4001, 2 => if (d.sess s).st = .disabled then d.modSes s (fun x => { x with cfg := v }) else d
    | 0x4001, 3 => if (d.sess s).st = .disabled then d.modSes s (fun x => { x with addr := v }) else d
    | 0x4002, 2 =>
      let p := d.obj 0x4002 1
      if d.ses.ses.any (fun (e : Nat × Ses) => cfgPartner e.2.cfg == p && e.2.st != .disabled) then d
      else { d with ses := { d.ses with partner := tput 0 d.ses.partner p v } }
    | 0x4020, _ => (d.setObj idx sub v).flow
    | 0x7000, 4 => (d.setObj idx sub v).jnlState
    | 0x7000, 8 => if v = d.obj idx sub then d else { d.setObj idx sub v with jnl := { d.jnl with posted := 0, marks := [] } }
    | 0x7000, 9 => if v = d.obj idx sub then d else (d.unpost (d.obj idx sub)).setObj idx sub v
    | 0x7100, 0x0B => (d.setObj idx sub v).ppsHold
    | 0x8001, 3 => if shadowOk then d.modRouter (d.obj 0x8001 1) (fun r => r.shadow one (d.obj 0x8001 2) v) else d
    | 0x8002, 2 => d.modNoc (fun n => { n with place := tput 0 n.place (d.obj 0x8002 1) v })
    | 0x8110, 2 =>
      let i := d.obj 0x8110 1
      if !shadowOk then d
      else if one then d.modLnk (fun x => { x with dr0 := tput 0xFF x.dr0 i v }) else d.modLnk (fun x => { x with dr1 := tput 0xFF x.dr1 i v })
    | 0xA000, 1 => d.dumpPeriod v
    | 0xB000, 1 => d.setObj idx sub (d.obj idx sub - (d.obj idx sub &&& v))
    | 0xB040, _ => if v = 0 then { d with pwr := { d.pwr with repair := lset d.pwr.repair (sub - 1) 0 } } else d
    | 0xC300, _ => d.setSecret sub v actor role
    | _, _ =>
      let d := d.setObj idx sub v
      if (inPage idx 0x41 || inPage idx 0x42) && (sub = 6 || sub = 7) then d.flow else d

/-- OBJECT_WRITE once rights and length have been checked. -/
def Dev.plainWrite (d : Dev) (idx sub v actor role : Nat) : Dev :=
  match objRow d.part idx sub with
  | none => d
  | some o =>
    if o.kind = 7 && 1 < v then d
    else
      let v := keptBits idx sub o.width v
      if d.writeRange idx sub v then d.store_ idx sub v actor role else d

end Sys2Proof.Machine
end

