-- ==== Sys2Proof/Machine/Store.lean ====
section
/-! DEFINITION. The object store (R378): what it holds, storing, restoring, erasing. -/

namespace Sys2Proof.Machine

/-! ### The stored set -/

/-- Enables, by name (log 37). -/
def enableObj (idx sub : Nat) : Bool :=
  (idx == 0x3000 && sub == 1) || (inPage idx 0x31 && sub == 5) || (idx == 0x4020 && sub == 1)
    || ((inPage idx 0x41 || inPage idx 0x42) && sub == 1) || (idx == 0x5010 && sub == 1) || (idx == 0x7100 && sub == 8)
    || (inPage idx 0x81 && sub == 1 && decide (0x8101 ≤ idx) && (idx - 0x8101) % 16 == 0) || (idx == 0xB011 && sub == 1)

/-- Commands that can be read too, statuses that a write clears, and objects without a default of the table. -/
def unstoredObj (idx sub : Nat) : Bool :=
  (idx == 0x5002 && (sub == 1 || sub == 4)) || (idx == 0x5003 && 3 ≤ sub) || (idx == 0x5005 && sub == 3) || (idx == 0xB002 && sub == 1)
    || idx == 0x2318 || ((inPage idx 0x41 || inPage idx 0x42) && sub == 9) || (idx == 0xB000 && sub == 1) || idx == 0xB040

/-- Selectors, and the objects that they show. -/
def selectorObj (idx sub : Nat) : Bool :=
  (idx == 0x4001 && sub ≤ 3) || idx == 0x4002 || idx == 0x3300 || (idx == 0x5001 && sub == 1) || (idx == 0x7010 && sub == 4)
    || (idx == 0xC500 && sub == 2) || idx == 0x1F00 || idx == 0x8001 || idx == 0x8002 || idx == 0x8110 || (idx == 0x6301 && sub == 2)

/-- An object of the stored set that stands under its own key: readable, and role P or K may write it. -/
def storable (p : Part) (key : Nat) : Bool :=
  let idx := key / 256
  let sub := key % 256
  match objRow p idx sub with
  | some o => (o.mayWrite .P || o.mayWrite .K) && (o.mayRead .P || o.mayRead .K) && idx < 0xD000
      && !(inPage idx 0xA1 && sub ≤ 17) && !enableObj idx sub && !unstoredObj idx sub && !selectorObj idx sub
  | none => false

/-- The slots that are Active: format tables, composer templates, graph images. -/
def Dev.activeSlots (d : Dev) : List (Nat × Nat) :=
  [1, 2, 0].flatMap (fun k => (d.wrd.imgs.filter (fun (e : Nat × Img) => imgKindOf e.1 == k && e.2.st == .active)).map (fun e => (k, imgSlotOf e.1)))

/-- The stored set as it stands. -/
def Dev.storedSet (d : Dev) : Store :=
  let one := d.fab.noc.bankOne
  { objs := d.objs.filter (fun e => storable d.part e.1),
    ctrs := d.perf.ctrs.map (fun (e : Nat × Ctr) => (e.1, (e.2.cfg, e.2.count))),
    sess := d.ses.ses.map (fun (e : Nat × Ses) => (e.1, (e.2.cfg, e.2.addr))),
    parts := d.ses.partner, sels := d.key.sel,
    rts := d.fab.noc.routers.flatMap (fun (e : Nat × Router) =>
      (if one then e.2.bank0 else e.2.bank1).map (fun x => (e.1 * 256 + x.1, x.2))),
    drs := if one then d.lnk.dr0 else d.lnk.dr1,
    active := d.activeSlots }

/-! ### Store -/

/-- An activation is between its steps 1 and 3. -/
def Dev.activating (d : Dev) : Bool := d.wrd.imgs.any (fun (e : Nat × Img) => e.2.busy == .install)

/-- The copy made in the inactive place, and current (R362, R378). -/
def Dev.storeNow (d : Dev) : Dev :=
  (d.modWrd (fun w => { w with stores := lset w.stores (1 - w.storeCur) (some d.storedSet), storeCur := 1 - w.storeCur, storeSt := 2, storeBusy := 0 })).wardRecord 6 1 d.wrd.storeBy.1 d.wrd.storeBy.2

/-- STORE: during an activation it begins when that ends (R384). -/
def Dev.storeAsk (d : Dev) (actor role : Nat) : Dev :=
  let d := d.modWrd (fun w => { w with storeBy := (actor, role) })
  if d.activating then d.modWrd (fun w => { w with storeSt := 1, storeBusy := 1 }) else d.storeNow

/-- A store that waited for an activation. -/
def Dev.storeDue (d : Dev) : Dev := if d.wrd.storeBusy = 1 && !d.activating then d.storeNow else d

/-! ### Restore -/

/-- A value written as the row of its object has it. `IMAGE_KEY`, which W may not write, is in the stored set and comes
back too (log 126). -/
def Dev.restoreWrite (d : Dev) (key v : Nat) : Dev :=
  let idx := key / 256
  let sub := key % 256
  match writeRow d.part 0 idx sub v with
  | .watermark => d.watermark idx sub v
  | .ethSplit => d.ethSplit (idx % 256) v
  | .deviceId => d.deviceIdWrite v
  | .tbSource => d.tbSource v
  | _ => d.plainWrite idx sub v 0xFF 0

/-- What an object of the stored set has where the store lists nothing: its default. -/
def Dev.storeDefault (d : Dev) (key : Nat) : Nat :=
  if inPage (key / 256) 0x82 && key % 256 = 3 then ({ d with objs := [] } : Dev).ethMac (key / 256 % 256)
  else objDefault d.part (key / 256) (key % 256)

/-- Keys of two tables, in order. -/
def bothKeys {α β : Type} (a : Tab α) (b : Tab β) : List Nat :=
  ((a.map (·.1)).foldl (fun t k => tset t k ()) ((b.map (·.1)).foldl (fun t k => tset t k ()) ([] : Tab Unit))).map (·.1)

/-- The values of the stored set, written in ascending order of index, as the ward. -/
def Dev.restoreValues (d : Dev) (s : Store) : Dev :=
  let own := d.objs.filter (fun e => storable d.part e.1)
  let d := (bothKeys own s.objs).foldl (fun d k => d.restoreWrite k ((tget? s.objs k).getD (d.storeDefault k))) d
  let d := { d with key := { d.key with sel := s.sels } }
  let d := (bothKeys d.ses.partner s.parts).foldl (fun d p =>
    if d.ses.ses.any (fun (e : Nat × Ses) => cfgPartner e.2.cfg == p && e.2.st != .disabled) then d
    else { d with ses := { d.ses with partner := tput 0 d.ses.partner p (tget 0 s.parts p) } }) d
  let d := (bothKeys d.ses.ses s.sess).foldl (fun d i =>
    let v := tget (0, 0) s.sess i
    if (d.sess i).st = .disabled then d.modSes i (fun x => { x with cfg := v.1, addr := v.2 }) else d) d
  let d := (bothKeys d.perf.ctrs s.ctrs).foldl (fun d k =>
    let v := tget (ctrInit.cfg, 0) s.ctrs k
    (d.ctrWrite (k / 8) (k % 8) v.2).ctrConfig (k / 8) (k % 8) v.1) d
  if d.fab.noc.swap != .idle then d
  else
    let one := d.fab.noc.bankOne
    let d := s.rts.foldl (fun d (e : Nat × Nat) => d.modRouter (e.1 / 256) (fun r => r.shadow one (e.1 % 256) e.2)) d
    if one then d.modLnk (fun x => { x with dr0 := s.drs }) else d.modLnk (fun x => { x with dr1 := s.drs })

/-- A listed slot activated; one that is not Loaded is not, and is logged (R423). -/
def Dev.restoreSlot (d : Dev) (actor role : Nat) (x : Nat × Nat) : Dev :=
  let idx := 0xD000 + 256 * x.1 + x.2
  if (d.img idx).st = .active then d
  else if (d.img idx).st = .loaded then (d.imgStart idx actor role).imgInstall idx
  else d.wardLog logActivation (leOctets 2 idx)

/-- The stored set restored. -/
def Dev.restoreSet (d : Dev) (s : Store) (actor role : Nat) : Dev :=
  (s.active.foldl (fun d x => d.restoreSlot actor role x) (d.restoreValues s)).wardRecord 6 2 actor role

/-- RESTORE. -/
def Dev.restoreAsk (d : Dev) (actor role : Nat) : Dev :=
  if d.flag 0x3000 1 then d.modWrd (fun w => { w with storeSt := 3 })
  else match d.wrd.store with
    | none => d.modWrd (fun w => { w with storeSt := 4 })
    | some s => (d.restoreSet s actor role).modWrd (fun w => { w with storeSt := 2 })

/-- STORE_ERASE. -/
def Dev.storeErase (d : Dev) : Dev := d.modWrd (fun w => { w with stores := [none, none], storeSt := 2 })

/-! ### Meanings -/

/-- STORE (R378, R384). -/
def execStore (r : DReq) (s : State) : Res :=
  s.act (fun d => d.command r .store (fun ro _ d => d.storeAsk r.sess (actorRole ro)))
/-- RESTORE (R378). -/
def execRestore (r : DReq) (s : State) : Res :=
  s.act (fun d => d.command r .restore (fun ro _ d => d.restoreAsk r.sess (actorRole ro)))
/-- STORE_ERASE (R378). -/
def execStoreErase (r : DReq) (s : State) : Res := s.act (fun d => d.command r .storeErase (fun _ _ d => d.storeErase))
/-- IMG_INSTALL_DONE (R381): a store that waited for the activation begins. -/
def execImgInstallDone (idx : Nat) (s : State) : Res := s.act (fun d => (d.imgInstall idx).storeDue)
/-- IMG_ERASE (R380). -/
def execImgErase (r : DReq) (s : State) : Res :=
  s.act (fun d => d.command r .imgErase (fun ro _ d => (d.imgClear r.idx r.sess (actorRole ro)).storeDue))

end Sys2Proof.Machine
end

