-- ==== Sys2Proof/Machine/Dictionary.lean ====
section
/-! DEFINITION. Dictionary requests and sessions (R7, R8, R13, R374–R376): reading an object, writing one that has no
behaviour of its own, segmented transfers, opening, proving and closing a session, lockouts. -/

namespace Sys2Proof.Machine

/-! ### Reading and plain writing -/

/-- The largest object that `OP` 1 and 2 serve. -/
def maxDirect : Nat := 224

/-- A read with `OP` 1: zeros without the right, nothing where no object is defined. -/
def Dev.readAcc (d : Dev) (r : DReq) (ro : Role) : Acc :=
  match objRow d.part r.idx r.sub with
  | none => ⟨0, [], d⟩
  | some o =>
    if !o.mayRead ro then ⟨0, List.replicate (if o.octets ≤ maxDirect then o.octets else 0) 0, d.roleViolation ro⟩
    else if maxDirect < o.octets then ⟨3, [], d⟩
    else ⟨0, d.objOctets r.idx r.sub o.octets, d⟩

/-- DICT_READ: `OP` 1 of an object, but for a programmable counter's value, which CNT_READ reads; with `INDEX` 0 the session
closes. -/
def Dev.dictRead (d : Dev) (r : DReq) : Dev :=
  if r.op ≠ 1 || isCtrRead r then d
  else if r.idx = 0 then d.request r (fun _ d => ⟨0, [], { d with wrd := d.wrd.closeSession r.sess }⟩)
  else d.request r (fun ro d => d.readAcc r ro)

/-- OBJECT_WRITE. -/
def Dev.objectWrite (d : Dev) (r : DReq) : Dev :=
  d.command r .plain (fun ro v d => d.plainWrite r.idx r.sub v r.sess (actorRole ro))

/-! ### Segmented transfers -/

/-- The transfer that a session has open. -/
def Dev.xfer (d : Dev) (s : Nat) : Option Xfer := (tget? d.wrd.sessions s).bind (·.xfer)

def Dev.setXfer (d : Dev) (s : Nat) (x : Option Xfer) : Dev :=
  d.modWrd (fun w => { w with sessions := w.sessions.map (fun (e : Nat × WSes) => if e.1 = s then (e.1, { e.2 with xfer := x }) else e) })

/-- The objects that images are written to (R379). -/
def imgData (idx sub : Nat) : Bool := (inPage idx 0xD0 || inPage idx 0xD1 || inPage idx 0xD2) && sub == 1

/-- An object is being transferred by some session. -/
def Dev.inTransfer (d : Dev) (idx sub : Nat) : Bool :=
  d.wrd.sessions.any (fun (e : Nat × WSes) => match e.2.xfer with | some x => x.idx == idx && x.sub == sub | none => false)

/-- A begin for writing: the slot becomes Receiving, its contents discarded (R365, R380). While a firmware slot is Trial the
write is ignored. -/
def Dev.beginWrite (d : Dev) (idx sub : Nat) : Nat × Bool × Dev :=
  if imgData idx sub then
    let x := d.img idx
    if x.st = .active || x.st = .draining then (2, false, d)
    else if x.st = .receiving then (1, false, d)
    else (0, true, (d.setImg idx { x with st := .receiving, busy := .none, octets := [] }))
  else if idx = 0xC200 then
    let x := d.fwSlot d.fwOther
    if x.st = .trial then (0, false, d)
    else if x.verify then (1, false, d)
    else (0, true, d.setFw d.fwOther ⟨.receiving, [], false⟩)
  else (0, true, d)

/-- TRANSFER_BEGIN. -/
def Dev.beginAcc (d : Dev) (r : DReq) (ro : Role) : Acc :=
  match objRow d.part r.idx r.sub with
  | none => ⟨0, [], d⟩
  | some o =>
    if !o.mayWrite ro && !o.mayRead ro then ⟨0, [], d.roleViolation ro⟩
    else if o.octets ≤ maxDirect || (d.xfer r.sess).isSome || d.inTransfer r.idx r.sub then ⟨2, [], d⟩
    else if o.octets < r.off then ⟨3, [], d⟩
    else
      let (st, on, d) := if o.mayWrite ro then d.beginWrite r.idx r.sub else (0, true, d)
      ⟨st, [], if on then d.setXfer r.sess (some ⟨r.idx, r.sub, r.off, [], o.mayRead ro⟩) else d⟩

/-- The open transfer of a request's session, where it is of the request's object. -/
def Dev.xferOf (d : Dev) (r : DReq) : Option Xfer := (d.xfer r.sess).filter (fun x => x.idx == r.idx && x.sub == r.sub)

/-- What a segment, or an end, needs before it is looked at: the object, the right, the transfer. -/
def Dev.inXfer (d : Dev) (r : DReq) (ro : Role) (may : ORow → Role → Bool) (f : ORow → Xfer → Acc) : Acc :=
  match objRow d.part r.idx r.sub with
  | none => ⟨0, [], d⟩
  | some o =>
    if !may o ro then ⟨0, [], d.roleViolation ro⟩
    else match d.xferOf r with
      | none => ⟨2, [], d⟩
      | some x => f o x

/-- SEGMENT_WRITE: octets past the total length change nothing. -/
def Dev.segWrite (d : Dev) (r : DReq) (ro : Role) : Acc :=
  d.inXfer r ro ORow.mayWrite (fun _ x =>
    if maxDirect < r.data.length || x.total < r.off + r.data.length then ⟨3, [], d⟩
    else ⟨0, [], d.setXfer r.sess (some { x with segs := x.segs ++ [(r.off, r.data)] })⟩)

/-- SEGMENT_READ: up to 224 octets of the object from the offset, within the transfer's length. -/
def Dev.segRead (d : Dev) (r : DReq) (ro : Role) : Acc :=
  d.inXfer r ro ORow.mayRead (fun o x => ⟨0, (((d.objOctets r.idx r.sub o.octets).take x.total).drop r.off).take maxDirect, d⟩)

/-- A segment laid over what earlier ones wrote. -/
def laySegment (l : List (Option Byte)) (s : Nat × List Byte) : List (Option Byte) :=
  l.take s.1 ++ s.2.map some ++ l.drop (s.1 + s.2.length)

/-- The octets that a transfer's segments wrote, if they wrote every one. -/
def Xfer.octets (x : Xfer) : Option (List Byte) :=
  (x.segs.foldl laySegment (List.replicate x.total none)).mapM id

/-- The octets of a whole transfer where they belong. -/
def Dev.takeXfer (d : Dev) (idx sub : Nat) (o : List Byte) : Dev :=
  if imgData idx sub then (d.setImg idx { d.img idx with octets := o, busy := .verify }).addJob (.image idx)
  else if idx = 0xC200 then (d.setFw d.fwOther { d.fwSlot d.fwOther with octets := o, verify := true }).addJob .firmware
  else if idx = 0x5002 then { d with cry := { d.cry with impBlock := o } }
  else if idx = 0x5003 then { d with cry := { d.cry with expBlock := o } }
  else d

/-- TRANSFER_END: of a transfer that only read; of one whose segments wrote every octet; or the transfer is abandoned. -/
def Dev.endAcc (d : Dev) (r : DReq) (ro : Role) : Acc :=
  d.inXfer r ro (fun o ro => o.mayWrite ro || o.mayRead ro) (fun _ x =>
    let e := d.setXfer r.sess none
    if x.read_ && x.segs.isEmpty then ⟨0, [], e⟩
    else match x.octets with
      | some o => ⟨0, [], e.takeXfer r.idx r.sub o⟩
      | none => ⟨2, [], e.modWrd (fun w => w.endXfer (some x))⟩)

/-- A request of one `OP`. -/
def Dev.onOp (d : Dev) (r : DReq) (op : Nat) (f : Dev → DReq → Role → Acc) : Dev :=
  if r.op = op then d.request r (fun ro d => f d r ro) else d

/-! ### Sessions (R375, R376) -/

/-- Ring sessions at a node. -/
def ringSessions : Nat := 16

/-- The role of an open frame: 1 O, 2 P, 3 K. -/
def roleOf (v : Nat) : Option Role := match v with | 1 => some .O | 2 => some .P | 3 => some .K | _ => none

/-- A station is locked out. -/
def Dev.lockedOut (d : Dev) (st : List Byte) : Bool :=
  d.wrd.lockouts.any (fun x => x.station == st && (match x.until_ with | some t => decide (d.up < t) | none => false))

/-- The number of a new session: a free one below 16, or the queue pair's. -/
def Dev.sessionNum (d : Dev) (chan : Nat) : Option Nat :=
  if pcieSes chan then some chan else (List.range ringSessions).find? (fun i => (tget? d.wrd.sessions i).isNone)

/-- The payload's session number. -/
def sesOctet (s : Nat) : Byte := BitVec.ofNat 8 (if pcieSes s then 0 else s)

/-- SESSION_OPEN from a station over the ring, or over queue pair `chan` − 0x40: a challenge with a fresh nonce. In recovery
role K alone is accepted (R364). -/
def Dev.sessionOpen (d : Dev) (chan : Nat) (station : List Byte) (role : Nat) (nonce : List Byte) : Dev :=
  let st := if pcieSes chan then leOctets 8 (chan - 0x40) else padTo 8 station
  if !d.wardUp || d.pwr.phase != .running || d.lockedOut st then d
  else match roleOf role, d.sessionNum chan with
    | some ro, some s =>
      if d.wrd.state = 2 && ro ≠ .K then d
      else
        let (n, d) := d.draw 16
        let d := { d with wrd := d.wrd.closeSession s }
        let w : WSes := ⟨.challenged, ro, st, padTo 16 nonce, n, [], d.up, none, []⟩
        (d.modWrd (fun x => { x with sessions := tset x.sessions s w })).frameTo s 4 0 st (sesOctet s :: n)
    | _, _ => d

/-- A role's secret; until it is written, the model's transport value. -/
def Dev.secret (d : Dev) (ro : Role) : List Byte := tget (List.replicate 32 0) d.wrd.secrets (roleNum ro)

/-- The proof that a session expects. -/
def Dev.proofOf (d : Dev) (w : WSes) : List Byte :=
  hmac256 (d.secret w.role) (w.sNonce ++ w.nNonce ++ d.nodeId ++ w.station ++ [BitVec.ofNat 8 (roleNum w.role + 1)])

/-- The session key. -/
def Dev.sessionKey (d : Dev) (w : WSes) : List Byte := hmac256 (d.secret w.role) (w.sNonce ++ w.nNonce ++ [0x46, 0x59, 0x53])

/-- Wrong proofs within 1 s that lock a station out, and for how long. -/
def proofLimit : Nat := 8
def proofNs : Nat := 1000000000
def lockoutNs : Nat := 10000000000

/-- A wrong proof of a station. -/
def Dev.wrongProof (d : Dev) (st : List Byte) (sess : Nat) (ro : Role) : Dev :=
  let d := d.bump 0x1200 2
  let old := (d.wrd.lockouts.find? (fun x => x.station == st)).getD ⟨st, [], none⟩
  let fails := d.up :: old.fails.filter (fun t => decide (d.up < t + proofNs))
  let full := decide (proofLimit ≤ fails.length)
  let new : Lockout := ⟨st, if full then [] else fails, if full then some (d.up + lockoutNs) else old.until_⟩
  let d := d.modWrd (fun w => { w with lockouts := new :: w.lockouts.filter (fun x => x.station != st) })
  if full then ((d.bump 0x1200 4).wardLog logLockout st).wardRecord 8 (leNat st) sess (actorRole ro) else d

/-- SESSION_PROOF. -/
def Dev.sessionProof (d : Dev) (s : Nat) (proof : List Byte) : Dev :=
  if !d.wardUp then d
  else match tget? d.wrd.sessions s with
    | none => d
    | some w =>
      if w.stage ≠ .challenged then d
      else if proof = d.proofOf w then
        let d := d.modWrd (fun x => { x with sessions := tset x.sessions s { w with stage := .opened, key := d.sessionKey w, last := d.up } })
        let d := d.frameTo s 6 0 w.station [sesOctet s]
        if w.role = .K then d.wardRecord 7 (leNat w.station) s (actorRole .K) else d
      else (d.modWrd (fun x => { x with sessions := tset x.sessions s { w with stage := .failed } })).wrongProof w.station s w.role

/-- How long a session stays without a request. -/
def idleNs : Nat := 60000000000

/-- SESSION_IDLE_TIMEOUT. -/
def Dev.sessionIdle (d : Dev) (s : Nat) : Dev :=
  match tget? d.wrd.sessions s with
  | some w => if w.last + idleNs ≤ d.up then { d with wrd := d.wrd.closeSession s } else d
  | none => d

/-- LOCKOUT_EXPIRY of a station. -/
def Dev.lockoutEnd (d : Dev) (st : List Byte) : Dev :=
  d.modWrd (fun w => { w with lockouts := w.lockouts.filter (fun x =>
    !(x.station == st && (match x.until_ with | some t => decide (t ≤ d.up) | none => false))) })

/-! ### Meanings -/

/-- DICT_READ (R374). -/
def execDictRead (r : DReq) (s : State) : Res := s.act (fun d => d.dictRead r)
/-- OBJECT_WRITE (R374). -/
def execObjectWrite (r : DReq) (s : State) : Res := s.act (fun d => d.objectWrite r)
/-- TRANSFER_BEGIN (R374): an activation that it cuts off no longer holds up a store. -/
def execTransferBegin (r : DReq) (s : State) : Res := s.act (fun d => (d.onOp r 3 Dev.beginAcc).storeDue)
/-- SEGMENT_WRITE (R374). -/
def execSegmentWrite (r : DReq) (s : State) : Res := s.act (fun d => d.onOp r 4 Dev.segWrite)
/-- SEGMENT_READ (R374). -/
def execSegmentRead (r : DReq) (s : State) : Res := s.act (fun d => d.onOp r 5 Dev.segRead)
/-- TRANSFER_END (R374). -/
def execTransferEnd (r : DReq) (s : State) : Res := s.act (fun d => d.onOp r 6 Dev.endAcc)
/-- SESSION_OPEN (R375). -/
def execSessionOpen (chan : Nat) (station : List Byte) (role : Nat) (nonce : List Byte) (s : State) : Res :=
  s.act (fun d => d.sessionOpen chan station role nonce)
/-- SESSION_PROOF (R375). -/
def execSessionProof (sess : Nat) (proof : List Byte) (s : State) : Res := s.act (fun d => d.sessionProof sess proof)
/-- SESSION_IDLE_TIMEOUT (R375). -/
def execSessionIdleTimeout (sess : Nat) (s : State) : Res := s.act (fun d => d.sessionIdle sess)
/-- LOCKOUT_EXPIRY (R376). -/
def execLockoutExpiry (station : List Byte) (s : State) : Res := s.act (fun d => d.lockoutEnd station)

end Sys2Proof.Machine
end

