-- ==== Sys2Proof/Machine/Views.lean ====
section
/-! DEFINITION. The address map of the Glolet core (R358): HBM as the octets that its units keep there (R40, R48, R57, R63,
R64, R218, R227, R229), the seal store by its layout (R362), SRAM and the unit registers. -/

namespace Sys2Proof.Machine

/-! ### HBM -/

/-- An octet of a word that lies little-endian in memory. -/
def octetOf (v i : Nat) : Byte := BitVec.ofNat 8 (v / 256 ^ i)

/-- A number with octet `i` replaced. -/
def putOctet (v i : Nat) (b : Byte) : Nat := v - v / 256 ^ i % 256 * 256 ^ i + b.toNat * 256 ^ i

/-- The die and context whose chain holds pool entry `idx`, with the entry. -/
def Dev.poolEnt (d : Dev) (idx : Nat) : Option (Nat × OvfEnt) :=
  d.fab.heads.findSome? (fun e => (e.2.find? (fun x => x.idx == idx)).map (fun x => (e.1, x)))

/-- A word of a head table (R64): `LEN` and `HEAD`. -/
def headWord (l : List OvfEnt) : Nat := match l with | x :: _ => l.length * 2 ^ 25 + x.idx % 2 ^ 25 | [] => 0

/-- An octet of the presence map: the presence of eight granules (R227). -/
def Dev.presenceOct (d : Dev) (o : Nat) : Nat := lsum ((List.range 8).map (fun i => b2n (d.isPresent (o * 8 + i)) * 2 ^ i))

/-- Capacity of the journal ring in records (R301). -/
def Dev.jnlCap (d : Dev) : Nat := max 1 (d.obj 0x7000 2)

/-- The octet at offset `o` of HBM as the unit that keeps it has it; none where no unit's contents are laid out there. -/
def Dev.hbmOctet (d : Dev) (o : Nat) : Option Byte :=
  match regionOf 0 d.hbmSizes o with
  | none => none
  | some (r, x) =>
    if r = rgPool then (d.poolEnt (x / 64)).map (fun e => octetOf ((e.2.ws.getD (x / 16 % 4) 0).toNat) (x % 16))
    else if r = rgHead then
      some (octetOf (headWord (d.chain (x / (64 * mib)) (x % (64 * mib) / 4))) (x % 4))
    else if r = rgGen then some (BitVec.ofNat 8 (tget 0 d.fab.gens x))
    else if r = rgFrame then (tget? d.fab.frames (x / 256)).map (fun f => f.octets.getD (x % 256) 0)
    else if r = rgCode then (d.img (0xD000 + x / mib)).octets[x % mib]?
    else if r = rgJnl then (tget? d.jnl.ring (x / 128)).bind (fun l => l[x % 128]?)
    else if r = rgPres then some (BitVec.ofNat 8 (d.presenceOct x))
    else if r = rgBits then some (memByte d.mem.bitOct x)
    else if r = rgStruct then some (memByte d.mem.cells x)
    else none

/-- An octet of HBM: a unit's, or the core's own. -/
def Dev.hbmByte (d : Dev) (o : Nat) : Byte := match d.hbmOctet o with | some b => b | none => memByte d.wrd.unitReg (hbmBase + o)

/-- A store of the core to HBM. A head word follows only in its `LEN`, which cuts the chain; `NEXT` of a pool entry, and
reserved bits, do not change the chain (log 57). -/
def Dev.hbmPut (d : Dev) (o : Nat) (v : Byte) : Dev :=
  let raw : Dev := { d with wrd := { d.wrd with unitReg := memPut d.wrd.unitReg (hbmBase + o) v } }
  match d.hbmOctet o, regionOf 0 d.hbmSizes o with
  | some _, some (r, x) =>
    if r = rgPool then
      match d.poolEnt (x / 64) with
      | some (k, e) =>
        let ws := lset e.ws (x / 16 % 4) (BitVec.ofNat 128 (putOctet ((e.ws.getD (x / 16 % 4) 0).toNat) (x % 16) v))
        { d with fab := { d.fab with
            heads := tset d.fab.heads k ((tget [] d.fab.heads k).map (fun y => if y.idx = e.idx then { y with ws := ws } else y)) } }
      | none => d
    else if r = rgHead then
      let k := x / (64 * mib) * 2 ^ 24 + x % (64 * mib) / 4
      if x % 4 = 3 then
        { d with fab := { d.fab with heads := tput [] d.fab.heads k ((tget [] d.fab.heads k).take (v.toNat / 2)) } }
      else d
    else if r = rgGen then { d with fab := { d.fab with gens := tput 0 d.fab.gens x (v.toNat % 128) } }
    else if r = rgFrame then
      match tget? d.fab.frames (x / 256) with
      | some f => { d with fab := { d.fab with frames := tset d.fab.frames (x / 256) (Frame.ofOctets (lset f.octets (x % 256) v)) } }
      | none => d
    else if r = rgCode then
      let i := d.img (0xD000 + x / mib)
      d.setImg (0xD000 + x / mib) { i with octets := lset i.octets (x % mib) v }
    else if r = rgJnl then
      { d with jnl := { d.jnl with ring := tmod [] d.jnl.ring (x / 128) (fun l => lset l (x % 128) v) } }
    else if r = rgPres then (List.range 8).foldl (fun d i => d.setPresent (x * 8 + i) (bit v.toNat i)) d
    else if r = rgBits then { d with mem := { d.mem with bitOct := memPut d.mem.bitOct x v } }
    else { d with mem := { d.mem with cells := memPut d.mem.cells x v } }
  | _, _ => raw

/-- The codeword of an offset of HBM: its space, and the octet's place in that space. -/
def Dev.cwOf (d : Dev) (o : Nat) : Nat × Nat :=
  match regionOf 0 d.hbmSizes o with
  | some (r, x) => if r = rgStruct then (spStruct, x) else if r = rgBits then (spBits, x) else (spHbm, o)
  | none => (spHbm, o)

/-! ### The seal store (R362) -/

/-- The seal store's size. -/
def Dev.sealSize (d : Dev) : Nat := d.xs 0x20000000 0x10000000

/-- Where the regions of the seal store begin, in the order of R362: slots A and B, boot record, sealed keys and numbers, role
secrets, checkpoints, ward log, the two copies of the object store, the reserve. -/
def sealAt : List Nat := [0, 0x800000, 0x1000000, 0x1010000, 0x1020000, 0x1030000, 0x5030000, 0x6030000, 0x7030000, 0x8030000]

/-- The octet at offset `o` of the seal store as its records have it; none where no record's layout is stated. -/
def Dev.sealOctet (d : Dev) (o : Nat) : Option Byte :=
  if o < 0x800000 then d.wrd.fwA.octets[o]?
  else if o < 0x1000000 then d.wrd.fwB.octets[o - 0x800000]?
  else if 0x1030000 ≤ o && o < 0x5030000 then
    (tget? d.jnl.ckpts ((o - 0x1030000) / 2048)).bind (fun l => l[(o - 0x1030000) % 2048]?)
  else if 0x5030000 ≤ o && o < 0x6030000 then
    -- entry `n`, from 1, lies at place `(n - 1) % 262144` of the ring
    let s := (o - 0x5030000) / 64
    let c := d.wrd.logCount
    let n := c - (c + wardLogSize - 1 - s) % wardLogSize
    if s < c then (d.logEntry n)[(o - 0x5030000) % 64]? else some 0
  else none

/-- An octet of the seal store: a record's, or the core's own. -/
def Dev.sealByte (d : Dev) (o : Nat) : Byte := match d.sealOctet o with | some b => b | none => memByte d.wrd.sealMem o

/-- A store of the core to the seal store; the ward log's entries stand (log 109). -/
def Dev.sealPut (d : Dev) (o : Nat) (v : Byte) : Dev :=
  match d.sealOctet o with
  | none => { d with wrd := { d.wrd with sealMem := memPut d.wrd.sealMem o v } }
  | some _ =>
    if o < 0x800000 then { d with wrd := { d.wrd with fwA := { d.wrd.fwA with octets := lset d.wrd.fwA.octets o v } } }
    else if o < 0x1000000 then
      { d with wrd := { d.wrd with fwB := { d.wrd.fwB with octets := lset d.wrd.fwB.octets (o - 0x800000) v } } }
    else if o < 0x5030000 then
      { d with jnl := { d.jnl with
          ckpts := tmod [] d.jnl.ckpts ((o - 0x1030000) / 2048) (fun l => lset l ((o - 0x1030000) % 2048) v) } }
    else d

/-! ### The map (R358) -/

/-- What an address of the core's map names. -/
inductive Place where
  | rom (a : Nat) | sram (a : Nat) | unit (a : Nat) | seal (o : Nat) | hbm (o : Nat) | none
  deriving DecidableEq, Repr

/-- The place of an address. -/
def Dev.place (d : Dev) (a : Nat) : Place :=
  if a < 0x20000 then .rom a
  else if 0x100000 ≤ a && a < 0x180000 then .sram a
  else if 0x1000000 ≤ a && a < 0x2000000 then .unit a
  else if 0x100000000 ≤ a && a < 0x100000000 + d.sealSize then .seal (a - 0x100000000)
  else if hbmBase ≤ a && a < hbmBase + d.hbmSize then .hbm (a - hbmBase)
  else .none

/-- One octet as the map shows it. -/
def Dev.coreByte (d : Dev) (a : Nat) : Byte :=
  match d.place a with
  | .rom a => Config.maskRom a
  | .sram a => memByte d.wrd.sram a
  | .unit a => memByte d.wrd.unitReg a
  | .seal o => d.sealByte o
  | .hbm o => d.hbmByte o
  | .none => 0

/-- One octet stored. -/
def Dev.corePut (d : Dev) (a : Nat) (v : Byte) : Dev :=
  match d.place a with
  | .rom _ | .none => d
  | .sram a => { d with wrd := { d.wrd with sram := memPut d.wrd.sram a v } }
  | .unit a => { d with wrd := { d.wrd with unitReg := memPut d.wrd.unitReg a v } }
  | .seal o => d.sealPut o v
  | .hbm o => (d.hbmPut o v).unpoison (d.cwOf o).1 (d.cwOf o).2

/-- Addresses of `n` octets from `a`. -/
def eaRange (a n : Nat) : List Nat := (List.range n).map (fun i => (a + i) % 2 ^ 40)

/-- The codewords of HBM that octets lie in. -/
def Dev.cwsOf (d : Dev) (l : List Nat) : List (Nat × Nat) :=
  (l.filterMap (fun a => match d.place a with | .hbm o => let c := d.cwOf o; some (c.1, c.2 / 32 * 32) | _ => none)).eraseDups

/-- Codewords read (R226): whether all are good, the bit addresses that the reads deliver inverted, with their spaces. -/
def Dev.readAll : Dev → List (Nat × Nat) → Bool × List (Nat × Nat) × Dev
  | d, [] => (true, [], d)
  | d, c :: r =>
    let (ok, f, d) := d.readCw c.1 c.2
    let (ok', fs, d) := Dev.readAll d r
    (ok && ok', f.toList.map (fun b => (c.1, b)) ++ fs, d)

/-- One octet as a read delivers it. -/
def Dev.seenByte (d : Dev) (fs : List (Nat × Nat)) (a : Nat) : Byte :=
  match d.place a with
  | .hbm o =>
    let c := d.cwOf o
    fs.foldl (fun (b : Byte) f => if f.1 = c.1 && f.2 / 8 = c.2 then b ^^^ BitVec.ofNat 8 (2 ^ (f.2 % 8)) else b) (d.hbmByte o)
  | _ => d.coreByte a

/-- `n` octets as the core loads them: codewords of HBM are corrected, counted or poisoned (R226); what a load from a poisoned
one delivers is free. -/
def Dev.coreLoad (d : Dev) (a n : Nat) : List Byte × Dev :=
  let as := eaRange a n
  match d.readAll (d.cwsOf as) with
  | (true, fs, d) => (as.map (d.seenByte fs), d)
  | (false, _, d) => d.draw n

/-- Octets as the core stores them. -/
def Dev.coreStore (d : Dev) (a : Nat) (l : List Byte) : Dev :=
  l.zipIdx.foldl (fun d (p : Byte × Nat) => d.corePut ((a + p.2) % 2 ^ 40) p.1) d

end Sys2Proof.Machine
end

