-- ==== Sys2Proof/Machine/Glolet.lean ====
section
/-! DEFINITION. The Glolet core (R173–R176, R358, R359): fetch, registers, control registers, traps, the
emulation of multiply and divide, branches, interrupts. -/

namespace Sys2Proof.Machine

/-! ### The core -/

/-- Change the core. -/
def Dev.modCore (d : Dev) (f : Glolet → Glolet) : Dev := { d with wrd := { d.wrd with core := f d.wrd.core } }

/-- Its registers as a list. -/
def Glolet.regs (c : Glolet) : List Nat := (List.range 32).map (fun i => tget 0 c.g i)

/-- A register written. -/
def Glolet.setReg (c : Glolet) (i v : Nat) : Glolet := { c with g := tput 0 c.g i (v % 2 ^ 40) }

/-- Registers written from a list. -/
def Glolet.setRegs (c : Glolet) (l : List Nat) : Glolet := l.zipIdx.foldl (fun c (p : Nat × Nat) => c.setReg p.2 p.1) c

/-- A trap or interrupt (R359): `PC` saved, the cause noted, interrupts masked, the jump. -/
def Glolet.trap (c : Glolet) (cause target : Nat) : Glolet :=
  { c with tpc := c.pc, cause := cause, masked := true, waiting := false, pc := target }

/-- Where the traps and interrupts go. -/
def trapEntry : Nat := 0x100040
def irqEntry : Nat := 0x100080

/-- The address can be executed (R358). -/
def coreExec (a : Nat) : Bool := decide (a < 0x20000) || (decide (0x100000 ≤ a) && decide (a < 0x180000))

/-- Octets from `PC` to the end of its memory. -/
def Glolet.space (c : Glolet) : Nat := (if c.pc < 0x20000 then 0x20000 else 0x180000) - c.pc

/-- The octets of an instruction from `PC` to the end of its memory, at most 15. -/
def Dev.coreFetch (d : Dev) : List Byte := (eaRange d.wrd.core.pc (min 15 d.wrd.core.space)).map d.coreByte

/-- The core executes instructions. -/
def Dev.coreRuns (d : Dev) : Bool := d.wrd.up && !d.wrd.core.halted && !d.wrd.core.waiting

/-- What an instruction runs with: the registers stand where a firing's slots stand. -/
def Dev.coreCtx (d : Dev) (n : Node) : FireCtx :=
  let fr := { zeroFrame 0 with slots := d.wrd.core.regs }
  let t := (d.draw 256).1
  ⟨0, 0, ⟨[], 0⟩, d.wrd.core.pc, n, 0, 0, 0, fr, 0, { graphInit with e2a := t, a2e := t }⟩

/-- A control register as `CSRR` reads it; `WATCHDOG` has no stated value. -/
def Dev.csr (d : Dev) (r : Nat) : Nat × Dev :=
  let c := d.wrd.core
  match r with
  | 0 => (c.st, d)
  | 1 => (c.cause, d)
  | 2 => (c.tpc, d)
  | 3 => (c.irqEn, d)
  | 4 => (c.irqPend, d)
  | 5 => d.drawNat (2 ^ 40)
  | 6 => (c.cycles, d)
  | _ => (0, d)

/-- A control register written. -/
def Dev.setCsr (d : Dev) (r v : Nat) : Dev :=
  match r with
  | 1 => d.modCore (fun c => { c with cause := v })
  | 2 => d.modCore (fun c => { c with tpc := v % 2 ^ 24 })
  | 3 => d.modCore (fun c => { c with irqEn := v % 32 })
  | 4 => d.modCore (fun c => { c with irqPend := c.irqPend - (c.irqPend &&& (v % 32)) })
  | 5 => { d with wrd := { d.wrd with dog := d.up } }
  | 6 => d.modCore (fun c => { c with cycles := v })
  | _ => d

/-- A branch target: the next instruction's address and a signed displacement, modulo 2^24. -/
def coreTarget (next : Nat) (o : Opd) : Nat := wrap 24 ((next : Int) + o.s)

/-- Class G (R175, R359). -/
def Dev.coreG (d : Dev) (x : FireCtx) (next : Nat) : Dev :=
  let ops := x.operands x.fr 0
  let a := ops.getD 0 noOpd
  let b := ops.getD 1 noOpd
  let go (d : Dev) (t : Nat) : Dev := d.modCore (fun c => { c with pc := t })
  match x.n.op with
  | .jmp => go d (coreTarget next a)
  | .bz => go d (if a.v = 0 then coreTarget next b else next)
  | .bnz => go d (if a.v = 0 then next else coreTarget next b)
  | .jal =>
    let d := match x.n.sw with | some m => d.modCore (fun c => c.setReg m next) | none => d
    go d (coreTarget next a)
  | .jr => go d (a.v % 2 ^ 24)
  | .ret => go d (x.fr.slot 1 % 2 ^ 24)
  | .trapret => d.modCore (fun c => { c with pc := c.tpc, masked := false })
  | .halt => d.modCore (fun c => { c with pc := next, halted := true })
  | .wfi => d.modCore (fun c => { c with pc := next, waiting := true })
  | .csrr =>
    let (v, d) := d.csr (a.v % 256)
    go (match x.n.sw with | some m => d.modCore (fun c => c.setReg m v) | none => d) next
  | .csrw =>
    let imm (s : Src) : Bool := s.sk == 1
    let r := match x.n.srcs.find? imm with | some s => s.imm % 256 | none => a.v % 256
    let v := match x.n.srcs with | s :: _ => if imm s then b.v else a.v | [] => 0
    go (d.setCsr r (v % 2 ^ 40)) next
  | _ => go d next

/-- Class M (R173, R174, R194, R195): a load or store of the core, its result and the block. -/
def Dev.coreM (d : Dev) (x : FireCtx) : Opd × Dev :=
  let ops := x.operands x.fr 0
  let ops := if baseCount x.n.op x.n.cls < ops.length then ops.drop 1 else ops
  let a := ops.getD 0 noOpd
  let wd := x.n.wide.isSome
  let w := memWidth x.n.op wd
  let ea := wrap 40 ((x.fr.slot (28 + x.n.bank.getD 0) * 65536 + x.n.moff : Nat) + (ops.getLastD noOpd).s)
  match x.n.op with
  | .st | .stb | .sth | .stw =>
    let v := (if wd then a.x 80 else a.v) % 2 ^ (8 * w)
    (⟨v, wd, kWord, 0⟩, d.coreStore ea (leOctets w v))
  | _ => let (l, d) := d.coreLoad ea w; (⟨loadValue x.n.op (leNat l), wd, kWord, 0⟩, d)

/-- A result to the register of the write octet, and `STATUS` (R173). -/
def Dev.coreResult (d : Dev) (x : FireCtx) (o : Opd) : Dev :=
  d.modCore (fun c => { c.setRegs (x.slotWrite { x.fr with slots := c.regs } o).slots with st := o.st })

/-- The operation is emulated by the mask ROM (R176). -/
def emulated (o : Op) : Bool := [Op.mul, .mulh, .mulhu, .div, .divu, .mac, .msub].contains o

/-- Cycles of an emulated repetition: at most these, and exactly these under SEAL. -/
def emuCycles (o : Op) : Nat := if o == .div || o == .divu then 220 else 96

/-- The cycles that an instruction takes. -/
def Dev.coreCycles (d : Dev) (x : FireCtx) : Nat × Dev :=
  if emulated x.n.op then
    let m := x.count * emuCycles x.n.op
    if x.n.isSeal then (m, d) else let (v, d) := d.drawNat m; (v + 1, d)
  else (if x.n.cls == .M then 2 else x.count, d)

/-- The core executes the instruction at `PC`. -/
def Dev.coreRun (d : Dev) (n : Node) : Dev :=
  let x := d.coreCtx n
  let next := (d.wrd.core.pc + n.len) % 2 ^ 24
  let (cy, d) := d.coreCycles x
  let d := d.modCore (fun c => { c with cycles := (c.cycles + cy) % 2 ^ 40 })
  let go (d : Dev) : Dev := d.modCore (fun c => { c with pc := next })
  match n.cls with
  | .G => d.coreG x next
  | .M => let (o, d) := d.coreM x; go (d.coreResult x o)
  | .D =>
    let a := (x.operands x.fr 0).getD 0 noOpd
    go (d.coreResult x (if n.op == .feat then wordOp (featWord d.part true (a.v % 256)) else a))
  | _ =>
    let d := if n.op == .eb2as || n.op == .as2eb then { d with free := d.free + 256 } else d
    let e := x.repeat x.count 0 x.fr none 0 0
    let d := d.modCore (fun c => c.setRegs e.fr.slots)
    let d := match e.out with | some o => d.modCore (fun c => { c with st := o.st }) | none => d
    if emulated n.op then d.modCore (fun c => { c with cause := 1, tpc := next, masked := false, pc := next }) else go d

/-- The core takes its next instruction on, where it is one that `want` names (`bad`: or traps in its place). One that runs
past the end of its memory is fetched outside it. -/
def Dev.coreStep (d : Dev) (want : Node → Bool) (bad : Bool) : Dev :=
  if !d.coreRuns then d
  else if !coreExec d.wrd.core.pc then if bad then d.modCore (fun c => c.trap 3 trapEntry) else d
  else match decodeGlolet d.coreFetch with
    | .ok n => if want n then d.coreRun n else d
    | .error e => if bad then d.modCore (fun c => c.trap (if e = 0x00F then 3 else 2) trapEntry) else d

/-- GLOLET_INTERRUPT (R359): the lowest enabled pending cause. -/
def Dev.coreIrq (d : Dev) : Dev :=
  let c := d.wrd.core
  if !d.wrd.up || c.halted || c.masked then d
  else match (List.range 5).find? (fun i => bit (c.irqEn &&& c.irqPend) i) with
    | some i => d.modCore (fun c => c.trap (0x10 + i) irqEntry)
    | none => d

/-- A row of the node encoding: the firing that a cell holds, or the core's next instruction (`bad`: or its trap). -/
def Dev.instr (d : Dev) (site : Site) (want : Node → Bool) (bad : Bool) : Dev :=
  match site with
  | .cell p c => d.fireCell p c want
  | .glolet => d.coreStep want bad

/-- A row of the opcode map. -/
def Dev.fire (d : Dev) (site : Site) (o : Op) : Dev := d.instr site (fun n => n.op == o) (o == .pass)

/-- GLOLET_INTERRUPT (R359). -/
def execGloletInterrupt (s : State) : Res := s.act Dev.coreIrq

end Sys2Proof.Machine
end

