-- ==== Sys2Proof/Machine/Nodes.lean ====
section
/-! DEFINITION. The rows of the node encoding (chapters 07 to 12): one meaning for each opcode of the map and for each
attachment function, over the one engine of `Dev.instr`. -/

namespace Sys2Proof.Machine

/-- The node calls function `f` of attachment `a`. -/
def attIs (a f : Nat) (n : Node) : Bool := n.op == .att && n.att == a && n.fn == f

/-- The node calls a function that attachment `a` does not define (R158). -/
def attUndefined (a : Nat) (n : Node) : Bool :=
  n.op == .att && n.att == a && !(if a = 2 then decide (1 ≤ n.fn) && decide (n.fn ≤ 3) else cryptoFn a n.fn)

/-- RESPOND (R263); it also takes the calls of functions that attachment 2 does not define (R158). -/
def execRespond (site : Site) (s : State) : Res :=
  s.act (fun d => d.instr site (fun n => attIs 2 1 n || attUndefined 2 n) false)
/-- FORWARD (R263). -/
def execForward (site : Site) (s : State) : Res := s.act (fun d => d.instr site (attIs 2 2) false)
/-- SESSION_OF (R263). -/
def execSessionOf (site : Site) (s : State) : Res := s.act (fun d => d.instr site (attIs 2 3) false)
/-- PASS (R181); at the core it also takes an encoding that is illegal (R171, R359). -/
def execPass (site : Site) (s : State) : Res := s.act (fun d => d.fire site .pass)
/-- STEER (R181). -/
def execSteer (site : Site) (s : State) : Res := s.act (fun d => d.fire site .steer)
/-- MERGE (R181). -/
def execMerge (site : Site) (s : State) : Res := s.act (fun d => d.fire site .merge)
/-- SYNC (R181). -/
def execSync (site : Site) (s : State) : Res := s.act (fun d => d.fire site .sync)
/-- CONST (R181). -/
def execConst (site : Site) (s : State) : Res := s.act (fun d => d.fire site .const)
/-- SEL (R181). -/
def execSel (site : Site) (s : State) : Res := s.act (fun d => d.fire site .sel)
/-- SWAP (R181). -/
def execSwap (site : Site) (s : State) : Res := s.act (fun d => d.fire site .swap)
/-- GATE (R181). -/
def execGate (site : Site) (s : State) : Res := s.act (fun d => d.fire site .gate)
/-- FEAT (R172). -/
def execFeat (site : Site) (s : State) : Res := s.act (fun d => d.fire site .feat)
/-- TIME (R181). -/
def execTime (site : Site) (s : State) : Res := s.act (fun d => d.fire site .time)
/-- CTXID (R181). -/
def execCtxid (site : Site) (s : State) : Res := s.act (fun d => d.fire site .ctxid)
/-- RAISE (R181). -/
def execRaise (site : Site) (s : State) : Res := s.act (fun d => d.fire site .raise)
/-- ADD (R182). -/
def execAdd (site : Site) (s : State) : Res := s.act (fun d => d.fire site .add)
/-- ADC (R182). -/
def execAdc (site : Site) (s : State) : Res := s.act (fun d => d.fire site .adc)
/-- SUB (R182). -/
def execSub (site : Site) (s : State) : Res := s.act (fun d => d.fire site .sub)
/-- SBB (R182). -/
def execSbb (site : Site) (s : State) : Res := s.act (fun d => d.fire site .sbb)
/-- NEG (R182). -/
def execNeg (site : Site) (s : State) : Res := s.act (fun d => d.fire site .neg)
/-- ABS (R182). -/
def execAbs (site : Site) (s : State) : Res := s.act (fun d => d.fire site .abs)
/-- INC (R182). -/
def execInc (site : Site) (s : State) : Res := s.act (fun d => d.fire site .inc)
/-- DEC (R182). -/
def execDec (site : Site) (s : State) : Res := s.act (fun d => d.fire site .dec)
/-- MUL (R182). -/
def execMul (site : Site) (s : State) : Res := s.act (fun d => d.fire site .mul)
/-- MULH (R182). -/
def execMulh (site : Site) (s : State) : Res := s.act (fun d => d.fire site .mulh)
/-- MULHU (R182). -/
def execMulhu (site : Site) (s : State) : Res := s.act (fun d => d.fire site .mulhu)
/-- DIV (R182). -/
def execDiv (site : Site) (s : State) : Res := s.act (fun d => d.fire site .div)
/-- DIVU (R182). -/
def execDivu (site : Site) (s : State) : Res := s.act (fun d => d.fire site .divu)
/-- MAC (R182). -/
def execMac (site : Site) (s : State) : Res := s.act (fun d => d.fire site .mac)
/-- MSUB (R182). -/
def execMsub (site : Site) (s : State) : Res := s.act (fun d => d.fire site .msub)
/-- MIN (R182). -/
def execMin (site : Site) (s : State) : Res := s.act (fun d => d.fire site .min)
/-- MAX (R182). -/
def execMax (site : Site) (s : State) : Res := s.act (fun d => d.fire site .max)
/-- MINU (R182). -/
def execMinu (site : Site) (s : State) : Res := s.act (fun d => d.fire site .minu)
/-- MAXU (R182). -/
def execMaxu (site : Site) (s : State) : Res := s.act (fun d => d.fire site .maxu)
/-- AND (R184). -/
def execAnd (site : Site) (s : State) : Res := s.act (fun d => d.fire site .and)
/-- OR (R184). -/
def execOr (site : Site) (s : State) : Res := s.act (fun d => d.fire site .or)
/-- XOR (R184). -/
def execXor (site : Site) (s : State) : Res := s.act (fun d => d.fire site .xor)
/-- NOT (R184). -/
def execNot (site : Site) (s : State) : Res := s.act (fun d => d.fire site .not)
/-- ANDN (R184). -/
def execAndn (site : Site) (s : State) : Res := s.act (fun d => d.fire site .andn)
/-- ORN (R184). -/
def execOrn (site : Site) (s : State) : Res := s.act (fun d => d.fire site .orn)
/-- XNOR (R184). -/
def execXnor (site : Site) (s : State) : Res := s.act (fun d => d.fire site .xnor)
/-- BAND (R184). -/
def execBand (site : Site) (s : State) : Res := s.act (fun d => d.fire site .band)
/-- BOR (R184). -/
def execBor (site : Site) (s : State) : Res := s.act (fun d => d.fire site .bor)
/-- BXOR (R184). -/
def execBxor (site : Site) (s : State) : Res := s.act (fun d => d.fire site .bxor)
/-- BNOT (R184). -/
def execBnot (site : Site) (s : State) : Res := s.act (fun d => d.fire site .bnot)
/-- SHL (R185). -/
def execShl (site : Site) (s : State) : Res := s.act (fun d => d.fire site .shl)
/-- SHR (R185). -/
def execShr (site : Site) (s : State) : Res := s.act (fun d => d.fire site .shr)
/-- SAR (R185). -/
def execSar (site : Site) (s : State) : Res := s.act (fun d => d.fire site .sar)
/-- ROL (R185). -/
def execRol (site : Site) (s : State) : Res := s.act (fun d => d.fire site .rol)
/-- ROR (R185). -/
def execRor (site : Site) (s : State) : Res := s.act (fun d => d.fire site .ror)
/-- CLZ (R186). -/
def execClz (site : Site) (s : State) : Res := s.act (fun d => d.fire site .clz)
/-- CTZ (R186). -/
def execCtz (site : Site) (s : State) : Res := s.act (fun d => d.fire site .ctz)
/-- POPC (R186). -/
def execPopc (site : Site) (s : State) : Res := s.act (fun d => d.fire site .popc)
/-- BEXT (R186). -/
def execBext (site : Site) (s : State) : Res := s.act (fun d => d.fire site .bext)
/-- BEXTU (R186). -/
def execBextu (site : Site) (s : State) : Res := s.act (fun d => d.fire site .bextu)
/-- BINS (R186). -/
def execBins (site : Site) (s : State) : Res := s.act (fun d => d.fire site .bins)
/-- BPERM (R186). -/
def execBperm (site : Site) (s : State) : Res := s.act (fun d => d.fire site .bperm)
/-- SEXT (R186). -/
def execSext (site : Site) (s : State) : Res := s.act (fun d => d.fire site .sext)
/-- ZEXT (R186). -/
def execZext (site : Site) (s : State) : Res := s.act (fun d => d.fire site .zext)
/-- PDEP (R186). -/
def execPdep (site : Site) (s : State) : Res := s.act (fun d => d.fire site .pdep)
/-- PEXT (R186). -/
def execPext (site : Site) (s : State) : Res := s.act (fun d => d.fire site .pext)
/-- HASH (R187). -/
def execHash (site : Site) (s : State) : Res := s.act (fun d => d.fire site .hash)
/-- CRC32C (R188). -/
def execCrc32c (site : Site) (s : State) : Res := s.act (fun d => d.fire site .crc32c)
/-- CEQ (R190). -/
def execCeq (site : Site) (s : State) : Res := s.act (fun d => d.fire site .ceq)
/-- CNE (R190). -/
def execCne (site : Site) (s : State) : Res := s.act (fun d => d.fire site .cne)
/-- CLT (R190). -/
def execClt (site : Site) (s : State) : Res := s.act (fun d => d.fire site .clt)
/-- CLE (R190). -/
def execCle (site : Site) (s : State) : Res := s.act (fun d => d.fire site .cle)
/-- CLTU (R190). -/
def execCltu (site : Site) (s : State) : Res := s.act (fun d => d.fire site .cltu)
/-- CLEU (R190). -/
def execCleu (site : Site) (s : State) : Res := s.act (fun d => d.fire site .cleu)
/-- CTST (R190). -/
def execCtst (site : Site) (s : State) : Res := s.act (fun d => d.fire site .ctst)
/-- CBIT (R191). -/
def execCbit (site : Site) (s : State) : Res := s.act (fun d => d.fire site .cbit)
/-- CEQB (R190). -/
def execCeqb (site : Site) (s : State) : Res := s.act (fun d => d.fire site .ceqb)
/-- CNEB (R190). -/
def execCneb (site : Site) (s : State) : Res := s.act (fun d => d.fire site .cneb)
/-- CLTB (R190). -/
def execCltb (site : Site) (s : State) : Res := s.act (fun d => d.fire site .cltb)
/-- CLEB (R190). -/
def execCleb (site : Site) (s : State) : Res := s.act (fun d => d.fire site .cleb)
/-- CLTUB (R190). -/
def execCltub (site : Site) (s : State) : Res := s.act (fun d => d.fire site .cltub)
/-- CLEUB (R190). -/
def execCleub (site : Site) (s : State) : Res := s.act (fun d => d.fire site .cleub)
/-- CTSTB (R190). -/
def execCtstb (site : Site) (s : State) : Res := s.act (fun d => d.fire site .ctstb)
/-- CBITB (R191). -/
def execCbitb (site : Site) (s : State) : Res := s.act (fun d => d.fire site .cbitb)
/-- FLGR (R193). -/
def execFlgr (site : Site) (s : State) : Res := s.act (fun d => d.fire site .flgr)
/-- FLGW (R193). -/
def execFlgw (site : Site) (s : State) : Res := s.act (fun d => d.fire site .flgw)
/-- FLGTAS (R193). -/
def execFlgtas (site : Site) (s : State) : Res := s.act (fun d => d.fire site .flgtas)
/-- SETBANK (R193). -/
def execSetbank (site : Site) (s : State) : Res := s.act (fun d => d.fire site .setbank)
/-- GETBANK (R193). -/
def execGetbank (site : Site) (s : State) : Res := s.act (fun d => d.fire site .getbank)
/-- SETTRAP (R193). -/
def execSettrap (site : Site) (s : State) : Res := s.act (fun d => d.fire site .settrap)
/-- SETSUB (R193). -/
def execSetsub (site : Site) (s : State) : Res := s.act (fun d => d.fire site .setsub)
/-- SETRND (R193). -/
def execSetrnd (site : Site) (s : State) : Res := s.act (fun d => d.fire site .setrnd)
/-- GETMODE (R193). -/
def execGetmode (site : Site) (s : State) : Res := s.act (fun d => d.fire site .getmode)
/-- I2FX (R206). -/
def execI2fx (site : Site) (s : State) : Res := s.act (fun d => d.fire site .i2fx)
/-- FX2I (R206). -/
def execFx2i (site : Site) (s : State) : Res := s.act (fun d => d.fire site .fx2i)
/-- FX2F (R206). -/
def execFx2f (site : Site) (s : State) : Res := s.act (fun d => d.fire site .fx2f)
/-- F2FX (R206). -/
def execF2fx (site : Site) (s : State) : Res := s.act (fun d => d.fire site .f2fx)
/-- I2F (R206). -/
def execI2f (site : Site) (s : State) : Res := s.act (fun d => d.fire site .i2f)
/-- F2I (R206). -/
def execF2i (site : Site) (s : State) : Res := s.act (fun d => d.fire site .f2i)
/-- F2IU (R206). -/
def execF2iu (site : Site) (s : State) : Res := s.act (fun d => d.fire site .f2iu)
/-- BCD2I (R189). -/
def execBcd2i (site : Site) (s : State) : Res := s.act (fun d => d.fire site .bcd2i)
/-- I2BCD (R189). -/
def execI2bcd (site : Site) (s : State) : Res := s.act (fun d => d.fire site .i2bcd)
/-- DEC2I (R189). -/
def execDec2i (site : Site) (s : State) : Res := s.act (fun d => d.fire site .dec2i)
/-- I2DEC (R189). -/
def execI2dec (site : Site) (s : State) : Res := s.act (fun d => d.fire site .i2dec)
/-- EB2AS (R189). -/
def execEb2as (site : Site) (s : State) : Res := s.act (fun d => d.fire site .eb2as)
/-- AS2EB (R189). -/
def execAs2eb (site : Site) (s : State) : Res := s.act (fun d => d.fire site .as2eb)
/-- BSWAP (R189). -/
def execBswap (site : Site) (s : State) : Res := s.act (fun d => d.fire site .bswap)
/-- BREV (R189). -/
def execBrev (site : Site) (s : State) : Res := s.act (fun d => d.fire site .brev)
/-- FADD (R210). -/
def execFadd (site : Site) (s : State) : Res := s.act (fun d => d.fire site .fadd)
/-- FSUB (R210). -/
def execFsub (site : Site) (s : State) : Res := s.act (fun d => d.fire site .fsub)
/-- FMUL (R210). -/
def execFmul (site : Site) (s : State) : Res := s.act (fun d => d.fire site .fmul)
/-- FDIV (R210). -/
def execFdiv (site : Site) (s : State) : Res := s.act (fun d => d.fire site .fdiv)
/-- FSQRT (R210). -/
def execFsqrt (site : Site) (s : State) : Res := s.act (fun d => d.fire site .fsqrt)
/-- FMA (R210). -/
def execFma (site : Site) (s : State) : Res := s.act (fun d => d.fire site .fma)
/-- FMIN (R210). -/
def execFmin (site : Site) (s : State) : Res := s.act (fun d => d.fire site .fmin)
/-- FMAX (R210). -/
def execFmax (site : Site) (s : State) : Res := s.act (fun d => d.fire site .fmax)
/-- FNEG (R210). -/
def execFneg (site : Site) (s : State) : Res := s.act (fun d => d.fire site .fneg)
/-- FABS (R210). -/
def execFabs (site : Site) (s : State) : Res := s.act (fun d => d.fire site .fabs)
/-- FCEQ (R210). -/
def execFceq (site : Site) (s : State) : Res := s.act (fun d => d.fire site .fceq)
/-- FCLT (R210). -/
def execFclt (site : Site) (s : State) : Res := s.act (fun d => d.fire site .fclt)
/-- FCLE (R210). -/
def execFcle (site : Site) (s : State) : Res := s.act (fun d => d.fire site .fcle)
/-- FCUN (R210). -/
def execFcun (site : Site) (s : State) : Res := s.act (fun d => d.fire site .fcun)
/-- FRINT (R210). -/
def execFrint (site : Site) (s : State) : Res := s.act (fun d => d.fire site .frint)
/-- FCLASS (R210). -/
def execFclass (site : Site) (s : State) : Res := s.act (fun d => d.fire site .fclass)
/-- LD (R195). -/
def execLd (site : Site) (s : State) : Res := s.act (fun d => d.fire site .ld)
/-- LDB (R195). -/
def execLdb (site : Site) (s : State) : Res := s.act (fun d => d.fire site .ldb)
/-- LDBU (R195). -/
def execLdbu (site : Site) (s : State) : Res := s.act (fun d => d.fire site .ldbu)
/-- LDH (R195). -/
def execLdh (site : Site) (s : State) : Res := s.act (fun d => d.fire site .ldh)
/-- LDHU (R195). -/
def execLdhu (site : Site) (s : State) : Res := s.act (fun d => d.fire site .ldhu)
/-- LDW (R195). -/
def execLdw (site : Site) (s : State) : Res := s.act (fun d => d.fire site .ldw)
/-- LDWU (R195). -/
def execLdwu (site : Site) (s : State) : Res := s.act (fun d => d.fire site .ldwu)
/-- ST (R195). -/
def execSt (site : Site) (s : State) : Res := s.act (fun d => d.fire site .st)
/-- STB (R195). -/
def execStb (site : Site) (s : State) : Res := s.act (fun d => d.fire site .stb)
/-- STH (R195). -/
def execSth (site : Site) (s : State) : Res := s.act (fun d => d.fire site .sth)
/-- STW (R195). -/
def execStw (site : Site) (s : State) : Res := s.act (fun d => d.fire site .stw)
/-- IRD (R195). -/
def execIrd (site : Site) (s : State) : Res := s.act (fun d => d.fire site .ird)
/-- IWR (R195). -/
def execIwr (site : Site) (s : State) : Res := s.act (fun d => d.fire site .iwr)
/-- ICLR (R195). -/
def execIclr (site : Site) (s : State) : Res := s.act (fun d => d.fire site .iclr)
/-- AADD (R196). -/
def execAadd (site : Site) (s : State) : Res := s.act (fun d => d.fire site .aadd)
/-- AAND (R196). -/
def execAand (site : Site) (s : State) : Res := s.act (fun d => d.fire site .aand)
/-- AOR (R196). -/
def execAor (site : Site) (s : State) : Res := s.act (fun d => d.fire site .aor)
/-- AXOR (R196). -/
def execAxor (site : Site) (s : State) : Res := s.act (fun d => d.fire site .axor)
/-- AXCHG (R196). -/
def execAxchg (site : Site) (s : State) : Res := s.act (fun d => d.fire site .axchg)
/-- ACAS (R196). -/
def execAcas (site : Site) (s : State) : Res := s.act (fun d => d.fire site .acas)
/-- AMIN (R196). -/
def execAmin (site : Site) (s : State) : Res := s.act (fun d => d.fire site .amin)
/-- AMAX (R196). -/
def execAmax (site : Site) (s : State) : Res := s.act (fun d => d.fire site .amax)
/-- LOCK (R233). -/
def execLock (site : Site) (s : State) : Res := s.act (fun d => d.fire site .lock)
/-- TRYLOCK (R233). -/
def execTrylock (site : Site) (s : State) : Res := s.act (fun d => d.fire site .trylock)
/-- UNLOCK (R235). -/
def execUnlock (site : Site) (s : State) : Res := s.act (fun d => d.fire site .unlock)
/-- BLD (R200). -/
def execBld (site : Site) (s : State) : Res := s.act (fun d => d.fire site .bld)
/-- BST (R200). -/
def execBst (site : Site) (s : State) : Res := s.act (fun d => d.fire site .bst)
/-- BTAS (R200). -/
def execBtas (site : Site) (s : State) : Res := s.act (fun d => d.fire site .btas)
/-- BTAC (R200). -/
def execBtac (site : Site) (s : State) : Res := s.act (fun d => d.fire site .btac)
/-- BFLIP (R200). -/
def execBflip (site : Site) (s : State) : Res := s.act (fun d => d.fire site .bflip)
/-- BLTS (R200). -/
def execBlts (site : Site) (s : State) : Res := s.act (fun d => d.fire site .blts)
/-- SIG_SIGN (R274); it also takes the calls of functions that attachment 0 does not define (R158). -/
def execSigSign (site : Site) (s : State) : Res :=
  s.act (fun d => d.instr site (fun n => attIs 0 1 n || attUndefined 0 n) false)
/-- SIG_VERIFY (R274). -/
def execSigVerify (site : Site) (s : State) : Res := s.act (fun d => d.instr site (attIs 0 2) false)
/-- SIG_VERIFY_V15 (R274). -/
def execSigVerifyV15 (site : Site) (s : State) : Res := s.act (fun d => d.instr site (attIs 0 3) false)
/-- GCM_SEAL (R277); it also takes the calls of functions that attachment 1 does not define (R158). -/
def execGcmSeal (site : Site) (s : State) : Res :=
  s.act (fun d => d.instr site (fun n => attIs 1 1 n || attUndefined 1 n) false)
/-- GCM_OPEN (R277). -/
def execGcmOpen (site : Site) (s : State) : Res := s.act (fun d => d.instr site (attIs 1 2) false)
/-- CMAC_GEN (R277). -/
def execCmacGen (site : Site) (s : State) : Res := s.act (fun d => d.instr site (attIs 1 3) false)
/-- CMAC_VERIFY (R277). -/
def execCmacVerify (site : Site) (s : State) : Res := s.act (fun d => d.instr site (attIs 1 4) false)
/-- HMAC_GEN (R277). -/
def execHmacGen (site : Site) (s : State) : Res := s.act (fun d => d.instr site (attIs 1 5) false)
/-- HMAC_VERIFY (R277). -/
def execHmacVerify (site : Site) (s : State) : Res := s.act (fun d => d.instr site (attIs 1 6) false)
/-- DIGEST (R277). -/
def execDigest (site : Site) (s : State) : Res := s.act (fun d => d.instr site (attIs 1 7) false)
/-- PIN_XLATE (R286). -/
def execPinXlate (site : Site) (s : State) : Res := s.act (fun d => d.instr site (attIs 1 8) false)
/-- PIN_XLATE_DUKPT (R289). -/
def execPinXlateDukpt (site : Site) (s : State) : Res := s.act (fun d => d.instr site (attIs 1 9) false)
/-- RANDOM (R277). -/
def execRandom (site : Site) (s : State) : Res := s.act (fun d => d.instr site (attIs 1 10) false)
/-- CUSTOMER_LOGIC_CALL (R157): every call of attachment 7. -/
def execCustomerLogicCall (site : Site) (s : State) : Res :=
  s.act (fun d => d.instr site (fun n => n.op == .att && n.att == 7) false)
/-- JMP (R175). -/
def execJmp (s : State) : Res := s.act (fun d => d.coreStep (fun n => n.op == .jmp) false)
/-- BZ (R175). -/
def execBz (s : State) : Res := s.act (fun d => d.coreStep (fun n => n.op == .bz) false)
/-- BNZ (R175). -/
def execBnz (s : State) : Res := s.act (fun d => d.coreStep (fun n => n.op == .bnz) false)
/-- JAL (R175). -/
def execJal (s : State) : Res := s.act (fun d => d.coreStep (fun n => n.op == .jal) false)
/-- JR (R175). -/
def execJr (s : State) : Res := s.act (fun d => d.coreStep (fun n => n.op == .jr) false)
/-- RET (R175). -/
def execRet (s : State) : Res := s.act (fun d => d.coreStep (fun n => n.op == .ret) false)
/-- TRAPRET (R175). -/
def execTrapret (s : State) : Res := s.act (fun d => d.coreStep (fun n => n.op == .trapret) false)
/-- HALT (R175). -/
def execHalt (s : State) : Res := s.act (fun d => d.coreStep (fun n => n.op == .halt) false)
/-- WFI (R175). -/
def execWfi (s : State) : Res := s.act (fun d => d.coreStep (fun n => n.op == .wfi) false)
/-- NOP (R175). -/
def execNop (s : State) : Res := s.act (fun d => d.coreStep (fun n => n.op == .nop) false)
/-- CSRR (R359). -/
def execCsrr (s : State) : Res := s.act (fun d => d.coreStep (fun n => n.op == .csrr) false)
/-- CSRW (R359). -/
def execCsrw (s : State) : Res := s.act (fun d => d.coreStep (fun n => n.op == .csrw) false)

end Sys2Proof.Machine
end

