-- ==== Sys2Proof/Machine/RingPort.lean ====
section
/-! DEFINITION. The Zenul ring engine (R366–R373): forwarding and removal, duplicates, breaks, hinges, time frames and the
election of the ring master. -/

namespace Sys2Proof.Machine

def Dev.modRng (d : Dev) (f : Rng → Rng) : Dev := { d with rng := f d.rng }

/-- The node takes part on a ring: its auxiliary domain is up and the ring's hinge is open. -/
def Dev.onRing (d : Dev) (p : Nat) : Bool := d.wrd.up && d.rng.hinge.getD p false

/-- A node's number: its octets are stored least significant first (R367). -/
def idNum (l : List Byte) : Nat := leNat l

/-- One claimant or master is better than another (R371). -/
def ringBetter (p1 : Nat) (i1 : List Byte) (p2 : Nat) (i2 : List Byte) : Bool :=
  decide (p1 < p2) || (p1 == p2 && decide (idNum i1 < idNum i2))

def Dev.ownPri (d : Dev) : Nat := d.obj 0x1100 2

/-- A node whose priority is below 255 is eligible. -/
def Dev.eligible (d : Dev) : Bool := decide (d.ownPri < 255)

/-! ### Frames (R369) -/

/-- Pairs remembered of each source, and how long a second copy may take. -/
def seenDepth : Nat := 64
def seenNs : Nat := 200000

/-- A second copy of a transmission. -/
def Dev.duplicate (d : Dev) (f : RFrame) : Bool :=
  match d.rng.seen.find? (fun e => e.1 == f.src) with
  | some e => e.2.any (fun x => x.1 == f.seq && decide (d.up ≤ x.2 + seenNs))
  | none => false

/-- Remember a transmission. -/
def Dev.remember (d : Dev) (f : RFrame) : Dev :=
  let old := match d.rng.seen.find? (fun e => e.1 == f.src) with | some e => e.2 | none => []
  d.modRng (fun r => { r with
    seen := r.seen.filter (fun e => e.1 != f.src) ++ [(f.src, ((f.seq, d.up) :: old).take seenDepth)] })

/-- The types of R368; frames of other types are forwarded unread. -/
def ringType (t : Nat) : Bool := [1, 2, 3, 4, 5, 6, 0x10, 0x20, 0x30].contains t

/-- RING_FRAME_FORWARD: a frame arrives at a port, with what follows it. -/
def Dev.ringForward (d : Dev) (p : Nat) (f : RFrame) (t : RTail) : Dev :=
  if !d.onRing p then d
  else
    let loc := faultLoc 6 p
    let (m, b, d) := d.takeInj 0x0B loc
    let ok := t.ended && t.crc == ringCrc f && m != 1 && m != 2
    let d := if ok then d.bump 0x1100 4 else d.bump 0x1100 5
    let removed := f.dst == d.nodeId || (f.dst == ringAll && f.src == d.nodeId) || decide (4096 ≤ f.hops + 1)
    let g : RFrame := { f with hops := f.hops + 1 }
    let d := if removed then d else d.modRng (fun r => { r with out := r.out ++ [(p, g, ringCrc g, ok)] })
    let mine := (f.dst == d.nodeId || f.dst == ringAll) && f.src != d.nodeId && ringType f.typ
    if !ok || !mine then d
    else if d.duplicate f then d.bump 0x1100 6
    else
      let f := if m = 3 then { f with pl := f.pl.zipIdx.map (fun x => if x.2 = b / 8 then x.1 ^^^ BitVec.ofNat 8 (2 ^ (b % 8)) else x.1) } else f
      (d.remember f).wardIrq 0

/-- RING_BREAK_DETECT: a port has lost synchronisation or has had no idle for 1 µs. With the ring as the time source the
timebase reports Holdover (R317). -/
def Dev.ringBreak (d : Dev) (p : Nat) : Dev :=
  if 2 ≤ p || !d.wrd.up then d
  else
    let d := ((d.modRng (fun r => { r with sync := lset r.sync p false, broken := lset r.broken p true })).bump 0x1100 7).report 0x61 (faultLoc 6 p)
    if d.tb.st = .locked && d.tb.src = 3 then d.tbTo .holdover 3 else d

/-- RING_SYNC_ACQUIRED. -/
def Dev.ringSync (d : Dev) (p : Nat) : Dev :=
  if 2 ≤ p || !d.wrd.up then d
  else d.modRng (fun r => { r with sync := lset r.sync p true, broken := lset r.broken p false })

/-! ### Hinges (R372, R427) -/

/-- The hinges must be closed: no auxiliary power, power-on or system reset, or the ring's soft reset bit. -/
def Dev.hingesShut (d : Dev) : Bool :=
  !d.wrd.up || d.pwr.phase == .auxOff || d.pwr.phase == .mainOff || d.pwr.phase == .sysReset || d.held 7

/-- HINGE_CLOSE. -/
def Dev.hingeClose (d : Dev) (p : Nat) : Dev :=
  if d.hingesShut then d.modRng (fun r => { r with hinge := lset r.hinge p false }) else d

/-- HINGE_OPEN: inside the idle run after 64 idle characters, once the reset has ended and the structures are initialised
(R430 step 5). -/
def Dev.hingeOpen (d : Dev) (p : Nat) : Dev :=
  if d.hingesShut || d.pwr.phase != .running then d else d.modRng (fun r => { r with hinge := lset r.hinge p true })

/-! ### Claims and the master (R371) -/

/-- A claim sent now. -/
def Dev.sendClaim (d : Dev) : Dev :=
  (d.ringPut 0x30 ringAll [BitVec.ofNat 8 d.ownPri]).modRng (fun r => { r with lastClaim := d.up })

/-- A claim is seen or made: the first one begins an election, which is counted (R371, log 125). -/
def Dev.elect (d : Dev) (pri : Nat) (id : List Byte) : Dev :=
  match d.rng.best with
  | none => (d.modRng (fun r => { r with best := some (pri, id) })).bump 0x1100 8
  | some b => if ringBetter pri id b.1 b.2 then d.modRng (fun r => { r with best := some (pri, id) }) else d

/-- Time frames of the best claimant, or of a better node, end an election. -/
def Dev.elected (d : Dev) (pri : Nat) (id : List Byte) : Dev :=
  match d.rng.best with
  | some b => if ringBetter b.1 b.2 pri id then d else d.modRng (fun r => { r with best := none })
  | none => d

/-- Claiming begins. -/
def Dev.startClaim (d : Dev) : Dev :=
  if d.eligible && d.rng.claiming.isNone && (d.onRing 0 || d.onRing 1) then
    ((d.modRng (fun r => { r with claiming := some d.up })).elect d.ownPri d.nodeId).sendClaim
  else d

/-- TIME_FRAME_ABSENCE: 4 ms without a time frame. -/
def Dev.timeAbsent (d : Dev) : Dev :=
  if !d.rng.master && decide (d.rng.lastTime + 4000000 ≤ d.up) then d.startClaim else d

/-- CLAIM_TIMER: every 100 µs; a node that is no longer eligible claims no more. -/
def Dev.claimTick (d : Dev) : Dev :=
  if !d.eligible then d.modRng (fun r => { r with claiming := none })
  else if d.rng.claiming.isSome && decide (d.rng.lastClaim + 100000 ≤ d.up) then d.sendClaim else d

/-- BECOME_MASTER: 1 ms of claiming without a better claim. -/
def Dev.becomeMaster (d : Dev) : Dev :=
  match d.rng.claiming with
  | some t =>
    if d.eligible && decide (t + 1000000 ≤ d.up) then
      d.modRng (fun r => { r with
        claiming := none, best := none, master := true, mPri := d.ownPri, mId := d.nodeId, sentAt := none, arrA := none, arrB := none })
    else d
  | none => d

/-- RING_CLAIM_RECEIVE: a better claim ends claiming and mastership. -/
def Dev.claimIn (d : Dev) (f : RFrame) : Dev :=
  if f.typ ≠ 0x30 || f.src = d.nodeId || !(d.onRing 0 || d.onRing 1) then d
  else
    let pri := (f.pl.headD 0xFF).toNat
    let d := d.elect pri f.src
    if ringBetter pri f.src d.ownPri d.nodeId then d.modRng (fun r => { r with claiming := none, master := false }) else d

/-! ### Time frames (R317, R370) -/

/-- RING_TIME_SEND: the master's time frame, every 1 ms. -/
def Dev.timeSend (d : Dev) : Dev :=
  if d.rng.master && decide (d.rng.lastSend + 1000000 ≤ d.up) then
    let pl := leOctets 10 d.time80 ++ leOctets 4 d.rng.circ ++ [BitVec.ofNat 8 d.ownPri]
    (d.ringPut 0x10 ringAll pl).modRng (fun r => { r with lastSend := d.up, sentAt := some (d.tai * 1000), arrA := none, arrB := none })
  else d

/-- An arrival of a time frame noted at its port. -/
def Dev.noteTime (d : Dev) (p : Nat) (f : RFrame) (ps : Nat) : Dev :=
  d.modRng (fun r => if p = 0 then { r with arrA := some (f.seq, ps) } else { r with arrB := some (f.seq, ps) })

/-- Both copies of one frame have arrived: their arrivals on A and B in ps. -/
def Dev.timePair (d : Dev) : Option (Nat × Nat) :=
  match d.rng.arrA, d.rng.arrB with
  | some (q, a), some (r, b) => if q = r then some (a, b) else none
  | _, _ => none

/-- A time frame of the master's own has returned: the circuit time is the mean over A and B. -/
def Dev.ownReturn (d : Dev) (p : Nat) (f : RFrame) (ps : Nat) : Dev :=
  let d := d.noteTime p f ps
  match d.timePair, d.rng.sentAt with
  | some (a, b), some t => d.modRng (fun r => { r with circ := ((a - t) + (b - t)) / 2 % 2 ^ 32 })
  | _, _ => d

/-- The time that a frame states, in ps. -/
def frameTime (f : RFrame) : Nat := let v := leNat (f.pl.take 10); v / 65536 * 1000 + v / 256 % 256 * 1000 / 256

/-- The phase error by a pair of arrivals: arrival on A less the frame's time and the delay (T + tA − tB) / 2. While a ring is
broken the last measured delay stands (R317). -/
def Dev.ringPhase (d : Dev) (f : RFrame) : Dev :=
  match d.timePair with
  | some (a, b) =>
    if d.rng.broken.any id then d
    else
      let t : Int := leNat ((f.pl.drop 10).take 4)
      let d := d.modRng (fun r => { r with delay := (t + a - b) / 2 })
      d.measure 3 ((a : Int) - (frameTime f + d.rng.delay))
  | none => d

/-- RING_TIME_FRAME_RECEIVE: a time frame at a port; `ps` is the timebase reading in ps at its K27.7. -/
def Dev.timeIn (d : Dev) (p : Nat) (f : RFrame) (ps : Nat) : Dev :=
  if f.typ ≠ 0x10 || 2 ≤ p || !d.onRing p then d
  else if f.src = d.nodeId then d.ownReturn p f ps
  else
    let pri := (f.pl.getD 14 0xFF).toNat
    let d := (d.elected pri f.src).modRng (fun r => { r with lastTime := d.up, mPri := if r.master then r.mPri else pri, mId := if r.master then r.mId else f.src })
    let d := if d.rng.claiming.isSome && ringBetter pri f.src d.ownPri d.nodeId then d.modRng (fun r => { r with claiming := none }) else d
    let d := if d.ownPri < pri then d.startClaim else d
    let d := d.noteTime p f ps
    let d := if p = 0 then (d.setObj 0x7300 2 (f.hops % 65536)).setObj 0x7300 3 (1600 + (57 * f.hops + 9) / 10) else d
    d.ringPhase f

/-! ### Fault frames (R398) -/

/-- RING_FAULT_FRAME_RECEIVE: counted, and the latest held. -/
def Dev.faultFrameIn (d : Dev) (f : RFrame) : Dev :=
  if f.typ ≠ 0x20 || f.src = d.nodeId || !(d.onRing 0 || d.onRing 1) then d
  else (d.bump 0x9000 8).setObj 0x9000 9 (leNat (f.src.take 8 ++ f.pl.take 12))

/-! ### Meanings -/

/-- RING_TIME_SEND (R317). -/
def execRingTimeSend (s : State) : Res := s.act Dev.timeSend
/-- RING_FRAME_FORWARD (R369). -/
def execRingFrameForward (port : Nat) (f : RFrame) (tail : RTail) (s : State) : Res := s.act (fun d => d.ringForward port f tail)
/-- RING_TIME_FRAME_RECEIVE (R370). -/
def execRingTimeFrameReceive (port : Nat) (f : RFrame) (ps : Nat) (s : State) : Res := s.act (fun d => d.timeIn port f ps)
/-- RING_FAULT_FRAME_RECEIVE (R398). -/
def execRingFaultFrameReceive (f : RFrame) (s : State) : Res := s.act (fun d => d.faultFrameIn f)
/-- RING_CLAIM_RECEIVE (R371). -/
def execRingClaimReceive (f : RFrame) (s : State) : Res := s.act (fun d => d.claimIn f)
/-- CLAIM_TIMER (R371). -/
def execClaimTimer (s : State) : Res := s.act Dev.claimTick
/-- TIME_FRAME_ABSENCE (R371). -/
def execTimeFrameAbsence (s : State) : Res := s.act Dev.timeAbsent
/-- BECOME_MASTER (R371). -/
def execBecomeMaster (s : State) : Res := s.act Dev.becomeMaster
/-- RING_BREAK_DETECT (R369). -/
def execRingBreakDetect (port : Nat) (s : State) : Res := s.act (fun d => d.ringBreak port)
/-- RING_SYNC_ACQUIRED (R369). -/
def execRingSyncAcquired (port : Nat) (s : State) : Res := s.act (fun d => d.ringSync port)
/-- HINGE_CLOSE (R372). -/
def execHingeClose (port : Nat) (s : State) : Res := s.act (fun d => d.hingeClose port)
/-- HINGE_OPEN (R372). -/
def execHingeOpen (port : Nat) (s : State) : Res := s.act (fun d => d.hingeOpen port)

end Sys2Proof.Machine
end

