-- ==== Sys2Proof/Machine/Tap.lean ====
section
/-! DEFINITION. The IEEE 1149.1 TAP (R443): its controller, the instruction register, IDCODE, BYPASS and the boundary
register. The spec gives neither the codes nor the length of the instruction register, nor the order of the boundary
register (log 56). -/

namespace Sys2Proof.Machine

/-- The instructions as `ir` holds them. -/
def tapBypass : Nat := 0
def tapSample : Nat := 1
def tapExtest : Nat := 2
def tapIdcode : Nat := 3

/-- Length of the instruction register (log 56). -/
def irLength : Nat := 4

/-- The instruction of a code: all ones is BYPASS, any other one is free (log 56). -/
def tapInstr (v : Nat) : Nat := if v + 1 = 2 ^ irLength then tapBypass else Config.tapCode v % 4

/-- The next state of the controller for a level of `TMS`. -/
def TapState.next (t : TapState) (tms : Bool) : TapState :=
  match t, tms with
  | .reset, true => .reset
  | .reset, false => .idle
  | .idle, true => .selDr
  | .idle, false => .idle
  | .selDr, true => .selIr
  | .selDr, false => .capDr
  | .capDr, true => .ex1Dr
  | .capDr, false => .shDr
  | .shDr, true => .ex1Dr
  | .shDr, false => .shDr
  | .ex1Dr, true => .upDr
  | .ex1Dr, false => .paDr
  | .paDr, true => .ex2Dr
  | .paDr, false => .paDr
  | .ex2Dr, true => .upDr
  | .ex2Dr, false => .shDr
  | .upDr, true => .selDr
  | .upDr, false => .idle
  | .selIr, true => .reset
  | .selIr, false => .capIr
  | .capIr, true => .ex1Ir
  | .capIr, false => .shIr
  | .shIr, true => .ex1Ir
  | .shIr, false => .shIr
  | .ex1Ir, true => .upIr
  | .ex1Ir, false => .paIr
  | .paIr, true => .ex2Ir
  | .paIr, false => .paIr
  | .ex2Ir, true => .upIr
  | .ex2Ir, false => .shIr
  | .upIr, true => .selDr
  | .upIr, false => .idle

/-- A number's bits, least significant first. -/
def bitList (n v : Nat) : List Bool := (List.range n).map (fun i => bit v i)

/-- The IDCODE: revision, part, manufacturer, 1. -/
def Dev.idcode (d : Dev) : Nat := d.ident.rev % 16 * 2 ^ 28 + d.xs 0x8400 0x8401 * 2 ^ 12 + Config.jedecCode % 2 ^ 11 * 2 + 1

/-- What Capture-DR loads; `pins` are the levels of the boundary cells. -/
def Dev.tapCapture (d : Dev) (pins : List Bool) : List Bool :=
  if d.pwr.ir = tapIdcode then bitList 32 d.idcode
  else if d.pwr.ir = tapSample || d.pwr.ir = tapExtest then pins
  else [false]

/-- One place on: the bit at the front leaves, `tdi` enters. -/
def shiftIn (l : List Bool) (tdi : Bool) : List Bool := l.drop 1 ++ [tdi]

/-- A rising edge of `TCK`: capture or shift by the state, then the state moves. -/
def Dev.tapRise (d : Dev) (tms tdi : Bool) (pins : List Bool) : Dev :=
  d.modPwr (fun w => { w with
    dr := match w.tap with
      | .capDr => d.tapCapture pins
      | .capIr => true :: List.replicate (irLength - 1) false
      | .shDr => shiftIn w.dr tdi
      | .shIr => shiftIn w.dr tdi
      | _ => w.dr
    tap := w.tap.next tms })

/-- A falling edge of `TCK`: updates, and the level of `TDO`, which is driven in the Shift states only. -/
def Dev.tapFall (d : Dev) : Dev :=
  d.modPwr (fun w => { w with
    ir := match w.tap with
      | .upIr => tapInstr (w.dr.foldr (fun b n => b2n b + 2 * n) 0)
      | .reset => tapIdcode
      | _ => w.ir
    drOut := if w.tap = .upDr && (w.ir == tapSample || w.ir == tapExtest) then w.dr else w.drOut
    tdo := match w.tap with
      | .shDr => w.dr.head?
      | .shIr => w.dr.head?
      | _ => none })

/-- TAP_TCK_EDGE, while the main rails are up. -/
def Dev.tapEdge (d : Dev) (rising tms tdi : Bool) (pins : List Bool) : Dev :=
  if !d.mainUp then d else if rising then d.tapRise tms tdi pins else d.tapFall

/-- TRST_N_ASSERT. -/
def Dev.tapReset (d : Dev) : Dev := d.modPwr (fun w => { w with tap := .reset, ir := tapIdcode, tdo := none })

/-! ### Meanings -/

/-- TAP_TCK_EDGE (R443). -/
def execTapTckEdge (rising tms tdi : Bool) (pins : List Bool) (s : State) : Res := s.act (fun d => d.tapEdge rising tms tdi pins)
/-- TRST_N_ASSERT (R443). -/
def execTrstNAssert (s : State) : Res := s.act Dev.tapReset

end Sys2Proof.Machine
end

