-- ==== Sys2Proof/Machine/Reset.lean ====
section
/-! DEFINITION. Reset levels, soft resets, power-on and PLLs (R422–R432, R440): what each level clears or spares, the core
reset's steps, the release of the clocked blocks, the assignment of positions. -/

namespace Sys2Proof.Machine

/-! ### What a reset keeps of the plain objects (R423, R12) -/

/-- The page of an object's key: its index without the low octet. -/
def keyPage (key : Nat) : Nat := key / 65536

/-- Counters and extremes since power-on reset, which a system reset keeps. -/
def sincePowerOn : List Nat := [0x280001, 0x240102, 0x210207, 0x300006, 0x630008, 0x700001]

/-- Kept by a system reset: the timebase's objects; reset causes and counts; the mesh; `RESTORE_AT_RESET`. -/
def keptSystem (key : Nat) : Bool :=
  sincePowerOn.contains key || key == 0x101003 || key / 256 == 0x5010 || [0x71, 0x72, 0x73].contains (keyPage key)
    || (keyPage key == 0xB0 && !([0xB00201, 0xB01001, 0xB01101].contains key))

/-- Kept by a main power-on: what the ward and the mesh monitor hold, and `RESET_CAUSE`. -/
def keptMain (key : Nat) : Bool :=
  key / 256 == 0x5010 || key == 0xB00001 || [0x10, 0x12, 0x1F, 0xC0, 0xC2, 0xC3, 0xC4, 0xC5].contains (keyPage key)

/-- Kept by an auxiliary power-on: `RESTORE_AT_RESET` and `ZEROIZATIONS`. -/
def keptAux (key : Nat) : Bool := key == 0x101003 || key == 0x501003

def Dev.keepObjs (d : Dev) (p : Nat → Bool) : Dev := { d with objs := d.objs.filter (fun e => p e.1) }

/-- A cause added to `RESET_CAUSE` (R424). -/
def Dev.resetCause (d : Dev) (b : Nat) : Dev := d.setObj 0xB000 1 (d.obj 0xB000 1 ||| 2 ^ b)

/-! ### Units cleared -/

/-- The fabric dies and the structures that go with them, as after power-on; the generation table is kept and no context is
Active in it. Takeovers and rolling tests are abandoned (R426). -/
def Dev.clearFabric (d : Dev) (place : Tab Nat) : Dev :=
  let d := { d with fab := { fabInit with
    gens := d.fab.gens.map (fun (e : Nat × Nat) => (e.1, e.2 % 64)), noc := { nocInit with place := place } } }
  (d.modPwr (fun w => { w with take := none, takeQ := [], takeStep := 0, roll := none, rollTo := none })).setObj 0x9210 2 0

/-- Deferral table and bit-store cache. -/
def Mem.clearHub (m : Mem) : Mem := { m with defers := [], sweep := 0, lines := [] }

/-- The crypto units: the keyring, the master key and the mesh are kept, and a zeroization under way goes on. -/
def Cry.clearUnits (c : Cry) : Cry :=
  { cryInit with ring := c.ring, keys := c.keys, made := c.made, master := c.master, sealed_ := c.sealed_, zero := c.zero, meshFail := c.meshFail, mesh := c.mesh }

/-- The ring engine with its hinges closed. -/
def Rng.leave (r : Rng) : Rng := { rngInit with sync := r.sync, broken := r.broken, seq := r.seq }

/-- An image slot after a system reset; the ward's verification of it is taken to hold. -/
def Img.afterReset (x : Img) : Img :=
  match x.st with
  | .loaded => { x with busy := .none }
  | .active => { x with st := .loaded, busy := .none }
  | .draining => { x with st := .loaded, busy := .none }
  | _ => imgInit

/-- A new epoch (R300); `ring` tells whether the journal ring and its positions are kept. -/
def Dev.newEpoch (d : Dev) (ring : Bool) : Dev :=
  let j := d.jnl
  { d with jnl := { jnlInit with
    ring := if ring then j.ring else [], appended := if ring then j.appended else 0, exported := if ring then j.exported else 0,
    epoch := j.epoch + 1, start := d.time80, genPrev := j.prev, prev := j.prev, ckptNo := j.ckptLast, ckptLast := j.ckptLast,
    ckpts := j.ckpts, cutAt := d.up } }

/-- What power-on and system reset have in common: the data path at its defaults, the fault unit with source 0x01 Open, the
hinges closed. -/
def Dev.clearPath (d : Dev) : Dev :=
  { d.clearFabric [] with
    hasp := haspInit, key := keyInit, flt := { faultsInit with seq := d.flt.seq }, perf := perfInit, ses := sesUInit,
    cry := d.cry.clearUnits, lnk := lnkInit, rng := d.rng.leave, mem := d.mem.clearHub,
    wrd := { d.wrd with graphs := [], fmts := [], comps := [] } }

/-! ### System reset (R422, R423) -/

/-- System reset asserted for a cause: a bit of `RESET_CAUSE`. -/
def Dev.sysReset (d : Dev) (cause : Nat) : Dev :=
  if !d.mainUp then d
  else
    let d := (d.boostEnd.clearPath.keepObjs keptSystem).newEpoch true
    let d := d.modPwr (fun w => { w with
      phase := .sysReset, cr := .idle, bist := none, bs := w.bs.head?.toList ++ List.replicate 19 0, sysResets := (w.sysResets + 1) % 2 ^ 64 })
    let d := (d.resetCause cause).wardReset 4
    (d.modWrd (fun w => { w with storeSt := 0, imgs := w.imgs.map (fun (e : Nat × Img) => (e.1, e.2.afterReset)) })).jnlState

/-- The clocked blocks of the configuration, by their place among the `BLOCK_STATE` objects. -/
def Dev.hasBlock (d : Dev) (i : Nat) : Bool :=
  i == 0 || (decide (1 ≤ i) && decide (i ≤ d.stacks)) || (decide (9 ≤ i) && decide (i < 9 + d.ports / 2))
    || (decide (13 ≤ i) && decide (i < 13 + d.nLinks)) || i == 19

/-- Blocks leave reset for wait-lock. -/
def Dev.releaseBlocks (d : Dev) (p : Nat → Bool) : Dev :=
  d.modPwr (fun w => { w with bs := w.bs.zipIdx.map (fun (e : Nat × Nat) => if e.1 = 0 && d.hasBlock e.2 && p e.2 then 1 else e.1) })

/-- Blocks enter reset. -/
def Dev.holdBlocks (d : Dev) (p : Nat → Bool) : Dev :=
  d.modPwr (fun w => { w with bs := w.bs.zipIdx.map (fun (e : Nat × Nat) => if p e.2 then 0 else e.1) })

/-- Step 3 of R430, where system reset is held and `RESET_N` is high. At power-on the ward takes `REFCLK_FREQ` from the
object store. -/
def Dev.leaveReset (d : Dev) : Dev :=
  if d.pwr.phase ≠ .sysReset || !d.pwr.resetN then d
  else
    let d := if d.pwr.firstInit then
        match d.wrd.store with
        | some s => d.setObj 0x7100 3 ((tget? s.objs (okey 0x7100 3)).getD 0)
        | none => d
      else d
    let d := ({ d with jnl := { d.jnl with start := d.time80 } }).record 1 1 0
    (d.releaseBlocks (fun _ => true)).modPwr (fun w => { w with phase := .init })

/-- A reset that the ward is asked for cuts the epoch's last checkpoint first (R300, R426); every checkpoint cut is
written. -/
def Dev.closeEpoch (d : Dev) : Dev :=
  let d := d.cut 3
  (List.range d.jnl.cuts.length).foldl (fun d _ => d.ckptWrite) d

/-- Admission is open or contexts are Active: a system reset asked for is refused (R426). -/
def Dev.refusesReset (d : Dev) : Bool := d.ctxActive != 0 || d.flag 0x3000 1

/-- SYS_RESET_CMD, and a full soft reset written by a session. -/
def Dev.askReset (d : Dev) : Dev := if d.refusesReset then d.bump 0xB001 3 else (d.closeEpoch.sysReset 5).leaveReset

/-- RESET_N_ASSERT after a low time; between 450 ns and 550 ns either may happen (R449). -/
def Dev.resetLow (d : Dev) (lowNs : Nat) : Dev :=
  let (z, d) := d.drawNat 2
  if lowNs < 450 || (lowNs < 550 && z = 0) then d
  else
    let d := d.modPwr (fun w => { w with resetN := false })
    if d.mainUp then d.sysReset 4 else if d.wrd.up then d.resetCause 4 else d

/-- RESET_N_RELEASE. -/
def Dev.resetHigh (d : Dev) : Dev := (d.modPwr (fun w => { w with resetN := true })).leaveReset

/-! ### Power (R422, R423, R430, R438) -/

/-- The rails of `VDD_*` in the order of their readings. -/
def allRails (b : Bool) : List Bool := List.replicate 6 b

/-- `THERM_TRIP_N` is released by a power-on reset that finds every sensor below 95 °C. -/
def Dev.tripCheck (d : Dev) : Dev := if d.hot then d else d.modPwr (fun w => { w with tripLow := false })

/-- A power-on that follows a thermal trip. -/
def Dev.tripCause (d : Dev) : Dev := if d.pwr.tripped then (d.resetCause 3).modPwr (fun w => { w with tripped := false }) else d

/-- What the main rails take with them: everything but the auxiliary domain and what the seal store keeps. -/
def Dev.losePower (d : Dev) (kept : Nat → Bool) : Dev :=
  let d := d.accrue
  let used := d.boostMs
  let d := { d.clearPath with mem := memInit, tb := tbInit, tai := 0 }
  let d := { d with fab := fabInit, wrd := { d.wrd with imgs := [] }, flt := faultsInit }
  let d := (d.keepObjs kept).newEpoch false
  d.modPwr (fun w => { w with
    cr := .idle, firstInit := true, bs := List.replicate 20 0, setMv := 750, minPace := 0, boosting := false,
    usedMs := w.usedMs + used, bist := none, tap := .reset, ir := tapIdcode, dr := [], drOut := [], tdo := none, govAt := d.up, pollAt := d.up, avsSince := d.up })

/-- MAIN_POWER_LOSS of a main rail. -/
def Dev.mainLoss (d : Dev) (r : Rail) : Dev :=
  if r = .aux then d
  else
    let d := d.modPwr (fun w => { w with mainOk := lset w.mainOk (Rail.num r) false })
    if !d.mainUp then d
    else
      let d := d.losePower keptMain
      let d := d.modWrd (fun w => { w.closePcie with storeBusy := 0 })
      let d := (d.modPwr (fun w => { w with phase := .mainOff })).resetCause 2
      d.tripCause.wardLog logMain (leOctets 2 (d.obj 0xB000 1))

/-- MAIN_POWER_GOOD: step 2; step 3 follows where `RESET_N` is high. -/
def Dev.mainGood (d : Dev) : Dev :=
  if d.pwr.phase ≠ .mainOff then d
  else
    (d.modPwr (fun w => { w with
      phase := .sysReset, mainOk := allRails true, accrAt := d.up, govAt := d.up, pollAt := d.up, avsSince := d.up })).tripCheck.leaveReset

/-- AUX_POWER_LOSS: the ward's memory, the mesh and the ring go too; the seal store keeps firmware, images of it, the
object store, secrets, log and wear. -/
def Dev.auxLoss (d : Dev) : Dev :=
  if d.pwr.phase = .auxOff then d
  else
    let d := if d.mainUp then d.losePower keptAux else d.keepObjs keptAux
    let w := d.wardForget.wrd
    let d := { d with
      rng := rngInit, cry := { d.cry with meshFail := 0, mesh := 0 },
      wrd := { wrdInit with
        fwA := w.fwA, fwB := w.fwB, fwActive := w.fwActive, trialAt := w.trialAt, rollback := w.rollback, fwVer := w.fwVer,
        stores := w.stores, storeCur := w.storeCur, secrets := w.secrets, kSet := w.kSet, log := w.log, logCount := w.logCount,
        sealMem := w.sealMem } }
    (d.modPwr (fun p => { p with phase := .auxOff, tripLow := false, above := List.replicate 5 false })).tripCause

/-- AUX_POWER_GOOD: step 1. The mask ROM boots the ward. -/
def Dev.auxGood (d : Dev) : Dev :=
  if d.pwr.phase ≠ .auxOff then d
  else
    let d := (d.modPwr (fun w => { w with phase := .mainOff, sampleAt := d.up })).modWrd (fun w => { w with up := true })
    d.tripCheck.trialRestart.wardBoot

/-! ### Positions (R440) and initialisation (R430 steps 4 and 5) -/

/-- The positions of a die assigned afresh. -/
def Dev.assignDie (d : Dev) (die : Nat) : Dev :=
  let map := d.pwr.repair.getD die 0
  let bad (p : Nat) : Bool := bit map (p % 34)
  let ps := upFrom (34 * die) 34
  let good := ps.filter (fun p => !bad p)
  let d := (ps.filter bad).foldl (fun d p => d.modPos p (fun _ => { posInit with st := .failed })) d
  let d := good.zipIdx.foldl (fun d (e : Nat × Nat) => d.modPos e.1 (fun _ =>
    if e.2 < 32 then { posInit with st := .inService, logical := some (32 * die + e.2), rq := posInit.rq.map sqEnable }
    else { posInit with st := .standby, spare := true })) d
  if good.length < 32 then d.report 0x1D (faultLoc 2 die) else d

def Dev.assign (d : Dev) : Dev := (List.range d.dies).foldl Dev.assignDie d

/-- POWERON_INIT_DONE: the HBM PHYs run; structures initialised, positions assigned, the stored set restored if
`RESTORE_AT_RESET` is true. -/
def Dev.initDone (d : Dev) : Dev :=
  if d.pwr.phase ≠ .init || !d.hbmUp then d
  else
    let d := if d.pwr.firstInit then { d with fab := { d.fab with gens := [] }, mem := { d.mem with present := [] } } else d
    let d := (d.poolStates.assign.loadRoutes).modPwr (fun w => { w with phase := .running, firstInit := false })
    if d.flag 0x1010 3 && d.wrd.state = 0 && d.wrd.store.isSome then d.restoreAsk 0xFF 0 else d

/-! ### Core reset (R425, R426) and the fabric's soft reset (R427) -/

/-- A life put in the order of fallback points. -/
def insLife (x : Life) : List Life → List Life
  | [] => [x]
  | y :: r => if x.fb < y.fb then x :: y :: r else y :: insLife x r

/-- Steps 1 and 2: admission is closed; every context that is not Claimed is answered and purged in the order of fallback
points, and a Claimed one whose response is complete is purged. -/
def Dev.coreStart (d : Dev) (cause : Nat) : Dev :=
  let d := ((d.resetCause cause).bump 0xB000 2).modPwr (fun w => { w with cr := .walking })
  let d := { d with flt := { d.flt with resetPending := false, resetSrc := 0 } }
  let ls := d.key.lives.map (·.2)
  let d := ((ls.filter (fun l => l.st != .claimed)).foldr insLife []).foldl (fun d l => d.fallback l.ctx) d
  (ls.filter (fun l => l.st == .claimed && l.respDone)).foldl (fun d l => d.purge l false 0) d

/-- A core reset runs or deadbolt action 3 is pending. -/
def Dev.coreBusy (d : Dev) : Bool := d.pwr.cr != .idle || d.flt.resetPending

/-- CORE_RESET_CMD. -/
def Dev.coreCmd (d : Dev) (v : Nat) : Dev :=
  if v ≠ 1 || d.pwr.phase ≠ .running then d else if d.coreBusy then d.bump 0xB001 3 else d.coreStart 8

/-- DEADBOLT_CORE_RESET: under action 3, `CTX_ACTIVE` has reached 0. -/
def Dev.boltReset (d : Dev) : Dev :=
  if d.flt.resetPending && d.ctxActive == 0 && d.pwr.cr == .idle && d.pwr.phase == .running then d.coreStart 9 else d

/-- Orphaned locks are written to the ward log (R238). -/
def Dev.logOrphans (d : Dev) : Dev :=
  d.orphans.foldl (fun d (e : Nat × LockEnt) => d.wardLog logOrphan (leOctets 20 e.2.pack)) d

/-- The counter blocks of the fabric dies cleared. -/
def Dev.clearDieCounters (d : Dev) : Dev :=
  { d with perf := { d.perf with ctrs := d.perf.ctrs.filter (fun (e : Nat × Ctr) => d.dies ≤ e.1 / 8), slots := [] } }

/-- CORE_RESET_WALK_DONE: every context is answered; the records of purges whose reclamation is left out are appended, the
hasp unit acts, the fabric is held in reset (step 3). -/
def Dev.walkDone (d : Dev) : Dev :=
  if d.pwr.cr ≠ .walking || d.ctxActive ≠ 0 then d
  else
    let d := d.key.reclaim.foldl (fun d (x : Reclaim) => x.late.foldl Dev.journalPut (d.journalPut x.jrec)) { d with key := { d.key with reclaim := [] } }
    let d := d.haspOrphanAll.logOrphans
    let d := ({ d with
      mem := { d.mem with defers := [], sweep := 0 }, cry := { d.cry with slots := [], tq := [], lq := [] } }).endDeletes
    ((d.clearFabric d.fab.noc.place).clearDieCounters).modPwr (fun w => { w with cr := .reinit })

/-- Step 2 of R381 again for every Active graph image. -/
def Dev.reinstall (d : Dev) : Dev :=
  (d.wrd.imgs.filter (fun (e : Nat × Img) => inPage e.1 0xD0 && e.2.st == .active)).foldl
    (fun d (e : Nat × Img) => (d.installGraph (imgSlotOf e.1) e.2.octets).usableNow (imgSlotOf e.1)) d

/-- Step 5. -/
def Dev.coreRelease (d : Dev) : Dev := (d.assign.loadRoutes.reinstall).modPwr (fun w => { w with cr := .idle })

/-- CORE_RESET_REINIT_DONE: step 4 is done; step 5 follows, unless `SR_FABRIC` holds the fabric. -/
def Dev.reinitDone (d : Dev) : Dev :=
  if d.pwr.cr ≠ .reinit then d
  else
    let d := ({ d with key := { d.key with freshCtx := 0, freeTail := [] } }).poolStates
    if d.held 0 then d.modPwr (fun w => { w with cr := .held }) else d.coreRelease

/-! ### Soft resets of the FY-840S (R427, R428) -/

/-- Clocked blocks by soft reset bit: PCIe, links, Ethernet. -/
def isPcie (i : Nat) : Bool := i == 19
def isLinkBlk (i : Nat) : Bool := decide (13 ≤ i) && decide (i < 19)
def isEthBlk (i : Nat) : Bool := decide (9 ≤ i) && decide (i < 13)

/-- Objects of pages at their defaults. -/
def Dev.pageDefaults (d : Dev) (ps : List Nat) : Dev := d.keepObjs (fun k => !ps.contains (keyPage k))

/-- A bit that becomes 1. -/
def Dev.softSet (d : Dev) (b : Nat) : Dev :=
  match b with
  | 7 => { d with rng := d.rng.leave }
  | 6 =>
    let qs := d.cry.tq ++ d.cry.lq
    let d := { d.endCalls with cry := { d.endCalls.cry with tq := [], lq := [], cached := [], drbg := 15, reqs := [], seededAt := [] } }
    (qs.foldl (fun d c => d.callFail c 9) d).endDeletes
  | 5 => d.pcieReset.holdBlocks isPcie
  | 4 => ((List.range d.nLinks).foldl Dev.linkDisable d).holdBlocks isLinkBlk
  | 3 =>
    let d := { d with
      ses := sesUInit, lnk := { d.lnk with split := [] }, key := { d.key with signals := [] },
      cry := { d.cry with slot8 := d.cry.slot8.map (fun (e : Nat × List Job) => (e.1, e.2.filter (fun j => match j with
        | .handshake _ => false
        | _ => true))) } }
    (d.pageDefaults [0x40, 0x41, 0x42, 0x43, 0x44, 0x45, 0x82]).holdBlocks isEthBlk
  | 2 => { d with hasp := haspInit }
  | 1 =>
    let d := ({ d with key := { d.key with rot := [] } }).pageDefaults [0x30, 0x31, 0x32]
    { d with fab := { d.fab with pos := d.fab.pos.map (fun (e : Nat × Pos) => (e.1, { e.2 with credit := 0 })) } }
  | _ => if d.coreBusy then d.bump 0xB001 3 else d.coreStart 8

/-- A bit that becomes 0. -/
def Dev.softClear (d : Dev) (b : Nat) : Dev :=
  match b with
  | 5 => d.releaseBlocks isPcie
  | 4 => d.releaseBlocks isLinkBlk
  | 3 => d.releaseBlocks isEthBlk
  | 0 => if d.pwr.cr = .held then d.coreRelease else d
  | _ => d

/-- A write of `SOFT_RESET`: every bit that changes acts, highest first; `SR_KEYWAY` is left as it is while contexts are
Active. -/
def Dev.softWrite (d : Dev) (v : Nat) : Dev :=
  let old := d.obj 0xB002 1
  let v := if bit v 1 && !bit old 1 && d.ctxActive != 0 then v - 2 else v
  let d := d.setObj 0xB002 1 v
  if d.pwr.phase ≠ .running then d
  else (srChanged old v).foldl (fun d b => if bit v b then d.softSet b else d.softClear b) d

/-! ### Deadbolts (R391, R393) and PLLs (R429) -/

/-- GRACE_EXPIRY of a source: the deadbolt is taken; action 4 resets at once. -/
def Dev.graceExpiry (d : Dev) (s : Nat) : Dev :=
  if (d.src s).boltDue d.up then
    let d := d.deadboltOf s
    if (d.src s).action = 4 then (d.sysReset (if s = 0x71 then 7 else 6)).leaveReset else d
  else d

/-- PLL_LOCK of a block in wait-lock. -/
def Dev.pllUp (d : Dev) (b : Nat) : Dev :=
  if d.pwr.bs.getD b 0 ≠ 1 then d
  else
    let d := d.modPwr (fun w => { w with bs := lset w.bs b 2 })
    if b = 0 then d.accrue.tbStart else d

/-- The location of a clocked block. -/
def blockLoc (b : Nat) : Nat :=
  if b = 0 || b = 19 then 0 else if b < 9 then faultLoc 3 (b - 1) else if b < 13 then faultLoc 5 (2 * (b - 9)) else faultLoc 4 (b - 13)

/-- PLL_LOCK_LOST of a running block: the timebase follows R311. -/
def Dev.pllDown (d : Dev) (b : Nat) : Dev :=
  if d.pwr.bs.getD b 0 ≠ 2 then d
  else if b = 0 then d.refLost
  else
    let d := (d.modPwr (fun w => { w with bs := lset w.bs b 1 })).report 0x74 (blockLoc b)
    if isLinkBlk b then d.linkLost (b - 13) else if isPcie b then d.pcieReset else d

/-! ### Meanings -/

/-- GRACE_EXPIRY (R391). -/
def execGraceExpiry (src : Nat) (s : State) : Res := s.act (fun d => d.graceExpiry src)
/-- DEADBOLT_CORE_RESET (R393). -/
def execDeadboltCoreReset (s : State) : Res := s.act Dev.boltReset
/-- AUX_POWER_LOSS (R422). -/
def execAuxPowerLoss (s : State) : Res := s.act Dev.auxLoss
/-- AUX_POWER_GOOD (R430). -/
def execAuxPowerGood (s : State) : Res := s.act Dev.auxGood
/-- MAIN_POWER_LOSS (R422). -/
def execMainPowerLoss (rail : Rail) (s : State) : Res := s.act (fun d => d.mainLoss rail)
/-- MAIN_POWER_GOOD (R430). -/
def execMainPowerGood (s : State) : Res := s.act Dev.mainGood
/-- RESET_N_ASSERT (R449). -/
def execResetNAssert (lowNs : Nat) (s : State) : Res := s.act (fun d => d.resetLow lowNs)
/-- RESET_N_RELEASE (R430). -/
def execResetNRelease (s : State) : Res := s.act Dev.resetHigh
/-- POWERON_INIT_DONE (R430). -/
def execPoweronInitDone (s : State) : Res := s.act Dev.initDone
/-- SYS_RESET_CMD (R426). -/
def execSysResetCmd (r : DReq) (s : State) : Res := s.act (fun d => d.command r .sysReset (fun _ v d => if v = 1 then d.askReset else d))
/-- CORE_RESET_CMD (R425, R426). -/
def execCoreResetCmd (r : DReq) (s : State) : Res := s.act (fun d => d.command r .coreReset (fun _ v d => d.coreCmd v))
/-- CORE_RESET_WALK_DONE (R425). -/
def execCoreResetWalkDone (s : State) : Res := s.act Dev.walkDone
/-- CORE_RESET_REINIT_DONE (R425). -/
def execCoreResetReinitDone (s : State) : Res := s.act Dev.reinitDone
/-- SR_RING (R427). -/
def execSrRing (r : DReq) (s : State) : Res := s.act (fun d => d.command r (.sr 7) (fun _ v d => d.softWrite v))
/-- SR_CRYPTO (R427). -/
def execSrCrypto (r : DReq) (s : State) : Res := s.act (fun d => d.command r (.sr 6) (fun _ v d => d.softWrite v))
/-- SR_PCIE (R427). -/
def execSrPcie (r : DReq) (s : State) : Res := s.act (fun d => d.command r (.sr 5) (fun _ v d => d.softWrite v))
/-- SR_LINKS (R427). -/
def execSrLinks (r : DReq) (s : State) : Res := s.act (fun d => d.command r (.sr 4) (fun _ v d => d.softWrite v))
/-- SR_ETH (R427). -/
def execSrEth (r : DReq) (s : State) : Res := s.act (fun d => d.command r (.sr 3) (fun _ v d => d.softWrite v))
/-- SR_HASP (R427). -/
def execSrHasp (r : DReq) (s : State) : Res := s.act (fun d => d.command r (.sr 2) (fun _ v d => d.softWrite v))
/-- SR_KEYWAY (R427). -/
def execSrKeyway (r : DReq) (s : State) : Res := s.act (fun d => d.command r (.sr 1) (fun _ v d => d.softWrite v))
/-- SR_FABRIC (R427). -/
def execSrFabric (r : DReq) (s : State) : Res := s.act (fun d => d.command r (.sr 0) (fun _ v d => d.softWrite v))
/-- FULL_SOFT_RESET (R428). -/
def execFullSoftReset (r : DReq) (s : State) : Res := s.act (fun d => d.command r .fullSoft (fun _ _ d => d.askReset))
/-- PLL_LOCK (R429). -/
def execPllLock (block : Nat) (s : State) : Res := s.act (fun d => d.pllUp block)
/-- PLL_LOCK_LOST (R429). -/
def execPllLockLost (block : Nat) (s : State) : Res := s.act (fun d => d.pllDown block)

end Sys2Proof.Machine
end

