-- ==== Sys2Proof/Machine/Dispatch.lean ====
section
/-! DEFINITION. The meaning of every command, by name: one arm per constructor. -/

namespace Sys2Proof.Machine

def exec (i : Instr) (s : State) : Host.Outcome State Fault Refusal :=
  match i with
  | .tlsRecordReceive ses wire rec => Sys2Proof.Machine.execTlsRecordReceive ses wire rec s
  | .sharedRingMessageWrite ring => Sys2Proof.Machine.execSharedRingMessageWrite ring s
  | .tcpSegmentReceive port seg => Sys2Proof.Machine.execTcpSegmentReceive port seg s
  | .tcpRetransmitTimeout ses => Sys2Proof.Machine.execTcpRetransmitTimeout ses s
  | .keepaliveTimer ses => Sys2Proof.Machine.execKeepaliveTimer ses s
  | .sesEnable r => Sys2Proof.Machine.execSesEnable r s
  | .sesOperatorClose r => Sys2Proof.Machine.execSesOperatorClose r s
  | .sesDisable r => Sys2Proof.Machine.execSesDisable r s
  | .connectTimeout ses => Sys2Proof.Machine.execConnectTimeout ses s
  | .handshakeStart ses => Sys2Proof.Machine.execHandshakeStart ses s
  | .handshakeComplete ses peer => Sys2Proof.Machine.execHandshakeComplete ses peer s
  | .handshakeTimeout ses => Sys2Proof.Machine.execHandshakeTimeout ses s
  | .closingTimeout ses => Sys2Proof.Machine.execClosingTimeout ses s
  | .backoffExpiry ses => Sys2Proof.Machine.execBackoffExpiry ses s
  | .egressRecordSend ring => Sys2Proof.Machine.execEgressRecordSend ring s
  | .pfcRenew port => Sys2Proof.Machine.execPfcRenew port s
  | .ingressEnableWrite r => Sys2Proof.Machine.execIngressEnableWrite r s
  | .ringEnable r => Sys2Proof.Machine.execRingEnable r s
  | .ringDisable r => Sys2Proof.Machine.execRingDisable r s
  | .overrunClear r => Sys2Proof.Machine.execOverrunClear r s
  | .watermarkWrite r => Sys2Proof.Machine.execWatermarkWrite r s
  | .keywayTakeSignal => Sys2Proof.Machine.execKeywayTakeSignal s
  | .rejectLaneWrite => Sys2Proof.Machine.execRejectLaneWrite s
  | .lexRecord ring => Sys2Proof.Machine.execLexRecord ring s
  | .dueTimeExpiry ctx => Sys2Proof.Machine.execDueTimeExpiry ctx s
  | .fallbackPointExpiry ctx => Sys2Proof.Machine.execFallbackPointExpiry ctx s
  | .deadlinePurgeExpiry ctx => Sys2Proof.Machine.execDeadlinePurgeExpiry ctx s
  | .drainTick => Sys2Proof.Machine.execDrainTick s
  | .paceWindowEnd readings => Sys2Proof.Machine.execPaceWindowEnd readings s
  | .forceStandin r => Sys2Proof.Machine.execForceStandin r s
  | .respond site => Sys2Proof.Machine.execRespond site s
  | .forward site => Sys2Proof.Machine.execForward site s
  | .sessionOf site => Sys2Proof.Machine.execSessionOf site s
  | .responseLastByte ctx => Sys2Proof.Machine.execResponseLastByte ctx s
  | .reclaimDone ctx => Sys2Proof.Machine.execReclaimDone ctx s
  | .journalAppend lane => Sys2Proof.Machine.execJournalAppend lane s
  | .ckptIntervalExpiry => Sys2Proof.Machine.execCkptIntervalExpiry s
  | .ckptRequest r => Sys2Proof.Machine.execCkptRequest r s
  | .ckptSignDone => Sys2Proof.Machine.execCkptSignDone s
  | .jnlExportAck n => Sys2Proof.Machine.execJnlExportAck n s
  | .routerHop router inp vc => Sys2Proof.Machine.execRouterHop router inp vc s
  | .vc2Escape router inp vc => Sys2Proof.Machine.execVc2Escape router inp vc s
  | .matchArrival pos vc => Sys2Proof.Machine.execMatchArrival pos vc s
  | .overflowProbeDone pos key => Sys2Proof.Machine.execOverflowProbeDone pos key s
  | .matchSweepTick pos key => Sys2Proof.Machine.execMatchSweepTick pos key s
  | .writebackLink pos => Sys2Proof.Machine.execWritebackLink pos s
  | .spillBurstDone q => Sys2Proof.Machine.execSpillBurstDone q s
  | .spillRefillDone q => Sys2Proof.Machine.execSpillRefillDone q s
  | .dispatch pos => Sys2Proof.Machine.execDispatch pos s
  | .frameFetchDone pos ctx => Sys2Proof.Machine.execFrameFetchDone pos ctx s
  | .piSignal => Sys2Proof.Machine.execPiSignal s
  | .codeReloadDone pos => Sys2Proof.Machine.execCodeReloadDone pos s
  | .fabricStallDetect die => Sys2Proof.Machine.execFabricStallDetect die s
  | .slotTick pos => Sys2Proof.Machine.execSlotTick pos s
  | .pass site => Sys2Proof.Machine.execPass site s
  | .steer site => Sys2Proof.Machine.execSteer site s
  | .merge site => Sys2Proof.Machine.execMerge site s
  | .sync site => Sys2Proof.Machine.execSync site s
  | .const site => Sys2Proof.Machine.execConst site s
  | .sel site => Sys2Proof.Machine.execSel site s
  | .swap site => Sys2Proof.Machine.execSwap site s
  | .gate site => Sys2Proof.Machine.execGate site s
  | .feat site => Sys2Proof.Machine.execFeat site s
  | .time site => Sys2Proof.Machine.execTime site s
  | .ctxid site => Sys2Proof.Machine.execCtxid site s
  | .raise site => Sys2Proof.Machine.execRaise site s
  | .add site => Sys2Proof.Machine.execAdd site s
  | .adc site => Sys2Proof.Machine.execAdc site s
  | .sub site => Sys2Proof.Machine.execSub site s
  | .sbb site => Sys2Proof.Machine.execSbb site s
  | .neg site => Sys2Proof.Machine.execNeg site s
  | .abs site => Sys2Proof.Machine.execAbs site s
  | .inc site => Sys2Proof.Machine.execInc site s
  | .dec site => Sys2Proof.Machine.execDec site s
  | .mul site => Sys2Proof.Machine.execMul site s
  | .mulh site => Sys2Proof.Machine.execMulh site s
  | .mulhu site => Sys2Proof.Machine.execMulhu site s
  | .div site => Sys2Proof.Machine.execDiv site s
  | .divu site => Sys2Proof.Machine.execDivu site s
  | .mac site => Sys2Proof.Machine.execMac site s
  | .msub site => Sys2Proof.Machine.execMsub site s
  | .min site => Sys2Proof.Machine.execMin site s
  | .max site => Sys2Proof.Machine.execMax site s
  | .minu site => Sys2Proof.Machine.execMinu site s
  | .maxu site => Sys2Proof.Machine.execMaxu site s
  | .and site => Sys2Proof.Machine.execAnd site s
  | .or site => Sys2Proof.Machine.execOr site s
  | .xor site => Sys2Proof.Machine.execXor site s
  | .not site => Sys2Proof.Machine.execNot site s
  | .andn site => Sys2Proof.Machine.execAndn site s
  | .orn site => Sys2Proof.Machine.execOrn site s
  | .xnor site => Sys2Proof.Machine.execXnor site s
  | .band site => Sys2Proof.Machine.execBand site s
  | .bor site => Sys2Proof.Machine.execBor site s
  | .bxor site => Sys2Proof.Machine.execBxor site s
  | .bnot site => Sys2Proof.Machine.execBnot site s
  | .shl site => Sys2Proof.Machine.execShl site s
  | .shr site => Sys2Proof.Machine.execShr site s
  | .sar site => Sys2Proof.Machine.execSar site s
  | .rol site => Sys2Proof.Machine.execRol site s
  | .ror site => Sys2Proof.Machine.execRor site s
  | .clz site => Sys2Proof.Machine.execClz site s
  | .ctz site => Sys2Proof.Machine.execCtz site s
  | .popc site => Sys2Proof.Machine.execPopc site s
  | .bext site => Sys2Proof.Machine.execBext site s
  | .bextu site => Sys2Proof.Machine.execBextu site s
  | .bins site => Sys2Proof.Machine.execBins site s
  | .bperm site => Sys2Proof.Machine.execBperm site s
  | .sext site => Sys2Proof.Machine.execSext site s
  | .zext site => Sys2Proof.Machine.execZext site s
  | .pdep site => Sys2Proof.Machine.execPdep site s
  | .pext site => Sys2Proof.Machine.execPext site s
  | .hash site => Sys2Proof.Machine.execHash site s
  | .crc32c site => Sys2Proof.Machine.execCrc32c site s
  | .ceq site => Sys2Proof.Machine.execCeq site s
  | .cne site => Sys2Proof.Machine.execCne site s
  | .clt site => Sys2Proof.Machine.execClt site s
  | .cle site => Sys2Proof.Machine.execCle site s
  | .cltu site => Sys2Proof.Machine.execCltu site s
  | .cleu site => Sys2Proof.Machine.execCleu site s
  | .ctst site => Sys2Proof.Machine.execCtst site s
  | .cbit site => Sys2Proof.Machine.execCbit site s
  | .ceqb site => Sys2Proof.Machine.execCeqb site s
  | .cneb site => Sys2Proof.Machine.execCneb site s
  | .cltb site => Sys2Proof.Machine.execCltb site s
  | .cleb site => Sys2Proof.Machine.execCleb site s
  | .cltub site => Sys2Proof.Machine.execCltub site s
  | .cleub site => Sys2Proof.Machine.execCleub site s
  | .ctstb site => Sys2Proof.Machine.execCtstb site s
  | .cbitb site => Sys2Proof.Machine.execCbitb site s
  | .flgr site => Sys2Proof.Machine.execFlgr site s
  | .flgw site => Sys2Proof.Machine.execFlgw site s
  | .flgtas site => Sys2Proof.Machine.execFlgtas site s
  | .setbank site => Sys2Proof.Machine.execSetbank site s
  | .getbank site => Sys2Proof.Machine.execGetbank site s
  | .settrap site => Sys2Proof.Machine.execSettrap site s
  | .setsub site => Sys2Proof.Machine.execSetsub site s
  | .setrnd site => Sys2Proof.Machine.execSetrnd site s
  | .getmode site => Sys2Proof.Machine.execGetmode site s
  | .i2fx site => Sys2Proof.Machine.execI2fx site s
  | .fx2i site => Sys2Proof.Machine.execFx2i site s
  | .fx2f site => Sys2Proof.Machine.execFx2f site s
  | .f2fx site => Sys2Proof.Machine.execF2fx site s
  | .i2f site => Sys2Proof.Machine.execI2f site s
  | .f2i site => Sys2Proof.Machine.execF2i site s
  | .f2iu site => Sys2Proof.Machine.execF2iu site s
  | .bcd2i site => Sys2Proof.Machine.execBcd2i site s
  | .i2bcd site => Sys2Proof.Machine.execI2bcd site s
  | .dec2i site => Sys2Proof.Machine.execDec2i site s
  | .i2dec site => Sys2Proof.Machine.execI2dec site s
  | .eb2as site => Sys2Proof.Machine.execEb2as site s
  | .as2eb site => Sys2Proof.Machine.execAs2eb site s
  | .bswap site => Sys2Proof.Machine.execBswap site s
  | .brev site => Sys2Proof.Machine.execBrev site s
  | .fadd site => Sys2Proof.Machine.execFadd site s
  | .fsub site => Sys2Proof.Machine.execFsub site s
  | .fmul site => Sys2Proof.Machine.execFmul site s
  | .fdiv site => Sys2Proof.Machine.execFdiv site s
  | .fsqrt site => Sys2Proof.Machine.execFsqrt site s
  | .fma site => Sys2Proof.Machine.execFma site s
  | .fmin site => Sys2Proof.Machine.execFmin site s
  | .fmax site => Sys2Proof.Machine.execFmax site s
  | .fneg site => Sys2Proof.Machine.execFneg site s
  | .fabs site => Sys2Proof.Machine.execFabs site s
  | .fceq site => Sys2Proof.Machine.execFceq site s
  | .fclt site => Sys2Proof.Machine.execFclt site s
  | .fcle site => Sys2Proof.Machine.execFcle site s
  | .fcun site => Sys2Proof.Machine.execFcun site s
  | .frint site => Sys2Proof.Machine.execFrint site s
  | .fclass site => Sys2Proof.Machine.execFclass site s
  | .ld site => Sys2Proof.Machine.execLd site s
  | .ldb site => Sys2Proof.Machine.execLdb site s
  | .ldbu site => Sys2Proof.Machine.execLdbu site s
  | .ldh site => Sys2Proof.Machine.execLdh site s
  | .ldhu site => Sys2Proof.Machine.execLdhu site s
  | .ldw site => Sys2Proof.Machine.execLdw site s
  | .ldwu site => Sys2Proof.Machine.execLdwu site s
  | .st site => Sys2Proof.Machine.execSt site s
  | .stb site => Sys2Proof.Machine.execStb site s
  | .sth site => Sys2Proof.Machine.execSth site s
  | .stw site => Sys2Proof.Machine.execStw site s
  | .ird site => Sys2Proof.Machine.execIrd site s
  | .iwr site => Sys2Proof.Machine.execIwr site s
  | .iclr site => Sys2Proof.Machine.execIclr site s
  | .aadd site => Sys2Proof.Machine.execAadd site s
  | .aand site => Sys2Proof.Machine.execAand site s
  | .aor site => Sys2Proof.Machine.execAor site s
  | .axor site => Sys2Proof.Machine.execAxor site s
  | .axchg site => Sys2Proof.Machine.execAxchg site s
  | .acas site => Sys2Proof.Machine.execAcas site s
  | .amin site => Sys2Proof.Machine.execAmin site s
  | .amax site => Sys2Proof.Machine.execAmax site s
  | .lock site => Sys2Proof.Machine.execLock site s
  | .trylock site => Sys2Proof.Machine.execTrylock site s
  | .unlock site => Sys2Proof.Machine.execUnlock site s
  | .orphanBreak r => Sys2Proof.Machine.execOrphanBreak r s
  | .bld site => Sys2Proof.Machine.execBld site s
  | .bst site => Sys2Proof.Machine.execBst site s
  | .btas site => Sys2Proof.Machine.execBtas site s
  | .btac site => Sys2Proof.Machine.execBtac site s
  | .bflip site => Sys2Proof.Machine.execBflip site s
  | .blts site => Sys2Proof.Machine.execBlts site s
  | .deferralSweepTick => Sys2Proof.Machine.execDeferralSweepTick s
  | .sigSign site => Sys2Proof.Machine.execSigSign site s
  | .sigVerify site => Sys2Proof.Machine.execSigVerify site s
  | .sigVerifyV15 site => Sys2Proof.Machine.execSigVerifyV15 site s
  | .gcmSeal site => Sys2Proof.Machine.execGcmSeal site s
  | .gcmOpen site => Sys2Proof.Machine.execGcmOpen site s
  | .cmacGen site => Sys2Proof.Machine.execCmacGen site s
  | .cmacVerify site => Sys2Proof.Machine.execCmacVerify site s
  | .hmacGen site => Sys2Proof.Machine.execHmacGen site s
  | .hmacVerify site => Sys2Proof.Machine.execHmacVerify site s
  | .digest site => Sys2Proof.Machine.execDigest site s
  | .pinXlate site => Sys2Proof.Machine.execPinXlate site s
  | .pinXlateDukpt site => Sys2Proof.Machine.execPinXlateDukpt site s
  | .random site => Sys2Proof.Machine.execRandom site s
  | .customerLogicCall site => Sys2Proof.Machine.execCustomerLogicCall site s
  | .cryptoSlotStart slot => Sys2Proof.Machine.execCryptoSlotStart slot s
  | .cryptoCallComplete slot => Sys2Proof.Machine.execCryptoCallComplete slot s
  | .masterKeyCmd r => Sys2Proof.Machine.execMasterKeyCmd r s
  | .keyDelete r => Sys2Proof.Machine.execKeyDelete r s
  | .importCmd r => Sys2Proof.Machine.execImportCmd r s
  | .exportCmd r => Sys2Proof.Machine.execExportCmd r s
  | .component r => Sys2Proof.Machine.execComponent r s
  | .genCmd r => Sys2Proof.Machine.execGenCmd r s
  | .zeroize r => Sys2Proof.Machine.execZeroize r s
  | .meshCompare ret => Sys2Proof.Machine.execMeshCompare ret s
  | .glitchDetect => Sys2Proof.Machine.execGlitchDetect s
  | .zeroizeSealDone => Sys2Proof.Machine.execZeroizeSealDone s
  | .entropyTestFail => Sys2Proof.Machine.execEntropyTestFail s
  | .drbgReseed inst => Sys2Proof.Machine.execDrbgReseed inst s
  | .drbgRestart r => Sys2Proof.Machine.execDrbgRestart r s
  | .ppsInEdge frac => Sys2Proof.Machine.execPpsInEdge frac s
  | .taiSet r => Sys2Proof.Machine.execTaiSet r s
  | .taiStepApply => Sys2Proof.Machine.execTaiStepApply s
  | .taiSlewNs r => Sys2Proof.Machine.execTaiSlewNs r s
  | .tbSourceWrite r => Sys2Proof.Machine.execTbSourceWrite r s
  | .sourceLossTimeout => Sys2Proof.Machine.execSourceLossTimeout s
  | .refclkLockLost => Sys2Proof.Machine.execRefclkLockLost s
  | .refclkLockRegained => Sys2Proof.Machine.execRefclkLockRegained s
  | .ppsOutPulse => Sys2Proof.Machine.execPpsOutPulse s
  | .ptpMessageReceive port m => Sys2Proof.Machine.execPtpMessageReceive port m s
  | .ptpSyncSend port => Sys2Proof.Machine.execPtpSyncSend port s
  | .ringTimeSend => Sys2Proof.Machine.execRingTimeSend s
  | .ringFrameForward port f tail => Sys2Proof.Machine.execRingFrameForward port f tail s
  | .ringTimeFrameReceive port f ps => Sys2Proof.Machine.execRingTimeFrameReceive port f ps s
  | .ringFaultFrameReceive f => Sys2Proof.Machine.execRingFaultFrameReceive f s
  | .ringClaimReceive f => Sys2Proof.Machine.execRingClaimReceive f s
  | .claimTimer => Sys2Proof.Machine.execClaimTimer s
  | .timeFrameAbsence => Sys2Proof.Machine.execTimeFrameAbsence s
  | .becomeMaster => Sys2Proof.Machine.execBecomeMaster s
  | .ringBreakDetect port => Sys2Proof.Machine.execRingBreakDetect port s
  | .hingeClose port => Sys2Proof.Machine.execHingeClose port s
  | .hingeOpen port => Sys2Proof.Machine.execHingeOpen port s
  | .dictRead r => Sys2Proof.Machine.execDictRead r s
  | .objectWrite r => Sys2Proof.Machine.execObjectWrite r s
  | .transferBegin r => Sys2Proof.Machine.execTransferBegin r s
  | .segmentWrite r => Sys2Proof.Machine.execSegmentWrite r s
  | .segmentRead r => Sys2Proof.Machine.execSegmentRead r s
  | .transferEnd r => Sys2Proof.Machine.execTransferEnd r s
  | .sessionOpen chan station role nonce => Sys2Proof.Machine.execSessionOpen chan station role nonce s
  | .sessionProof sess proof => Sys2Proof.Machine.execSessionProof sess proof s
  | .sessionIdleTimeout sess => Sys2Proof.Machine.execSessionIdleTimeout sess s
  | .lockoutExpiry station => Sys2Proof.Machine.execLockoutExpiry station s
  | .pcieDoorbell qp regs index octets aligned frame => Sys2Proof.Machine.execPcieDoorbell qp regs index octets aligned frame s
  | .journalAckDoorbell n => Sys2Proof.Machine.execJournalAckDoorbell n s
  | .pcieLinkReset => Sys2Proof.Machine.execPcieLinkReset s
  | .watchdogExpiry => Sys2Proof.Machine.execWatchdogExpiry s
  | .wardRestart r => Sys2Proof.Machine.execWardRestart r s
  | .gloletInterrupt => Sys2Proof.Machine.execGloletInterrupt s
  | .jmp => Sys2Proof.Machine.execJmp s
  | .bz => Sys2Proof.Machine.execBz s
  | .bnz => Sys2Proof.Machine.execBnz s
  | .jal => Sys2Proof.Machine.execJal s
  | .jr => Sys2Proof.Machine.execJr s
  | .ret => Sys2Proof.Machine.execRet s
  | .trapret => Sys2Proof.Machine.execTrapret s
  | .halt => Sys2Proof.Machine.execHalt s
  | .wfi => Sys2Proof.Machine.execWfi s
  | .nop => Sys2Proof.Machine.execNop s
  | .csrr => Sys2Proof.Machine.execCsrr s
  | .csrw => Sys2Proof.Machine.execCsrw s
  | .sensorSample tj tjHbm rails => Sys2Proof.Machine.execSensorSample tj tjHbm rails s
  | .fwVerifyDone => Sys2Proof.Machine.execFwVerifyDone s
  | .fwCommand r => Sys2Proof.Machine.execFwCommand r s
  | .fwTrialConfirm => Sys2Proof.Machine.execFwTrialConfirm s
  | .fwTrialTimeout => Sys2Proof.Machine.execFwTrialTimeout s
  | .store r => Sys2Proof.Machine.execStore r s
  | .restore r => Sys2Proof.Machine.execRestore r s
  | .storeErase r => Sys2Proof.Machine.execStoreErase r s
  | .imgVerifyDone idx => Sys2Proof.Machine.execImgVerifyDone idx s
  | .imgActivate r => Sys2Proof.Machine.execImgActivate r s
  | .imgInstallDone idx => Sys2Proof.Machine.execImgInstallDone idx s
  | .imgDeactivate r => Sys2Proof.Machine.execImgDeactivate r s
  | .imgDrainDone idx => Sys2Proof.Machine.execImgDrainDone idx s
  | .imgErase r => Sys2Proof.Machine.execImgErase r s
  | .routeSwap r => Sys2Proof.Machine.execRouteSwap r s
  | .swapVcDrained vc => Sys2Proof.Machine.execSwapVcDrained vc s
  | .domainPowerDown r => Sys2Proof.Machine.execDomainPowerDown r s
  | .domainDrainEnd => Sys2Proof.Machine.execDomainDrainEnd s
  | .domainPowerUp r => Sys2Proof.Machine.execDomainPowerUp r s
  | .domainRailsUp => Sys2Proof.Machine.execDomainRailsUp s
  | .parkReceive => Sys2Proof.Machine.execParkReceive s
  | .parkReplayDone k => Sys2Proof.Machine.execParkReplayDone k s
  | .linkEnableSet r => Sys2Proof.Machine.execLinkEnableSet r s
  | .linkEnableClear r => Sys2Proof.Machine.execLinkEnableClear r s
  | .linkTrained l neighbour flight => Sys2Proof.Machine.execLinkTrained l neighbour flight s
  | .linkAlignmentLost l => Sys2Proof.Machine.execLinkAlignmentLost l s
  | .linkRetrainTimeout l => Sys2Proof.Machine.execLinkRetrainTimeout l s
  | .linkDownExpiry l => Sys2Proof.Machine.execLinkDownExpiry l s
  | .linkWordReceive l w => Sys2Proof.Machine.execLinkWordReceive l w s
  | .linkCreditWord l returns seq => Sys2Proof.Machine.execLinkCreditWord l returns seq s
  | .linkRetryRequest l seq => Sys2Proof.Machine.execLinkRetryRequest l seq s
  | .linkTokenSend l => Sys2Proof.Machine.execLinkTokenSend l s
  | .proxyAdmission => Sys2Proof.Machine.execProxyAdmission s
  | .deviceIdWrite r => Sys2Proof.Machine.execDeviceIdWrite r s
  | .ethFrameReceive port frame => Sys2Proof.Machine.execEthFrameReceive port frame s
  | .ethSplit r => Sys2Proof.Machine.execEthSplit r s
  | .faultEvent => Sys2Proof.Machine.execFaultEvent s
  | .graceExpiry src => Sys2Proof.Machine.execGraceExpiry src s
  | .relatchExpiry src => Sys2Proof.Machine.execRelatchExpiry src s
  | .faultAck r => Sys2Proof.Machine.execFaultAck r s
  | .faultClear r => Sys2Proof.Machine.execFaultClear r s
  | .faultSubwindowTick src => Sys2Proof.Machine.execFaultSubwindowTick src s
  | .historyCloseExpiry entry => Sys2Proof.Machine.execHistoryCloseExpiry entry s
  | .deadboltCoreReset => Sys2Proof.Machine.execDeadboltCoreReset s
  | .clusterFailure pos router => Sys2Proof.Machine.execClusterFailure pos router s
  | .takeoverCodeLoaded => Sys2Proof.Machine.execTakeoverCodeLoaded s
  | .takeoverComplete => Sys2Proof.Machine.execTakeoverComplete s
  | .rollTestStart => Sys2Proof.Machine.execRollTestStart s
  | .rollTestDone pass => Sys2Proof.Machine.execRollTestDone pass s
  | .bistCmd r => Sys2Proof.Machine.execBistCmd r s
  | .bistDone failed => Sys2Proof.Machine.execBistDone failed s
  | .injArm r => Sys2Proof.Machine.execInjArm r s
  | .dumpTick => Sys2Proof.Machine.execDumpTick s
  | .cntConfig r => Sys2Proof.Machine.execCntConfig r s
  | .cntValueWrite r => Sys2Proof.Machine.execCntValueWrite r s
  | .cntValueRead r => Sys2Proof.Machine.execCntValueRead r s
  | .ovfPop r => Sys2Proof.Machine.execOvfPop r s
  | .auxPowerLoss => Sys2Proof.Machine.execAuxPowerLoss s
  | .auxPowerGood => Sys2Proof.Machine.execAuxPowerGood s
  | .mainPowerLoss rail => Sys2Proof.Machine.execMainPowerLoss rail s
  | .mainPowerGood => Sys2Proof.Machine.execMainPowerGood s
  | .resetNAssert lowNs => Sys2Proof.Machine.execResetNAssert lowNs s
  | .resetNRelease => Sys2Proof.Machine.execResetNRelease s
  | .poweronInitDone => Sys2Proof.Machine.execPoweronInitDone s
  | .sysResetCmd r => Sys2Proof.Machine.execSysResetCmd r s
  | .coreResetCmd r => Sys2Proof.Machine.execCoreResetCmd r s
  | .coreResetWalkDone => Sys2Proof.Machine.execCoreResetWalkDone s
  | .coreResetReinitDone => Sys2Proof.Machine.execCoreResetReinitDone s
  | .srRing r => Sys2Proof.Machine.execSrRing r s
  | .srCrypto r => Sys2Proof.Machine.execSrCrypto r s
  | .srPcie r => Sys2Proof.Machine.execSrPcie r s
  | .srLinks r => Sys2Proof.Machine.execSrLinks r s
  | .srEth r => Sys2Proof.Machine.execSrEth r s
  | .srHasp r => Sys2Proof.Machine.execSrHasp r s
  | .srKeyway r => Sys2Proof.Machine.execSrKeyway r s
  | .srFabric r => Sys2Proof.Machine.execSrFabric r s
  | .fullSoftReset r => Sys2Proof.Machine.execFullSoftReset r s
  | .pllLock block => Sys2Proof.Machine.execPllLock block s
  | .pllLockLost block => Sys2Proof.Machine.execPllLockLost block s
  | .governorTick => Sys2Proof.Machine.execGovernorTick s
  | .avsStatusPoll answered fault => Sys2Proof.Machine.execAvsStatusPoll answered fault s
  | .boostEnable r => Sys2Proof.Machine.execBoostEnable r s
  | .boostChargeTick => Sys2Proof.Machine.execBoostChargeTick s
  | .thermalTrip => Sys2Proof.Machine.execThermalTrip s
  | .railOutOfRange rail => Sys2Proof.Machine.execRailOutOfRange rail s
  | .linkRealigned l => Sys2Proof.Machine.execLinkRealigned l s
  | .ringSyncAcquired port => Sys2Proof.Machine.execRingSyncAcquired port s
  | .pcieLinkUp width rate => Sys2Proof.Machine.execPcieLinkUp width rate s
  | .ppsOutWidthEnd pin => Sys2Proof.Machine.execPpsOutWidthEnd pin s
  | .hbmPeriodicCalibration stack => Sys2Proof.Machine.execHbmPeriodicCalibration stack s
  | .tapTckEdge rising tms tdi pins => Sys2Proof.Machine.execTapTckEdge rising tms tdi pins s
  | .trstNAssert => Sys2Proof.Machine.execTrstNAssert s
  | .ptpAnnounceSend port => Sys2Proof.Machine.execPtpAnnounceSend port s
  | .ptpDelayRequestSend port => Sys2Proof.Machine.execPtpDelayRequestSend port s

end Sys2Proof.Machine
end

