-- ==== Sys2Proof/Machine/Idle.lean ====
section
/-! DEFINITION. What one step does when no command waits: a nanosecond passes (log 6). Everything else that time brings
about is a command of its own, which looks at these clocks. -/

namespace Sys2Proof.Machine

/-- R312: slews change the rate by 10 ppm, one nanosecond in every 100,000. -/
def slewPeriod : Nat := 100000

/-- One nanosecond of the timebase: the counter stands in wait-lock (R310), else it advances by one, or by two or none
at the tick that takes up one nanosecond of the offset being slewed (R312). -/
def Dev.taiTick (d : Dev) : Dev :=
  if d.tb.waitLock then d
  else if d.tb.slew = 0 then { d with tai := (d.tai + 1) % 2 ^ 64 }
  else if d.tb.slewAcc + 1 < slewPeriod then
    { d with tai := (d.tai + 1) % 2 ^ 64, tb := { d.tb with slewAcc := d.tb.slewAcc + 1 } }
  else if 0 < d.tb.slew then
    { d with tai := (d.tai + 2) % 2 ^ 64, tb := { d.tb with slewAcc := 0, slew := d.tb.slew - 1 } }
  else { d with tb := { d.tb with slewAcc := 0, slew := d.tb.slew + 1 } }

/-- Ring `r` of a table whose filter lets it through is in the Above state. -/
def aboveAny {α : Type} (t : Tab α) (q : α → Bool) (f : Nat) : Bool := t.any (fun e => q e.2 && (f == 0xFFF || f % 256 == e.1))

/-- A condition of kind C holds at a block (R412). -/
def Dev.condHolds (d : Dev) (blk code f : Nat) : Bool :=
  match code with
  | 0x0A => d.fab.pos.any (fun e => e.1 / 34 == blk && (List.range 8).any (fun p =>
      (e.2.queue p).above && evFilter 0x0A f (e.1 % 34 * 64 + p)))
  | 0x0B => d.fab.pos.any (fun e => e.1 / 34 == blk && !e.2.fwait.isEmpty && evFilter 0x0B f (e.1 % 34 * 64))
  | 0x0E => (tget? d.fab.stallSince blk).isSome
  | 0x46 => d.cry.slots.any (fun e => decide (0x10000 ≤ e.1) && evFilter 0x46 f ((e.1 - 0x10000) / 64))
  | 0x47 => d.cry.slots.any (fun e => decide (e.1 < 0x10000) && evFilter 0x47 f (e.1 / 64))
      || d.cry.slot8.any (fun e => !e.2.isEmpty && evFilter 0x47 f e.1)
  | 0x4B => aboveAny d.ses.ing (fun r => r.q.above) f
  | 0x4C => aboveAny d.ses.egr (fun r => r.q.above) f
  | _ => false

/-- The condition counters looked at once a nanosecond (R411): a level counts 1 while it holds, an edge 1 when it begins. -/
def Dev.condTick (d : Dev) : Dev :=
  (d.perf.ctrs.filter (fun e => bit e.2.cfg 55 && evIsCond (bits e.2.cfg 50 44))).foldl (fun d e =>
    let h := d.condHolds (e.1 / 8) (bits e.2.cfg 50 44) (bits e.2.cfg 43 32)
    let was := e.2.held
    let d := { d with perf := { d.perf with
      ctrs := tmod ctrInit d.perf.ctrs e.1 (fun (c : Ctr) => { c with held := h }) } }
    if h && (bit e.2.cfg 54 || !was) then d.ctrAdd e.1 1 else d) d

/-- The stall monitors (R122): the count begins when a readable firing is present and ends when every head window of the
die is empty; a retirement ends it too. -/
def Dev.stallTick (d : Dev) : Dev :=
  let step (t : Tab Nat) (q : Nat) : Tab Nat :=
    if (d.dieReadable q).isEmpty then terase t q else if (tget? t q).isSome then t else tset t q d.up
  { d with fab := { d.fab with stallSince := (List.range d.dies).foldl step d.fab.stallSince } }

/-- An hour in ns. -/
def hourNs : Nat := 3600000000000

/-- The wear records (R441): hours with the main rails up, and of these with a sensor at 95 °C or more. -/
def Dev.wearTick (d : Dev) : Dev :=
  if !d.mainUp then d
  else
    let w := d.pwr
    let hot := w.tj.any (fun t => decide (95000 ≤ t))
    let n := w.nsUp + 1
    let h := if hot then w.ns95 + 1 else w.ns95
    { d with pwr := { w with
      nsUp := n % hourNs, hours := (w.hours + n / hourNs) % 2 ^ 32, ns95 := h % hourNs, hours95 := (w.hours95 + h / hourNs) % 2 ^ 32 } }

/-- The 1 µs tick of the Glolet core (R359). -/
def Dev.coreTick (d : Dev) : Dev := if d.wrd.up && (d.up + 1) % 1000 == 0 then d.wardIrq 3 else d

/-- One nanosecond of the block. -/
def Dev.tick (d : Dev) : Dev := { d.condTick.stallTick.taiTick.wearTick.coreTick with up := d.up + 1 }

/-- The state after a nanosecond in which no command arrives. -/
def idle (s : State) : State := { s with dev := { s.dev.tick.fused s.dev with up := s.dev.up + 1 } }

end Sys2Proof.Machine
end

