-- ==== Sys2Proof/WellFormed.lean ====
section
/-! DEFINITION. Which operands a command may have: every number names an instance that one of the two configurations has, and
what comes from outside has the widths of the frame or request that carries it. -/

namespace Sys2Proof

/-- A number below a bound. -/
def inRange (n i : Nat) : Bool := decide (i < n)

/-- A cluster position (R72: 34 to a die) and one of its sixteen cells, or the Glolet core. -/
def Site.wf (s : Site) : Bool := match s with | .cell p c => inRange 136 p && inRange 16 c | .glolet => true

/-- A session number: a ring session, a PCIe queue pair, or the ward's own accesses (R374, R375). -/
def sesNumOk (s : Nat) : Bool := inRange 16 s || (decide (0x40 ≤ s) && decide (s < 0x60)) || s == 0xFF

/-- The object index of an image slot (R379). -/
def imageIdx (i : Nat) : Bool := decide (0xD000 ≤ i) && decide (i < 0xD300)

/-- A dictionary request: its fields have the widths of R374, its `MAC` 16 octets unless the ward itself makes it. -/
def DReq.wf (r : DReq) : Bool :=
  sesNumOk r.sess && inRange 65536 r.seq && inRange 256 r.op && inRange 65536 r.idx && inRange 256 r.sub
    && inRange (2 ^ 32) r.off && inRange 65536 r.data.length && (r.sess == 0xFF || r.mac.length == 16)

/-- A spill queue that exists in one of the configurations (R99, R249, R337). -/
def QId.wf (q : QId) : Bool :=
  match q with
  | .ready p k => inRange 136 p && inRange 8 k
  | .ingress r => inRange 256 r
  | .egress r => inRange 256 r
  | .park k => inRange 256 k

/-- A handshake's offers have the widths of the profile's fields (R247). -/
def HsIn.wf (h : HsIn) : Bool := inRange 4 h.suites && inRange 4 h.groups && inRange 16 h.sigs

/-- BAR0's registers hold 32 bits. -/
def QpRegs.wf (x : QpRegs) : Bool := inRange (2 ^ 32) x.subLen && inRange (2 ^ 32) x.cplLen

/-- A ring frame: header fields of R367. -/
def RFrame.wf (f : RFrame) : Bool :=
  inRange 256 f.typ && inRange 256 f.flags && inRange 65536 f.hops && inRange 65536 f.seq && f.src.length == 8 && f.dst.length == 8

/-- A TCP segment: fields of RFC 9293, a 16-octet address. -/
def SegIn.wf (g : SegIn) : Bool :=
  inRange (2 ^ 128) g.addr && inRange 65536 g.sport && inRange 65536 g.dport && inRange (2 ^ 32) g.seq && inRange (2 ^ 32) g.ack
    && inRange 65536 g.wnd

/-- A link word: routing fields of R342. -/
def WordIn.wf (w : WordIn) : Bool := inRange 4096 w.ddev && inRange 4096 w.odev && inRange 256 w.hops && inRange 4096 w.seq
    && inRange (2 ^ 32) w.crc

/-- The operands of a command are in range. -/
def Instr.wf (c : Instr) : Bool :=
  match c with
  | .tlsRecordReceive ses wire _ => inRange 65536 ses && inRange (2 ^ 20) wire
  | .sharedRingMessageWrite ring => inRange 256 ring
  | .tcpSegmentReceive port seg => inRange 8 port && seg.wf
  | .tcpRetransmitTimeout ses => inRange 65536 ses
  | .keepaliveTimer ses => inRange 65536 ses
  | .sesEnable r => r.wf
  | .sesOperatorClose r => r.wf
  | .sesDisable r => r.wf
  | .connectTimeout ses => inRange 65536 ses
  | .handshakeStart ses => inRange 65536 ses
  | .handshakeComplete ses peer => inRange 65536 ses && peer.wf
  | .handshakeTimeout ses => inRange 65536 ses
  | .closingTimeout ses => inRange 65536 ses
  | .backoffExpiry ses => inRange 65536 ses
  | .egressRecordSend ring => inRange 256 ring
  | .pfcRenew port => inRange 8 port
  | .ingressEnableWrite r => r.wf
  | .ringEnable r => r.wf
  | .ringDisable r => r.wf
  | .overrunClear r => r.wf
  | .watermarkWrite r => r.wf
  | .lexRecord ring => inRange 256 ring
  | .dueTimeExpiry ctx => inRange (2 ^ 24) ctx
  | .fallbackPointExpiry ctx => inRange (2 ^ 24) ctx
  | .deadlinePurgeExpiry ctx => inRange (2 ^ 24) ctx
  | .paceWindowEnd readings => readings.all (fun (e : Nat × Nat) => inRange 136 e.1)
  | .forceStandin r => r.wf
  | .responseLastByte ctx => inRange (2 ^ 24) ctx
  | .reclaimDone ctx => inRange (2 ^ 24) ctx
  | .journalAppend lane => inRange 16 lane
  | .ckptRequest r => r.wf
  | .jnlExportAck _ => true
  | .routerHop router inp vc => inRange 149 router && inRange 10 inp && inRange 4 vc
  | .vc2Escape router inp vc => inRange 149 router && inRange 10 inp && inRange 4 vc
  | .matchArrival pos vc => inRange 136 pos && inRange 4 vc
  | .overflowProbeDone pos _ => inRange 136 pos
  | .matchSweepTick pos _ => inRange 136 pos
  | .writebackLink pos => inRange 136 pos
  | .spillBurstDone q => q.wf
  | .spillRefillDone q => q.wf
  | .dispatch pos => inRange 136 pos
  | .frameFetchDone pos ctx => inRange 136 pos && inRange (2 ^ 24) ctx
  | .codeReloadDone pos => inRange 136 pos
  | .fabricStallDetect die => inRange 4 die
  | .slotTick pos => inRange 136 pos
  | .orphanBreak r => r.wf
  | .cryptoSlotStart slot => inRange 0x20000 slot
  | .cryptoCallComplete slot => inRange 0x20000 slot
  | .masterKeyCmd r => r.wf
  | .keyDelete r => r.wf
  | .importCmd r => r.wf
  | .exportCmd r => r.wf
  | .component r => r.wf
  | .genCmd r => r.wf
  | .zeroize r => r.wf
  | .meshCompare _ => true
  | .drbgReseed i => inRange 4 i
  | .drbgRestart r => r.wf
  | .ppsInEdge _ => true
  | .taiSet r => r.wf
  | .taiSlewNs r => r.wf
  | .tbSourceWrite r => r.wf
  | .ptpMessageReceive port _ => inRange 8 port
  | .ptpSyncSend port => inRange 8 port
  | .ringFrameForward port f t => inRange 2 port && f.wf && inRange (2 ^ 32) t.crc
  | .ringTimeFrameReceive port f _ => inRange 2 port && f.wf
  | .ringFaultFrameReceive f => f.wf
  | .ringClaimReceive f => f.wf
  | .ringBreakDetect port => inRange 2 port
  | .hingeClose port => inRange 2 port
  | .hingeOpen port => inRange 2 port
  | .dictRead r => r.wf
  | .objectWrite r => r.wf
  | .transferBegin r => r.wf
  | .segmentWrite r => r.wf
  | .segmentRead r => r.wf
  | .transferEnd r => r.wf
  | .sessionOpen chan station role nonce => sesNumOk chan && station.length == 8 && inRange 256 role && nonce.length == 16
  | .sessionProof sess _ => sesNumOk sess
  | .sessionIdleTimeout sess => sesNumOk sess
  | .lockoutExpiry station => station.length == 8
  | .pcieDoorbell qp regs _ _ _ frame => inRange 64 qp && regs.wf && frame.wf
  | .journalAckDoorbell _ => true
  | .wardRestart r => r.wf
  | .sensorSample tj tjHbm rails => tj.length == 5 && tjHbm.length == 8 && rails.length == 8
  | .fwCommand r => r.wf
  | .store r => r.wf
  | .restore r => r.wf
  | .storeErase r => r.wf
  | .imgVerifyDone idx => imageIdx idx
  | .imgActivate r => r.wf
  | .imgInstallDone idx => imageIdx idx
  | .imgDeactivate r => r.wf
  | .imgDrainDone idx => imageIdx idx
  | .imgErase r => r.wf
  | .routeSwap r => r.wf
  | .swapVcDrained vc => inRange 4 vc
  | .domainPowerDown r => r.wf
  | .domainPowerUp r => r.wf
  | .parkReplayDone k => inRange 256 k
  | .linkEnableSet r => r.wf
  | .linkEnableClear r => r.wf
  | .linkTrained l neighbour _ => inRange 6 l && inRange 4096 neighbour
  | .linkAlignmentLost l => inRange 6 l
  | .linkRetrainTimeout l => inRange 6 l
  | .linkDownExpiry l => inRange 6 l
  | .linkWordReceive l w => inRange 6 l && w.wf
  | .linkCreditWord l returns seq => inRange 6 l && returns.length == 4 && inRange 4096 seq
  | .linkRetryRequest l seq => inRange 6 l && inRange 4096 seq
  | .linkTokenSend l => inRange 6 l
  | .deviceIdWrite r => r.wf
  | .ethFrameReceive port _ => inRange 8 port
  | .ethSplit r => r.wf
  | .graceExpiry src => inRange 256 src
  | .relatchExpiry src => inRange 256 src
  | .faultAck r => r.wf
  | .faultClear r => r.wf
  | .faultSubwindowTick src => inRange 256 src
  | .historyCloseExpiry i => inRange 16 i
  | .clusterFailure pos _ => inRange 136 pos
  | .rollTestDone _ => true
  | .bistCmd r => r.wf
  | .bistDone failed => failed.all (inRange 136)
  | .injArm r => r.wf
  | .cntConfig r => r.wf
  | .cntValueWrite r => r.wf
  | .cntValueRead r => r.wf
  | .ovfPop r => r.wf
  | .mainPowerLoss _ => true
  | .resetNAssert _ => true
  | .sysResetCmd r => r.wf
  | .coreResetCmd r => r.wf
  | .srRing r => r.wf
  | .srCrypto r => r.wf
  | .srPcie r => r.wf
  | .srLinks r => r.wf
  | .srEth r => r.wf
  | .srHasp r => r.wf
  | .srKeyway r => r.wf
  | .srFabric r => r.wf
  | .fullSoftReset r => r.wf
  | .pllLock block => inRange 20 block
  | .pllLockLost block => inRange 20 block
  | .avsStatusPoll _ _ => true
  | .boostEnable r => r.wf
  | .railOutOfRange _ => true
  | .linkRealigned l => inRange 6 l
  | .ringSyncAcquired port => inRange 2 port
  | .pcieLinkUp _ _ => true
  | .ppsOutWidthEnd pin => inRange 2 pin
  | .hbmPeriodicCalibration stack => inRange 8 stack
  | .tapTckEdge _ _ _ _ => true
  | .ptpAnnounceSend port => inRange 8 port
  | .ptpDelayRequestSend port => inRange 8 port
  | .respond site => site.wf
  | .forward site => site.wf
  | .sessionOf site => site.wf
  | .pass site => site.wf
  | .steer site => site.wf
  | .merge site => site.wf
  | .sync site => site.wf
  | .const site => site.wf
  | .sel site => site.wf
  | .swap site => site.wf
  | .gate site => site.wf
  | .feat site => site.wf
  | .time site => site.wf
  | .ctxid site => site.wf
  | .raise site => site.wf
  | .add site => site.wf
  | .adc site => site.wf
  | .sub site => site.wf
  | .sbb site => site.wf
  | .neg site => site.wf
  | .abs site => site.wf
  | .inc site => site.wf
  | .dec site => site.wf
  | .mul site => site.wf
  | .mulh site => site.wf
  | .mulhu site => site.wf
  | .div site => site.wf
  | .divu site => site.wf
  | .mac site => site.wf
  | .msub site => site.wf
  | .min site => site.wf
  | .max site => site.wf
  | .minu site => site.wf
  | .maxu site => site.wf
  | .and site => site.wf
  | .or site => site.wf
  | .xor site => site.wf
  | .not site => site.wf
  | .andn site => site.wf
  | .orn site => site.wf
  | .xnor site => site.wf
  | .band site => site.wf
  | .bor site => site.wf
  | .bxor site => site.wf
  | .bnot site => site.wf
  | .shl site => site.wf
  | .shr site => site.wf
  | .sar site => site.wf
  | .rol site => site.wf
  | .ror site => site.wf
  | .clz site => site.wf
  | .ctz site => site.wf
  | .popc site => site.wf
  | .bext site => site.wf
  | .bextu site => site.wf
  | .bins site => site.wf
  | .bperm site => site.wf
  | .sext site => site.wf
  | .zext site => site.wf
  | .pdep site => site.wf
  | .pext site => site.wf
  | .hash site => site.wf
  | .crc32c site => site.wf
  | .ceq site => site.wf
  | .cne site => site.wf
  | .clt site => site.wf
  | .cle site => site.wf
  | .cltu site => site.wf
  | .cleu site => site.wf
  | .ctst site => site.wf
  | .cbit site => site.wf
  | .ceqb site => site.wf
  | .cneb site => site.wf
  | .cltb site => site.wf
  | .cleb site => site.wf
  | .cltub site => site.wf
  | .cleub site => site.wf
  | .ctstb site => site.wf
  | .cbitb site => site.wf
  | .flgr site => site.wf
  | .flgw site => site.wf
  | .flgtas site => site.wf
  | .setbank site => site.wf
  | .getbank site => site.wf
  | .settrap site => site.wf
  | .setsub site => site.wf
  | .setrnd site => site.wf
  | .getmode site => site.wf
  | .i2fx site => site.wf
  | .fx2i site => site.wf
  | .fx2f site => site.wf
  | .f2fx site => site.wf
  | .i2f site => site.wf
  | .f2i site => site.wf
  | .f2iu site => site.wf
  | .bcd2i site => site.wf
  | .i2bcd site => site.wf
  | .dec2i site => site.wf
  | .i2dec site => site.wf
  | .eb2as site => site.wf
  | .as2eb site => site.wf
  | .bswap site => site.wf
  | .brev site => site.wf
  | .fadd site => site.wf
  | .fsub site => site.wf
  | .fmul site => site.wf
  | .fdiv site => site.wf
  | .fsqrt site => site.wf
  | .fma site => site.wf
  | .fmin site => site.wf
  | .fmax site => site.wf
  | .fneg site => site.wf
  | .fabs site => site.wf
  | .fceq site => site.wf
  | .fclt site => site.wf
  | .fcle site => site.wf
  | .fcun site => site.wf
  | .frint site => site.wf
  | .fclass site => site.wf
  | .ld site => site.wf
  | .ldb site => site.wf
  | .ldbu site => site.wf
  | .ldh site => site.wf
  | .ldhu site => site.wf
  | .ldw site => site.wf
  | .ldwu site => site.wf
  | .st site => site.wf
  | .stb site => site.wf
  | .sth site => site.wf
  | .stw site => site.wf
  | .ird site => site.wf
  | .iwr site => site.wf
  | .iclr site => site.wf
  | .aadd site => site.wf
  | .aand site => site.wf
  | .aor site => site.wf
  | .axor site => site.wf
  | .axchg site => site.wf
  | .acas site => site.wf
  | .amin site => site.wf
  | .amax site => site.wf
  | .lock site => site.wf
  | .trylock site => site.wf
  | .unlock site => site.wf
  | .bld site => site.wf
  | .bst site => site.wf
  | .btas site => site.wf
  | .btac site => site.wf
  | .bflip site => site.wf
  | .blts site => site.wf
  | .sigSign site => site.wf
  | .sigVerify site => site.wf
  | .sigVerifyV15 site => site.wf
  | .gcmSeal site => site.wf
  | .gcmOpen site => site.wf
  | .cmacGen site => site.wf
  | .cmacVerify site => site.wf
  | .hmacGen site => site.wf
  | .hmacVerify site => site.wf
  | .digest site => site.wf
  | .pinXlate site => site.wf
  | .pinXlateDukpt site => site.wf
  | .random site => site.wf
  | .customerLogicCall site => site.wf
  | .keywayTakeSignal => true
  | .rejectLaneWrite => true
  | .drainTick => true
  | .ckptIntervalExpiry => true
  | .ckptSignDone => true
  | .piSignal => true
  | .deferralSweepTick => true
  | .glitchDetect => true
  | .zeroizeSealDone => true
  | .entropyTestFail => true
  | .taiStepApply => true
  | .sourceLossTimeout => true
  | .refclkLockLost => true
  | .refclkLockRegained => true
  | .ppsOutPulse => true
  | .ringTimeSend => true
  | .claimTimer => true
  | .timeFrameAbsence => true
  | .becomeMaster => true
  | .pcieLinkReset => true
  | .watchdogExpiry => true
  | .gloletInterrupt => true
  | .jmp => true
  | .bz => true
  | .bnz => true
  | .jal => true
  | .jr => true
  | .ret => true
  | .trapret => true
  | .halt => true
  | .wfi => true
  | .nop => true
  | .csrr => true
  | .csrw => true
  | .fwVerifyDone => true
  | .fwTrialConfirm => true
  | .fwTrialTimeout => true
  | .domainDrainEnd => true
  | .domainRailsUp => true
  | .parkReceive => true
  | .proxyAdmission => true
  | .faultEvent => true
  | .deadboltCoreReset => true
  | .takeoverCodeLoaded => true
  | .takeoverComplete => true
  | .rollTestStart => true
  | .dumpTick => true
  | .auxPowerLoss => true
  | .auxPowerGood => true
  | .mainPowerGood => true
  | .resetNRelease => true
  | .poweronInitDone => true
  | .coreResetWalkDone => true
  | .coreResetReinitDone => true
  | .governorTick => true
  | .boostChargeTick => true
  | .thermalTrip => true
  | .trstNAssert => true

end Sys2Proof
end

