-- ==== Sys2Proof/Safety.lean ====
section
/-! DEFINITION. The terms that statements about the block are made in: what a command does, when the ward applies a dictionary
write, what an answer changes, and the invariant of the block. -/

namespace Sys2Proof.Machine

/-- Command `c` gives the next state whose block is `d`, with the queue as it was. -/
def Becomes (c : Instr) (s : State) (d : Dev) : Prop := exec c s = .next { s with dev := d }

/-- Command `c` gives the next state whose block is `d` with the configuration, the identity and the count of ns as they were,
and the queue as it was. -/
def Gives (c : Instr) (s : State) (d : Dev) : Prop := exec c s = .next { s with dev := d.fused s.dev }

/-- Command `c` gives a next state, with the queue as it was and a block of which `P` holds. -/
def Does (c : Instr) (s : State) (P : Dev → Prop) : Prop := ∃ d, exec c s = .next { s with dev := d } ∧ P d

/-- The role under which the ward applies a request (R374–R376), and the block as the request finds it: the ward's own
accesses as role W; those of an open session whose `MAC` is right and whose `SEQ` is new, with the session's last request
noted. None where the ward is down, the session is not open, the `MAC` is wrong or the request repeats one answered. In recovery
(R364) the image alone may be reached. -/
def Dev.admits (d : Dev) (r : DReq) : Option (Role × Dev) :=
  if !d.wardUp then none
  else if r.sess = wardSes then some (.W, d)
  else match tget? d.wrd.sessions r.sess with
    | none => none
    | some w =>
      if w.stage ≠ .opened || !d.macOk w r || w.done.any (fun x => x.1 == r.seq)
          || (decide (d.wrd.state = 2) && !recoveryOk w.role r.idx r.sub) then none
      else some (w.role, { d with wrd := { d.wrd with sessions := tset d.wrd.sessions r.sess { w with last := d.up } } })

/-- The ward applies `r` as a write of the row `row` (R8, R11, R13, R374): the role that it is applied under and the block as
the write finds it. None where it is another request or another row, where no object is there, where the role has no right to
write it, or where the length or a Boolean's value is wrong. -/
def Dev.grants (d : Dev) (r : DReq) (row : WRow) : Option (Role × Dev) :=
  if r.op = 2 ∧ d.rowOf r = row then
    match d.admits r, objRow d.part r.idx r.sub with
    | some (ro, e), some o =>
      if o.mayWrite ro && r.data.length == o.octets && !(o.kind == 7 && decide (1 < reqValue r)) then some (ro, e) else none
    | _, _ => none
  else none

/-- Blocks `d` and `e` differ in nothing but what answering a request changes — the table of dictionary sessions, the ring
frames on their way with their sequence number, the frames for the host — and in what is hard-wired. -/
def Dev.answers (d e : Dev) : Prop :=
  d = { e with part := d.part, ident := d.ident, up := d.up,
               wrd := { e.wrd with sessions := d.wrd.sessions },
               rng := { e.rng with seq := d.rng.seq, out := d.rng.out },
               lnk := { e.lnk with frames := d.lnk.frames } }

/-- The command `c` of the row `row`: a request that is no write of that row changes nothing; one that the ward applies gives
a next state, the effect `P` comes about on the block as the write finds it (role, request, that block, the block after the
effect), and the answer changes nothing more. -/
def Writes (c : DReq → Instr) (row : WRow) (P : Role → DReq → Dev → Dev → Prop) : Prop :=
  ∀ (s : State) (r : DReq),
    (∀ ro d, s.dev.grants r row = some (ro, d) → Does (c r) s (fun t => ∃ e, P ro r d e ∧ t.answers e))
    ∧ (r.op ≠ 2 ∨ s.dev.rowOf r ≠ row → exec (c r) s = .next s)

/-- A factory identity as R367 and the identity objects have it: grade C or E, sixteen octets of serial number whose first
eight are not all ones, six octets of MAC address. -/
def Ident.legal (i : Ident) : Bool :=
  decide (i.grade < 2) && decide (i.rev < 65536) && decide (i.serial.length = 16) && decide (i.mac.length = 6)
    && i.serial.take 8 != ringAll

/-- The invariant of the block: its configuration and identity are the ones it was made with, the identity is legal, and every
command that waits has operands in range. -/
structure State.Inv (p : Part) (i : Ident) (s : State) : Prop where
  part    : s.dev.part = p
  ident   : s.dev.ident = i
  legal   : i.legal = true
  pending : ∀ c ∈ s.pending, c.wf = true

/-- Only session `n` may differ from one session table to the other, and nothing else of the block but the session table. -/
def Dev.sesOnly (n : Nat) (d e : Dev) : Prop :=
  e = { d with ses := { d.ses with ses := e.ses.ses } } ∧ ∀ m, m ≠ n → e.sess m = d.sess m

/-- The commands of the node encoding: where each takes an instruction on, and which nodes it takes: those of its opcode (R153), or
those that call its attachment function (R157, R158, R263, R277, R286). -/
def nodeRow (c : Instr) : Option (Site × (Node → Bool)) :=
  match c with
  | .pass site => some (site, fun n => n.op == .pass)
  | .steer site => some (site, fun n => n.op == .steer)
  | .merge site => some (site, fun n => n.op == .merge)
  | .sync site => some (site, fun n => n.op == .sync)
  | .const site => some (site, fun n => n.op == .const)
  | .sel site => some (site, fun n => n.op == .sel)
  | .swap site => some (site, fun n => n.op == .swap)
  | .gate site => some (site, fun n => n.op == .gate)
  | .feat site => some (site, fun n => n.op == .feat)
  | .time site => some (site, fun n => n.op == .time)
  | .ctxid site => some (site, fun n => n.op == .ctxid)
  | .raise site => some (site, fun n => n.op == .raise)
  | .add site => some (site, fun n => n.op == .add)
  | .adc site => some (site, fun n => n.op == .adc)
  | .sub site => some (site, fun n => n.op == .sub)
  | .sbb site => some (site, fun n => n.op == .sbb)
  | .neg site => some (site, fun n => n.op == .neg)
  | .abs site => some (site, fun n => n.op == .abs)
  | .inc site => some (site, fun n => n.op == .inc)
  | .dec site => some (site, fun n => n.op == .dec)
  | .mul site => some (site, fun n => n.op == .mul)
  | .mulh site => some (site, fun n => n.op == .mulh)
  | .mulhu site => some (site, fun n => n.op == .mulhu)
  | .div site => some (site, fun n => n.op == .div)
  | .divu site => some (site, fun n => n.op == .divu)
  | .mac site => some (site, fun n => n.op == .mac)
  | .msub site => some (site, fun n => n.op == .msub)
  | .min site => some (site, fun n => n.op == .min)
  | .max site => some (site, fun n => n.op == .max)
  | .minu site => some (site, fun n => n.op == .minu)
  | .maxu site => some (site, fun n => n.op == .maxu)
  | .and site => some (site, fun n => n.op == .and)
  | .or site => some (site, fun n => n.op == .or)
  | .xor site => some (site, fun n => n.op == .xor)
  | .not site => some (site, fun n => n.op == .not)
  | .andn site => some (site, fun n => n.op == .andn)
  | .orn site => some (site, fun n => n.op == .orn)
  | .xnor site => some (site, fun n => n.op == .xnor)
  | .band site => some (site, fun n => n.op == .band)
  | .bor site => some (site, fun n => n.op == .bor)
  | .bxor site => some (site, fun n => n.op == .bxor)
  | .bnot site => some (site, fun n => n.op == .bnot)
  | .shl site => some (site, fun n => n.op == .shl)
  | .shr site => some (site, fun n => n.op == .shr)
  | .sar site => some (site, fun n => n.op == .sar)
  | .rol site => some (site, fun n => n.op == .rol)
  | .ror site => some (site, fun n => n.op == .ror)
  | .clz site => some (site, fun n => n.op == .clz)
  | .ctz site => some (site, fun n => n.op == .ctz)
  | .popc site => some (site, fun n => n.op == .popc)
  | .bext site => some (site, fun n => n.op == .bext)
  | .bextu site => some (site, fun n => n.op == .bextu)
  | .bins site => some (site, fun n => n.op == .bins)
  | .bperm site => some (site, fun n => n.op == .bperm)
  | .sext site => some (site, fun n => n.op == .sext)
  | .zext site => some (site, fun n => n.op == .zext)
  | .pdep site => some (site, fun n => n.op == .pdep)
  | .pext site => some (site, fun n => n.op == .pext)
  | .hash site => some (site, fun n => n.op == .hash)
  | .crc32c site => some (site, fun n => n.op == .crc32c)
  | .ceq site => some (site, fun n => n.op == .ceq)
  | .cne site => some (site, fun n => n.op == .cne)
  | .clt site => some (site, fun n => n.op == .clt)
  | .cle site => some (site, fun n => n.op == .cle)
  | .cltu site => some (site, fun n => n.op == .cltu)
  | .cleu site => some (site, fun n => n.op == .cleu)
  | .ctst site => some (site, fun n => n.op == .ctst)
  | .cbit site => some (site, fun n => n.op == .cbit)
  | .ceqb site => some (site, fun n => n.op == .ceqb)
  | .cneb site => some (site, fun n => n.op == .cneb)
  | .cltb site => some (site, fun n => n.op == .cltb)
  | .cleb site => some (site, fun n => n.op == .cleb)
  | .cltub site => some (site, fun n => n.op == .cltub)
  | .cleub site => some (site, fun n => n.op == .cleub)
  | .ctstb site => some (site, fun n => n.op == .ctstb)
  | .cbitb site => some (site, fun n => n.op == .cbitb)
  | .flgr site => some (site, fun n => n.op == .flgr)
  | .flgw site => some (site, fun n => n.op == .flgw)
  | .flgtas site => some (site, fun n => n.op == .flgtas)
  | .setbank site => some (site, fun n => n.op == .setbank)
  | .getbank site => some (site, fun n => n.op == .getbank)
  | .settrap site => some (site, fun n => n.op == .settrap)
  | .setsub site => some (site, fun n => n.op == .setsub)
  | .setrnd site => some (site, fun n => n.op == .setrnd)
  | .getmode site => some (site, fun n => n.op == .getmode)
  | .i2fx site => some (site, fun n => n.op == .i2fx)
  | .fx2i site => some (site, fun n => n.op == .fx2i)
  | .fx2f site => some (site, fun n => n.op == .fx2f)
  | .f2fx site => some (site, fun n => n.op == .f2fx)
  | .i2f site => some (site, fun n => n.op == .i2f)
  | .f2i site => some (site, fun n => n.op == .f2i)
  | .f2iu site => some (site, fun n => n.op == .f2iu)
  | .bcd2i site => some (site, fun n => n.op == .bcd2i)
  | .i2bcd site => some (site, fun n => n.op == .i2bcd)
  | .dec2i site => some (site, fun n => n.op == .dec2i)
  | .i2dec site => some (site, fun n => n.op == .i2dec)
  | .eb2as site => some (site, fun n => n.op == .eb2as)
  | .as2eb site => some (site, fun n => n.op == .as2eb)
  | .bswap site => some (site, fun n => n.op == .bswap)
  | .brev site => some (site, fun n => n.op == .brev)
  | .fadd site => some (site, fun n => n.op == .fadd)
  | .fsub site => some (site, fun n => n.op == .fsub)
  | .fmul site => some (site, fun n => n.op == .fmul)
  | .fdiv site => some (site, fun n => n.op == .fdiv)
  | .fsqrt site => some (site, fun n => n.op == .fsqrt)
  | .fma site => some (site, fun n => n.op == .fma)
  | .fmin site => some (site, fun n => n.op == .fmin)
  | .fmax site => some (site, fun n => n.op == .fmax)
  | .fneg site => some (site, fun n => n.op == .fneg)
  | .fabs site => some (site, fun n => n.op == .fabs)
  | .fceq site => some (site, fun n => n.op == .fceq)
  | .fclt site => some (site, fun n => n.op == .fclt)
  | .fcle site => some (site, fun n => n.op == .fcle)
  | .fcun site => some (site, fun n => n.op == .fcun)
  | .frint site => some (site, fun n => n.op == .frint)
  | .fclass site => some (site, fun n => n.op == .fclass)
  | .ld site => some (site, fun n => n.op == .ld)
  | .ldb site => some (site, fun n => n.op == .ldb)
  | .ldbu site => some (site, fun n => n.op == .ldbu)
  | .ldh site => some (site, fun n => n.op == .ldh)
  | .ldhu site => some (site, fun n => n.op == .ldhu)
  | .ldw site => some (site, fun n => n.op == .ldw)
  | .ldwu site => some (site, fun n => n.op == .ldwu)
  | .st site => some (site, fun n => n.op == .st)
  | .stb site => some (site, fun n => n.op == .stb)
  | .sth site => some (site, fun n => n.op == .sth)
  | .stw site => some (site, fun n => n.op == .stw)
  | .ird site => some (site, fun n => n.op == .ird)
  | .iwr site => some (site, fun n => n.op == .iwr)
  | .iclr site => some (site, fun n => n.op == .iclr)
  | .aadd site => some (site, fun n => n.op == .aadd)
  | .aand site => some (site, fun n => n.op == .aand)
  | .aor site => some (site, fun n => n.op == .aor)
  | .axor site => some (site, fun n => n.op == .axor)
  | .axchg site => some (site, fun n => n.op == .axchg)
  | .acas site => some (site, fun n => n.op == .acas)
  | .amin site => some (site, fun n => n.op == .amin)
  | .amax site => some (site, fun n => n.op == .amax)
  | .lock site => some (site, fun n => n.op == .lock)
  | .trylock site => some (site, fun n => n.op == .trylock)
  | .unlock site => some (site, fun n => n.op == .unlock)
  | .bld site => some (site, fun n => n.op == .bld)
  | .bst site => some (site, fun n => n.op == .bst)
  | .btas site => some (site, fun n => n.op == .btas)
  | .btac site => some (site, fun n => n.op == .btac)
  | .bflip site => some (site, fun n => n.op == .bflip)
  | .blts site => some (site, fun n => n.op == .blts)
  | .respond site => some (site, (fun n => attIs 2 1 n || attUndefined 2 n))
  | .forward site => some (site, (attIs 2 2))
  | .sessionOf site => some (site, (attIs 2 3))
  | .sigSign site => some (site, (fun n => attIs 0 1 n || attUndefined 0 n))
  | .sigVerify site => some (site, (attIs 0 2))
  | .sigVerifyV15 site => some (site, (attIs 0 3))
  | .gcmSeal site => some (site, (fun n => attIs 1 1 n || attUndefined 1 n))
  | .gcmOpen site => some (site, (attIs 1 2))
  | .cmacGen site => some (site, (attIs 1 3))
  | .cmacVerify site => some (site, (attIs 1 4))
  | .hmacGen site => some (site, (attIs 1 5))
  | .hmacVerify site => some (site, (attIs 1 6))
  | .digest site => some (site, (attIs 1 7))
  | .pinXlate site => some (site, (attIs 1 8))
  | .pinXlateDukpt site => some (site, (attIs 1 9))
  | .random site => some (site, (attIs 1 10))
  | .customerLogicCall site => some (site, (fun n => n.op == .att && n.att == 7))
  | _ => none

/-- The commands of the Glolet core alone (R174, R175), with the opcode that each takes. -/
def coreRow (c : Instr) : Option Op :=
  match c with
  | .jmp => some .jmp
  | .bz => some .bz
  | .bnz => some .bnz
  | .jal => some .jal
  | .jr => some .jr
  | .ret => some .ret
  | .trapret => some .trapret
  | .halt => some .halt
  | .wfi => some .wfi
  | .nop => some .nop
  | .csrr => some .csrr
  | .csrw => some .csrw
  | _ => none

/-- A cell holds a firing that can go on: at its head stands firing `f`, whose first token is `t`, and the octets fetched for it
are those of node `n`; its execute stage is free and its router has room for what it emits (R78, R79, R89). -/
def Dev.headReady (d : Dev) (pos c : Nat) (f : Firing) (t : W128) (n : Node) : Prop :=
  ∃ l, (d.cell pos c).pipe.head? = some ⟨f, some l⟩ ∧ f.toks.head? = some t ∧ decodeNode l = .ok n ∧ d.cellReady pos c n = true

/-- The Glolet core runs (R358), stands at an address that can be executed, and its octets there are those of `n`. -/
def Dev.coreReady (d : Dev) (n : Node) : Prop :=
  d.coreRuns = true ∧ coreExec d.wrd.core.pc = true ∧ decodeGlolet d.coreFetch = .ok n

/-- The dictionary request that a command carries (R374). -/
def asked (c : Instr) : Option DReq :=
  match c with
  | .sesEnable r => some r
  | .sesOperatorClose r => some r
  | .sesDisable r => some r
  | .ingressEnableWrite r => some r
  | .ringEnable r => some r
  | .ringDisable r => some r
  | .overrunClear r => some r
  | .watermarkWrite r => some r
  | .forceStandin r => some r
  | .ckptRequest r => some r
  | .orphanBreak r => some r
  | .masterKeyCmd r => some r
  | .keyDelete r => some r
  | .importCmd r => some r
  | .exportCmd r => some r
  | .component r => some r
  | .genCmd r => some r
  | .zeroize r => some r
  | .drbgRestart r => some r
  | .taiSet r => some r
  | .taiSlewNs r => some r
  | .tbSourceWrite r => some r
  | .dictRead r => some r
  | .objectWrite r => some r
  | .transferBegin r => some r
  | .segmentWrite r => some r
  | .segmentRead r => some r
  | .transferEnd r => some r
  | .wardRestart r => some r
  | .fwCommand r => some r
  | .store r => some r
  | .restore r => some r
  | .storeErase r => some r
  | .imgActivate r => some r
  | .imgDeactivate r => some r
  | .imgErase r => some r
  | .routeSwap r => some r
  | .domainPowerDown r => some r
  | .domainPowerUp r => some r
  | .linkEnableSet r => some r
  | .linkEnableClear r => some r
  | .deviceIdWrite r => some r
  | .ethSplit r => some r
  | .faultAck r => some r
  | .faultClear r => some r
  | .bistCmd r => some r
  | .injArm r => some r
  | .cntConfig r => some r
  | .cntValueWrite r => some r
  | .cntValueRead r => some r
  | .ovfPop r => some r
  | .sysResetCmd r => some r
  | .coreResetCmd r => some r
  | .srRing r => some r
  | .srCrypto r => some r
  | .srPcie r => some r
  | .srLinks r => some r
  | .srEth r => some r
  | .srHasp r => some r
  | .srKeyway r => some r
  | .srFabric r => some r
  | .fullSoftReset r => some r
  | .boostEnable r => some r
  | _ => none

/-- `n` steps from an outcome; a fault or a refusal stays. -/
def runN : Nat → Host.Outcome State Fault Refusal → Host.Outcome State Fault Refusal
  | 0, o => o
  | n + 1, .next s => runN n (step s)
  | _ + 1, o => o

/-- What may be done to a spill queue in auto-release mode (R91, R97). -/
inductive QStep (α : Type) where
  | write (x : α) | burst | refill | read

/-- A spill queue with the cells that were written and not ignored, and those that were read, both oldest first. -/
structure QTrace (α : Type) where
  q        : SQ α
  accepted : List α
  taken    : List α

/-- One operation on a spill queue, noted. -/
def QTrace.act {α : Type} (c : SqCfg) (t : QTrace α) : QStep α → QTrace α
  | .write x => { t with q := sqWrite c t.q x, accepted := if sqTakes c t.q then t.accepted ++ [x] else t.accepted }
  | .burst => { t with q := sqBurst c t.q }
  | .refill => { t with q := sqDoRefill c t.q }
  | .read => match sqReadAuto c t.q with
    | some (x, q) => { t with q := q, taken := t.taken ++ [x] }
    | none => t

end Sys2Proof.Machine
end

