-- ==== Sys2Proof/Certificates/Slice0/Obligations.lean ====
section
/-! DEFINITION. The statements for the provers: what each family of commands does, the rules of the arithmetic, the queues, the
token check and the object dictionary, and what holds of the whole block. -/

open Sys2Proof Sys2Proof.Machine

/-- A step runs the command at the front of the queue on the state with the queue's rest. On an empty queue (log 6, the model's
choice) a nanosecond passes: the count of ns goes up by one, the queue stays empty, configuration and identity stay. -/
def Obligations.StepRunsFront : Prop :=
  (∀ (c : Instr) (s : State), s.pending.head? = some c → step s = exec c { s with pending := s.pending.tail })
  ∧ (∀ s : State, s.pending = [] → ∃ t : State, step s = .next t ∧ t.pending = [] ∧ t.dev.up = s.dev.up + 1
      ∧ t.dev.part = s.dev.part ∧ t.dev.ident = s.dev.ident)

/-- Every command completes, in every state: it gives a next state, leaves the commands that wait, the configuration, the
identity and the count of ns as they were. The block has no condition that stops it. -/
def Obligations.EveryCommandCompletes : Prop :=
  ∀ (c : Instr) (s : State), ∃ t : State, exec c s = .next t ∧ t.pending = s.pending ∧ t.dev.part = s.dev.part
    ∧ t.dev.ident = s.dev.ident ∧ t.dev.up = s.dev.up

/-- The queue drains: from every state the commands that wait run in their order, one a step, and after as many steps as there
are commands the queue is empty; each step runs the command that stood at that place; no time passes meanwhile. -/
def Obligations.QueueDrains : Prop :=
  ∀ (s : State) (k : Nat), k ≤ s.pending.length →
    ∃ t : State, runN k (.next s) = .next t ∧ t.pending = s.pending.drop k ∧ t.dev.up = s.dev.up
      ∧ (∀ c, s.pending[k]? = some c → runN (k + 1) (.next s) = exec c { t with pending := t.pending.tail })

/-- The invariant of the block is kept by every step from every state that has it, reachable or not; and so it is by every number
of steps. -/
def Obligations.StepKeepsInv : Prop :=
  ∀ (p : Part) (i : Ident) (s : State), s.Inv p i → ∀ n : Nat, ∃ t : State, runN n (.next s) = .next t ∧ t.Inv p i

/-- Right after reset the block has the invariant, as the part that log 1 names and with the identity of log 3 (the model's
choices). -/
def Obligations.ResetHasInv : Prop := State.reset.Inv .x Ident.factory

/-- What power-on reset leaves (R310, R372, R392, R422, R423): every position off and every cell without a firing; no context
living and every generation 0; every session Disabled and without a connection, every message ring off; no object off its
default; the timebase in wait-lock and Unset at 0; both hinges closed; fault source 0x01 Open and every other Idle; counters
at 0; the bit store and the structure memory with nothing listed; no dictionary session, no link, the PCIe link down. Of the
registers to which the spec gives no value those of the Glolet core are 0 (log 1, the model's choice). Nothing waits. -/
def Obligations.ResetValues : Prop :=
  State.reset.pending = []
  ∧ (∀ i k, State.reset.dev.obj i k = objDefault .x i k)
  ∧ (∀ p c, (State.reset.dev.cell p c).pipe = [] ∧ (State.reset.dev.pos p).st = .off)
  ∧ (∀ n, State.reset.dev.life n = none ∧ State.reset.dev.gen n = 0)
  ∧ (∀ n, (State.reset.dev.sess n).st = .disabled ∧ (State.reset.dev.sess n).tcb.conn = false)
  ∧ (∀ r, (State.reset.dev.ing r).q.on = false ∧ (State.reset.dev.egr r).q.on = false)
  ∧ State.reset.dev.tb.waitLock = true ∧ State.reset.dev.tb.st = .unset ∧ State.reset.dev.tai = 0
  ∧ State.reset.dev.rng.hinge = [false, false]
  ∧ (tget srcInit State.reset.dev.flt.srcs 1).st = .opened
  ∧ (∀ k, k ≠ 1 → (tget srcInit State.reset.dev.flt.srcs k).st = .idle)
  ∧ (∀ k, (tget ctrInit State.reset.dev.perf.ctrs k).count = 0)
  ∧ State.reset.dev.mem.bitOct = [] ∧ State.reset.dev.mem.cells = []
  ∧ State.reset.dev.wrd.sessions = [] ∧ State.reset.dev.wrd.core.g = []
  ∧ State.reset.dev.lnk.links = [] ∧ State.reset.dev.lnk.pcieUp = false

/-- The token check (R31), whole. The word made of a 112-bit message has it in [127:16]; `CHECK`[15:2] is the remainder of m(x) ·
x^14 by g(x), the product of the two polynomials of the rule; `CHECK`[0] is 0; the number of ones is even. It checks clean;
with any one or two of its 128 bits flipped it is corrected to what it was; with any three flipped it is found uncorrectable. -/
def Obligations.TokenCheckCorrects : Prop :=
  let times (q g : Nat) : Nat := (List.range 128).foldl (fun a i => if q.testBit i then a ^^^ (g <<< i) else a) 0
  times 0x89 0x8F = 0x4377
  ∧ ∀ m : Nat, m < 2 ^ 112 →
    (withCheck m).toNat / 65536 = m
    ∧ (∃ q, q < 2 ^ 112 ∧ times q 0x4377 = (m <<< 14) ^^^ bits (withCheck m).toNat 15 2)
    ∧ (withCheck m).getLsbD 0 = false
    ∧ ((List.range 128).filter (fun i => (withCheck m).getLsbD i)).length % 2 = 0
    ∧ checkWord (withCheck m) = .clean
    ∧ (∀ i, i < 128 → checkWord (flipBit (withCheck m) i) = .corrected (withCheck m))
    ∧ (∀ i j, i < 128 → j < 128 → i ≠ j → checkWord (flipBit (flipBit (withCheck m) i) j) = .corrected (withCheck m))
    ∧ (∀ i j k, i < 128 → j < 128 → k < 128 → i ≠ j → i ≠ k → j ≠ k →
        checkWord (flipBit (flipBit (flipBit (withCheck m) i) j) k) = .uncorrectable)

/-- The fields of a token (R26, R27): a token made of a context, generation, iteration, node address, port, value, kind and
status, each within its width, has every one of them at the bits that the rules give it, and zero in `TAG`[1:0]. -/
def Obligations.TokenFields : Prop :=
  ∀ (ctx gen iter node port value kind st : Nat), ctx < 2 ^ 24 → gen < 64 → iter < 1024 → node < 2 ^ 20 → port < 4 →
    value < 2 ^ 40 → kind < 8 → st < 32 →
    let t := (mkTok (mkTag ctx gen iter node port) value kind st).toNat
    t / 2 ^ 104 = ctx ∧ t / 2 ^ 98 % 64 = gen ∧ t / 2 ^ 88 % 1024 = iter ∧ t / 2 ^ 68 % 2 ^ 20 = node ∧ t / 2 ^ 66 % 4 = port
      ∧ t / 2 ^ 64 % 4 = 0 ∧ t / 2 ^ 24 % 2 ^ 40 = value ∧ t / 2 ^ 21 % 8 = kind ∧ t / 2 ^ 16 % 32 = st

/-- A spill queue gives back what it took, in order and whole (R91, R92, R94): whatever is done to an enabled queue in auto-
release mode, in whatever order — writes, bursts, refills, reads — and however many free blocks its block source then has,
the cells read, then the cells in the queue, then the held writes are exactly the cells that were written and not ignored;
and the queue, with its held writes, never holds more than its capacity of 128 cells and the middle limit `m`. -/
def Obligations.SpillQueueOrder : Prop :=
  ∀ (α : Type) (m : Nat) (l : List (SqCfg × QStep α)), (∀ x ∈ l, x.1.limit = m) →
    let t := l.foldl (fun (t : QTrace α) x => t.act x.1 x.2) ⟨sqEnable sqOff, [], []⟩
    t.accepted = t.taken ++ sqCells t.q ++ t.q.held ∧ sqFill t.q + t.q.held.length ≤ 128 + m

/-- Requests that the ward discards (R374, R376): with the ward up, a request to a session that is closed or not yet open, or one
whose `MAC` is wrong, has, whichever command carries it and whatever it asks for, no effect but the count 0x1200:03, and the
count 0xC400:05 where its session has proved no role (which access counts there is the model's reading, log 129) — not on any
object, not on any session, and no frame leaves. The command whose request it is counts it; any other changes nothing. (A
transfer's begin also lets a store of configuration that is due take place.) -/
def Obligations.UnauthenticatedRequests : Prop :=
  ∀ (c : Instr) (r : DReq) (s : State), asked c = some r → s.dev.wardUp = true → r.sess ≠ wardSes →
    (∀ w, tget? s.dev.wrd.sessions r.sess = some w → w.stage ≠ .opened ∨ s.dev.macOk w r = false) →
    (c ≠ .transferBegin r → Gives c s s.dev ∨ Gives c s (s.dev.discardReq r.sess))
    ∧ (c = .transferBegin r → Gives c s s.dev.storeDue ∨ Gives c s (s.dev.discardReq r.sess).storeDue)
    ∧ (r.op = 1 → r.idx = 0 → Gives (.dictRead r) s (s.dev.discardReq r.sess))
    ∧ (r.op = 2 → s.dev.rowOf r = .plain → Gives (.objectWrite r) s (s.dev.discardReq r.sess))
    ∧ (r.op = 4 → Gives (.segmentWrite r) s (s.dev.discardReq r.sess))
    ∧ (r.op = 5 → Gives (.segmentRead r) s (s.dev.discardReq r.sess))
    ∧ (r.op = 6 → Gives (.transferEnd r) s (s.dev.discardReq r.sess))

/-- Writes that a role is not granted and requests that repeat (R8, R374): a write with `OP` 2 by a role without the right to
write the object changes nothing but the count of that role in 0xC400 and what an answer changes, whichever command carries
it; a request of an open session whose `SEQ` was answered before changes nothing but what an answer changes: it is not
applied again. -/
def Obligations.GuardedWrites : Prop :=
  (∀ (c : Instr) (r : DReq) (s : State) (ro : Role) (e : Dev) (o : ORow), asked c = some r → c ≠ .transferBegin r →
    r.op = 2 → s.dev.admits r = some (ro, e) → objRow s.dev.part r.idx r.sub = some o → o.mayWrite ro = false →
    Does c s (fun t => t = s.dev ∨ t.answers (e.bump 0xC400 (roleNum ro + 1))))
  ∧ (∀ (r : DReq) (s : State) (ro : Role) (e : Dev) (o : ORow), r.op = 2 → s.dev.rowOf r = .plain →
    s.dev.admits r = some (ro, e) → objRow s.dev.part r.idx r.sub = some o → o.mayWrite ro = false →
    Does (.objectWrite r) s (fun t => t.answers (e.bump 0xC400 (roleNum ro + 1))))
  ∧ (∀ (c : Instr) (r : DReq) (s : State) (w : WSes), asked c = some r → c ≠ .transferBegin r → s.dev.wardUp = true →
    r.sess ≠ wardSes → tget? s.dev.wrd.sessions r.sess = some w → w.stage = .opened → s.dev.macOk w r = true →
    (∃ x ∈ w.done, x.1 = r.seq) → Does c s (fun t => t.answers s.dev))

/-- Stores of the Glolet core to the ward's memory (R358): octets stored within the 512 KiB from 0x100000 are there afterwards,
every other octet of that memory reads as before, the memory keeps its canonical form, and nothing else of the block changes. -/
def Obligations.WardMemoryStores : Prop :=
  ∀ (d : Dev) (a : Nat) (l : List Byte), 0x100000 ≤ a → a + l.length ≤ 0x180000 →
    ∃ m, d.coreStore a l = { d with wrd := { d.wrd with sram := m } }
      ∧ (∀ i (h : i < l.length), memByte m (a + i) = l[i])
      ∧ (∀ b, (b < a ∨ a + l.length ≤ b) → memByte m b = memByte d.wrd.sram b)
      ∧ (memWf d.wrd.sram = true → memWf m = true)

/-- Rows of the node encoding whose node has class D or Q (R172, R181, R192): the cell takes its head firing on. Class D writes
its slot, sends its result to its destinations, and `RAISE` brings about the exception that its operand names; class Q also
leaves the frame with the flags, banks and modes of the operation. A write of a firing whose generation is no longer the
context's is dropped and counted (R50). The firing then ends: its execute units are counted and the cell's stage is taken
until they are over. -/
def Obligations.DataflowRows : Prop :=
  ∀ (c : Instr) (s : State) (pos cell : Nat) (want : Node → Bool) (f : Firing) (t : W128) (n : Node),
    nodeRow c = some (.cell pos cell, want) → want n = true → s.dev.headReady pos cell f t n →
    (n.cls = .D → Gives c s (
      let x := s.dev.fireCtx pos cell f t n
      let ops := x.operands x.fr 0
      let u := execUnits n.op .D n.wide.isSome n.fix n.isSeal x.fr.subnormal ops
      let o := (s.dev.dOp x ops).1
      let d := (s.dev.dOp x ops).2
      let d := match o.slot with | some v => if n.sw.isSome then d.fireWrite x 1 (fun g => x.slotWrite g v) else d | none => d
      let d := d.emitOuts x o
      let d := if n.op = .raise then d.fireExc x 1 (0x800 + (ops.getD 0 noOpd).v % 2048) 0 else d
      d.retire x u (d.lives x)))
    ∧ (n.cls = .Q → Gives c s (
      let x := s.dev.fireCtx pos cell f t n
      let ops := x.operands x.fr 0
      let u := execUnits n.op .Q n.wide.isSome n.fix n.isSeal x.fr.subnormal ops
      let o := (qOp n.op x.fr ops).2
      let d := s.dev.fireWrite x (b2n (qWrites n.op) + b2n n.sw.isSome) (fun g =>
        match o.slot with | some v => x.slotWrite (qOp n.op g ops).1 v | none => (qOp n.op g ops).1)
      (d.emitOuts x o).retire x u (d.lives x)))

/-- Rows whose node has a split-phase class M, Y, K, B or T (R40, R177, R196–R204, R263, R276, R286): the cell sends the request
to the unit that serves it and the firing ends with one execute slot; a destination on which the node may not send is handled
at once; a request whose memory claim is refused counts no wasted slot of its own. -/
def Obligations.SplitPhaseRows : Prop :=
  ∀ (c : Instr) (s : State) (pos cell : Nat) (want : Node → Bool) (f : Firing) (t : W128) (n : Node),
    nodeRow c = some (.cell pos cell, want) → want n = true → s.dev.headReady pos cell f t n →
    n.cls ∈ [Cls.M, .Y, .K, .B, .T] → Gives c s (
      let x := s.dev.fireCtx pos cell f t n
      let r := s.dev.splitPhase x
      let d := (n.dsts.zipIdx.filter (fun (p : Dst × Nat) => !n.permits p.2)).foldl (fun d (p : Dst × Nat) => d.loopDst x p.1) r.2
      (d.loopRet x).retire x 1 (!r.1))

/-- Rows whose node has a class of computation A, L, S, C, V or F (R154, R160–R169): the firing runs its operation as often as
its repeat count says, from the frame as it stands; a write octet leaves the slots of the last repetition in the frame; a
trap brings about an arithmetic exception in place of any result, and otherwise the result goes to the destinations. The
other way out of the same rows: a cell with no firing in its pipe stays as it is, and so does one whose head firing is of
another row. -/
def Obligations.ComputeRows : Prop :=
  (∀ (c : Instr) (s : State) (pos cell : Nat) (want : Node → Bool) (f : Firing) (t : W128) (n : Node),
    nodeRow c = some (.cell pos cell, want) → want n = true → s.dev.headReady pos cell f t n →
    n.cls ∉ [Cls.D, .Q, .M, .Y, .K, .B, .T] → Gives c s (
      let x := s.dev.fireCtx pos cell f t n
      let e := x.repeat x.count 0 x.fr none 0 0
      let d := if n.sw.isSome then s.dev.fireWrite x e.wrote (fun g => { g with slots := e.fr.slots }) else s.dev
      match e.out with
      | none => (d.fireExc x 2 e.trap 0).retire x e.units (d.lives x)
      | some o => (d.emitOuts x o).retire x e.units (d.lives x)))
  ∧ (∀ (c : Instr) (s : State) (pos cell : Nat) (want : Node → Bool), nodeRow c = some (.cell pos cell, want) →
    (s.dev.cell pos cell).pipe = [] → Gives c s s.dev)
  ∧ (∀ (c : Instr) (s : State) (pos cell : Nat) (want : Node → Bool) (f : Firing) (t : W128) (n : Node),
    nodeRow c = some (.cell pos cell, want) → want n = false → s.dev.headReady pos cell f t n → Gives c s s.dev)

/-- A node whose encoding is illegal (R171): a firing that DISPATCH gives to a cell, with tokens that are whole and of the
generation that the context has, decodes its node as it begins; the exception of kind 3 with the reason comes about in its
place, and the cell's execute stage is taken for one slot. -/
def Obligations.IllegalNode : Prop :=
  ∀ (s : State) (pos pri c e : Nat) (f : Firing) (t : W128) (d : Dev), (s.dev.pos pos).st = .inService →
    s.dev.pick pos 8 = some (.give pri f) → f.toks.head? = some t → s.dev.popReady pos pri = d →
    (d.pos pos).idleCell d.up = some c → (d.pos pos).code.contains (lineKey (tNode t)) = true → (d.pos pos).badCode = [] →
    d.flt.injLeft = 0 → (∀ u ∈ f.toks, checkWord u = .clean ∧ tokMalformed u (d.shapeOf (tNode t)) = false) →
    tGen t = d.gen (tCtx t) → decodeNode (d.codeAt (tNode t)) = .error e →
    Gives (.dispatch pos) s (d.fireIllegal (d.fireCtx pos c { f with pri := pri } t illegalNode) e)

/-- Instructions of the Glolet core (R173, R174, R194, R195, R358, R360), for every one of its opcodes: the core, where it runs,
takes the instruction at `PC` on. Its cycles are counted. Class G goes where it says; class M loads a register or stores its
octets; class D passes its operand, or the feature word; any other class runs its repetitions over the registers, and an
emulated operation leaves as a trap that returned: cause 1, the saved `PC` at the next instruction, interrupts open. -/
def Obligations.GloletRows : Prop :=
  ∀ (c : Instr) (s : State) (n : Node),
    (coreRow c = some n.op ∨ ∃ want, nodeRow c = some (.glolet, want) ∧ want n = true) → s.dev.coreReady n →
    Gives c s (
      let x := s.dev.coreCtx n
      let next := (s.dev.wrd.core.pc + n.len) % 2 ^ 24
      let d := (s.dev.coreCycles x).2.modCore (fun k => { k with cycles := (k.cycles + (s.dev.coreCycles x).1) % 2 ^ 40 })
      match n.cls with
      | .G => d.coreG x next
      | .M => (((d.coreM x).2).coreResult x (d.coreM x).1).modCore (fun k => { k with pc := next })
      | .D => (d.coreResult x (if n.op = .feat then wordOp (featWord d.part true (((x.operands x.fr 0).getD 0 noOpd).v % 256))
          else (x.operands x.fr 0).getD 0 noOpd)).modCore (fun k => { k with pc := next })
      | _ =>
        let e := x.repeat x.count 0 x.fr none 0 0
        let d := if n.op = .eb2as ∨ n.op = .as2eb then { d with free := d.free + 256 } else d
        let d := d.modCore (fun k => k.setRegs e.fr.slots)
        let d := match e.out with | some o => d.modCore (fun k => { k with st := o.st }) | none => d
        d.modCore (fun k => if emulated n.op then { k with cause := 1, tpc := next, masked := false, pc := next }
          else { k with pc := next }))

/-- Control on the Glolet core (R175, R359), with no counted repetition: each branch form leaves `PC` as its row of the table
says and nothing else of the core but the count of cycles, the register that `JAL` writes, the flags that `HALT`, `WFI` and
`TRAPRET` set. An address that cannot be executed, or an instruction that runs past the end of its memory, traps with cause 3
and an illegal instruction with cause 2: `PASS` saves `PC`, masks interrupts and goes to 0x100040. GLOLET_INTERRUPT takes the
lowest pending cause that is enabled to 0x100080. -/
def Obligations.GloletControl : Prop :=
  (∀ (s : State) (n : Node), s.dev.coreReady n → n.cls = .G →
    let k := s.dev.wrd.core
    let next : Nat := (k.pc + n.len) % 2 ^ 24
    let x := s.dev.coreCtx n
    let a := (x.operands x.fr 0).getD 0 noOpd
    let b := (x.operands x.fr 0).getD 1 noOpd
    let there (o : Opd) : Nat := (BitVec.ofInt 24 ((next : Int) + o.s)).toNat
    let k1 : Glolet := { k with cycles := (k.cycles + x.count) % 2 ^ 40 }
    let leaves (c : Instr) (q : Glolet) : Prop := Gives c s { s.dev with wrd := { s.dev.wrd with core := q } }
    (n.op = .jmp → leaves .jmp { k1 with pc := there a })
    ∧ (n.op = .bz → leaves .bz { k1 with pc := if a.v = 0 then there b else next })
    ∧ (n.op = .bnz → leaves .bnz { k1 with pc := if a.v = 0 then next else there b })
    ∧ (∀ m, n.op = .jal → n.sw = some m → leaves .jal { k1 with g := tput 0 k1.g m (next % 2 ^ 40), pc := there a })
    ∧ (n.op = .jr → leaves .jr { k1 with pc := a.v % 2 ^ 24 })
    ∧ (n.op = .ret → leaves .ret { k1 with pc := (tget 0 k.g 1) % 2 ^ 24 })
    ∧ (n.op = .trapret → leaves .trapret { k1 with pc := k.tpc, masked := false })
    ∧ (n.op = .halt → leaves .halt { k1 with pc := next, halted := true })
    ∧ (n.op = .wfi → leaves .wfi { k1 with pc := next, waiting := true })
    ∧ (n.op = .nop → leaves .nop { k1 with pc := next }))
  ∧ (∀ s : State, s.dev.coreRuns = true →
    (coreExec s.dev.wrd.core.pc = false → Gives (.pass .glolet) s { s.dev with wrd := { s.dev.wrd with core :=
        { s.dev.wrd.core with tpc := s.dev.wrd.core.pc, cause := 3, masked := true, waiting := false, pc := 0x100040 } } })
    ∧ (∀ e, coreExec s.dev.wrd.core.pc = true → decodeGlolet s.dev.coreFetch = .error e →
      Gives (.pass .glolet) s { s.dev with wrd := { s.dev.wrd with core :=
        { s.dev.wrd.core with tpc := s.dev.wrd.core.pc, cause := if e = 0x00F then 3 else 2, masked := true, waiting := false, pc := 0x100040 } } }))
  ∧ (∀ (s : State) (i : Nat), i < 5 → s.dev.wrd.up = true → s.dev.wrd.core.halted = false → s.dev.wrd.core.masked = false →
    bit (s.dev.wrd.core.irqEn &&& s.dev.wrd.core.irqPend) i = true →
    (∀ j < i, bit (s.dev.wrd.core.irqEn &&& s.dev.wrd.core.irqPend) j = false) →
    Gives .gloletInterrupt s { s.dev with wrd := { s.dev.wrd with core :=
      { s.dev.wrd.core with tpc := s.dev.wrd.core.pc, cause := 0x10 + i, masked := true, waiting := false, pc := 0x100080 } } })

/-- Sums and differences (R182), for words and, under WIDE, for pairs, without SAT and FIX. The result is the exact value reduced
modulo 2^w; `V` says that the exact signed value is out of range and `C` is the carry or borrow: ADD, ADC, SUB, SBB, NEG, INC
and DEC. -/
def Obligations.SumResults : Prop :=
  ∀ (w : Nat) (a b : BitVec w) (c : Opd) (e : AluEnv) (k1 k2 s1 s2 : Nat), w = 40 ∨ w = 80 → e.w = w → e.sat = false → e.fix = false →
    let wd := decide (w = 80)
    let A : Opd := ⟨a.toNat, wd, k1, s1⟩
    let B : Opd := ⟨b.toNat, wd, k2, s2⟩
    let z : BitVec w := BitVec.ofNat w (b2n c.b0)
    let out (i : Int) : Bool := decide (i < -2 ^ (w - 1)) || decide (2 ^ (w - 1) ≤ i)
    let st (v cy : Bool) : Nat := mkStatus v cy false false false
    aluExec .add .A e [A, B] = .ok (a + b).toNat none (st (out (a.toInt + b.toInt)) (decide (2 ^ w ≤ a.toNat + b.toNat))) false
    ∧ aluExec .adc .A e [A, B, c] = .ok (a + b + z).toNat none
        (st (out (a.toInt + b.toInt + b2n c.b0)) (decide (2 ^ w ≤ a.toNat + b.toNat + b2n c.b0))) false
    ∧ aluExec .sub .A e [A, B] = .ok (a - b).toNat none (st (out (a.toInt - b.toInt)) (decide (a.toNat < b.toNat))) false
    ∧ aluExec .sbb .A e [A, B, c] = .ok (a - b - z).toNat none
        (st (out (a.toInt - b.toInt - b2n c.b0)) (decide (a.toNat < b.toNat + b2n c.b0))) false
    ∧ aluExec .neg .A e [A] = .ok (-a).toNat none (st (a == BitVec.intMin w) (a != 0)) false
    ∧ aluExec .inc .A e [A] = .ok (a + 1).toNat none (st (a == BitVec.intMax w) (a == -1)) false
    ∧ aluExec .dec .A e [A] = .ok (a - 1).toNat none (st (a == BitVec.intMin w) (a == 0)) false

/-- Products, quotients and extremes (R182, R183), for words and, under WIDE, for pairs, without SAT and FIX: MUL, MULH, MULHU,
MAC, MSUB, DIV truncated toward zero with its remainder of the sign of *a*, DIVU, and division by zero with quotient 0,
remainder *a* and `Z`; MIN, MAX, MINU, MAXU and ABS. -/
def Obligations.ProductResults : Prop :=
  ∀ (w : Nat) (a b c : BitVec w) (e : AluEnv) (k1 k2 k3 s1 s2 s3 : Nat), w = 40 ∨ w = 80 → e.w = w → e.sat = false → e.fix = false →
    let wd := decide (w = 80)
    let A : Opd := ⟨a.toNat, wd, k1, s1⟩
    let B : Opd := ⟨b.toNat, wd, k2, s2⟩
    let C : Opd := ⟨c.toNat, wd, k3, s3⟩
    let out (i : Int) : Bool := decide (i < -2 ^ (w - 1)) || decide (2 ^ (w - 1) ≤ i)
    let st (v z : Bool) : Nat := mkStatus v false z false false
    aluExec .mul .A e [A, B] = .ok (a * b).toNat none (st (out (a.toInt * b.toInt)) false) false
    ∧ aluExec .mulh .A e [A, B] = .ok ((a.signExtend (2 * w) * b.signExtend (2 * w)).extractLsb' w w).toNat none 0 false
    ∧ aluExec .mulhu .A e [A, B] = .ok ((a.zeroExtend (2 * w) * b.zeroExtend (2 * w)).extractLsb' w w).toNat none 0 false
    ∧ aluExec .mac .A e [A, B, C] = .ok (a + b * c).toNat none (st (out (a.toInt + b.toInt * c.toInt)) false) false
    ∧ aluExec .msub .A e [A, B, C] = .ok (a - b * c).toNat none (st (out (a.toInt - b.toInt * c.toInt)) false) false
    ∧ aluExec .div .A e [A, B] = (if b = 0 then .ok 0 (some a.toNat) (st false true) false
        else .ok (a.sdiv b).toNat (some (a.srem b).toNat) (st (a == BitVec.intMin w && b == -1) false) false)
    ∧ aluExec .divu .A e [A, B] = (if b = 0 then .ok 0 (some a.toNat) (st false true) false
        else .ok (a / b).toNat (some (a % b).toNat) 0 false)
    ∧ aluExec .min .A e [A, B] = .ok (if a.slt b then a else b).toNat none 0 false
    ∧ aluExec .max .A e [A, B] = .ok (if a.slt b then b else a).toNat none 0 false
    ∧ aluExec .minu .A e [A, B] = .ok (if a.ult b then a else b).toNat none 0 false
    ∧ aluExec .maxu .A e [A, B] = .ok (if a.ult b then b else a).toNat none 0 false
    ∧ aluExec .abs .A e [A] = .ok (if a.slt 0 then -a else a).toNat none (st (a == BitVec.intMin w) false) false

/-- R184 as it stands: `AND`, `OR`, `XOR`, `NOT`, `ANDN`, `ORN` and `XNOR` act bitwise on words, or on pairs under WIDE, and set
no status; `BAND`, `BOR`, `BXOR` and `BNOT` take bit 0 of their operands and produce a bit result. -/
def Obligations.LogicResults : Prop :=
  (∀ (w : Nat) (a b : BitVec w) (e : AluEnv) (k1 k2 s1 s2 : Nat), w = 40 ∨ w = 80 → e.w = w →
    let A : Opd := ⟨a.toNat, decide (w = 80), k1, s1⟩
    let B : Opd := ⟨b.toNat, decide (w = 80), k2, s2⟩
    aluExec .and .L e [A, B] = .ok (a &&& b).toNat none 0 false
    ∧ aluExec .or .L e [A, B] = .ok (a ||| b).toNat none 0 false
    ∧ aluExec .xor .L e [A, B] = .ok (a ^^^ b).toNat none 0 false
    ∧ aluExec .not .L e [A] = .ok (~~~a).toNat none 0 false
    ∧ aluExec .andn .L e [A, B] = .ok (a &&& ~~~b).toNat none 0 false
    ∧ aluExec .orn .L e [A, B] = .ok (a ||| ~~~b).toNat none 0 false
    ∧ aluExec .xnor .L e [A, B] = .ok (~~~(a ^^^ b)).toNat none 0 false)
  ∧ (∀ (a b : Opd) (e : AluEnv),
    aluExec .band .L e [a, b] = .ok (b2n (a.v.testBit 0 && b.v.testBit 0)) none 0 true
    ∧ aluExec .bor .L e [a, b] = .ok (b2n (a.v.testBit 0 || b.v.testBit 0)) none 0 true
    ∧ aluExec .bxor .L e [a, b] = .ok (b2n (a.v.testBit 0 != b.v.testBit 0)) none 0 true
    ∧ aluExec .bnot .L e [a] = .ok (b2n (!a.v.testBit 0)) none 0 true)

/-- Shifts and rotates (R185), for words and, under WIDE, for pairs: the count `n` is the operand's low octet. SHL, SHR and SAR
give the shifted value for every count 0–255 with `C` the last bit that left (for a SAR past the width the sign bit), `V` of
a SHL says that bits of the signed value were lost, and under SAT such a SHL gives the largest or the symmetric smallest
value; ROL and ROR rotate by `n` modulo the width and set no status. -/
def Obligations.ShiftResults : Prop :=
  ∀ (w : Nat) (a : BitVec w) (b : Opd) (e : AluEnv) (k1 s1 : Nat), w = 40 ∨ w = 80 → e.w = w →
    let A : Opd := ⟨a.toNat, decide (w = 80), k1, s1⟩
    let n := b.v % 256
    let lost : Bool := decide (a.toInt * 2 ^ n < -2 ^ (w - 1)) || decide (2 ^ (w - 1) ≤ a.toInt * 2 ^ n)
    let st (v c : Bool) : Nat := mkStatus v c false false false
    (e.sat = false → aluExec .shl .S e [A, b] = .ok (a <<< n).toNat none
      (st (decide (0 < n) && lost) (decide (0 < n) && decide (n ≤ w) && a.getLsbD (w - n))) false)
    ∧ (e.sat = true → (0 < n ∧ lost = true) → aluExec .shl .S e [A, b] = .ok (if 0 < a.toInt then BitVec.intMax w
        else BitVec.intMin w + 1).toNat none (st true (decide (n ≤ w) && a.getLsbD (w - n))) false)
    ∧ aluExec .shr .S e [A, b] = .ok (a >>> n).toNat none (st false (decide (0 < n) && decide (n ≤ w) && a.getLsbD (n - 1))) false
    ∧ aluExec .sar .S e [A, b] = .ok (a.sshiftRight n).toNat none
        (st false (decide (0 < n) && (if n < w then a.getLsbD (n - 1) else a.msb))) false
    ∧ aluExec .rol .S e [A, b] = .ok (a.rotateLeft (n % w)).toNat none 0 false
    ∧ aluExec .ror .S e [A, b] = .ok (a.rotateRight (n % w)).toNat none 0 false

/-- R187 as it stands: `HASH` of two words, with all arithmetic modulo 2^40, and no status. -/
def Obligations.HashResult : Prop :=
  ∀ (a b : BitVec 40) (e : AluEnv) (k1 k2 s1 s2 : Nat),
    let x0 := a ^^^ b
    let x1 := x0 ^^^ (x0 >>> 19)
    let x2 := x1 * 0xB529E374C1#40
    let x3 := x2 ^^^ (x2 >>> 21)
    let x4 := x3 * 0x9F6B2D1E57#40
    aluExec .hash .S e [⟨a.toNat, false, k1, s1⟩, ⟨b.toNat, false, k2, s2⟩] = .ok (x4 ^^^ (x4 >>> 17)).toNat none 0 false

/-- R190 as it stands, and clauses of R191: the compares test equality, signed and unsigned order and common bits, on words and,
under WIDE, on pairs, and answer a word or, at 0x50–0x57, a bit; `CBIT` and `CBITB` test a value bit below w, a bit of the
`STATUS` that came with *a* at w to w + 4, and beyond give 0 with `I`; an operand of a source octet has `STATUS` 0. -/
def Obligations.CompareResults : Prop :=
  (∀ (w : Nat) (a b : BitVec w) (e : AluEnv) (k1 k2 s1 s2 : Nat), w = 40 ∨ w = 80 → e.w = w →
    let A : Opd := ⟨a.toNat, decide (w = 80), k1, s1⟩
    let B : Opd := ⟨b.toNat, decide (w = 80), k2, s2⟩
    let p (i : Fin 7) : Bool := match i with
      | 0 => a == b | 1 => a != b | 2 => a.slt b | 3 => a.sle b | 4 => a.ult b | 5 => a.ule b | 6 => (a &&& b) != 0
    let wordOps : List Op := [.ceq, .cne, .clt, .cle, .cltu, .cleu, .ctst]
    let bitOps : List Op := [.ceqb, .cneb, .cltb, .cleb, .cltub, .cleub, .ctstb]
    (∀ i : Fin 7, aluExec (wordOps.getD i .ceq) .C e [A, B] = .ok (b2n (p i)) none 0 false
      ∧ aluExec (bitOps.getD i .ceqb) .C e [A, B] = .ok (b2n (p i)) none 0 true)
    ∧ (∀ (n : Opd), let i := n.v % 128
      let r (asBit : Bool) : AluOut := if i < w then .ok (b2n (a.getLsbD i)) none 0 asBit
        else if i < w + 5 then .ok (b2n (s1.testBit (i - w))) none 0 asBit else .ok 0 none 1 asBit
      aluExec .cbit .C e [A, n] = r false ∧ aluExec .cbitb .C e [A, n] = r true))
  ∧ (∀ (x : FireCtx) (fr : Frame) (r : Nat) (o : Src), (x.sourceOp fr r o).st = 0)

/-- Bit fields (R186, R189), on words: CLZ, CTZ and POPC count; BEXT and BEXTU take a field of a valid descriptor, BINS replaces
it, SEXT and ZEXT extend from a bit 1–40, and outside their ranges they give 0 with `I`; BSWAP and BREV reverse octets and
bits; I2BCD and BCD2I undo each other up to 9,999,999,999. -/
def Obligations.FieldResults : Prop :=
  (∀ (a b f : BitVec 40) (e : AluEnv) (k1 k2 k3 s1 s2 s3 : Nat),
    let A : Opd := ⟨a.toNat, false, k1, s1⟩
    let B : Opd := ⟨b.toNat, false, k2, s2⟩
    let F : Opd := ⟨f.toNat, false, k3, s3⟩
    let lo := f.toNat % 64
    let wd := f.toNat / 256 % 64
    aluExec .clz .S e [A] = .ok a.clz.toNat none 0 false
    ∧ aluExec .ctz .S e [A] = .ok (if a = 0 then 40 else a.reverse.clz.toNat) none 0 false
    ∧ aluExec .popc .S e [A] = .ok ((List.range 40).filter (fun i => a.getLsbD i)).length none 0 false
    ∧ aluExec .bext .S e [A, F] = (if 1 ≤ wd ∧ lo + wd ≤ 40 then .ok ((a.extractLsb' lo wd).signExtend 40).toNat none 0 false
        else .ok 0 none 1 false)
    ∧ aluExec .bextu .S e [A, F] = (if 1 ≤ wd ∧ lo + wd ≤ 40 then .ok (a.extractLsb' lo wd).toNat none 0 false else .ok 0 none 1 false)
    ∧ aluExec .bins .S e [A, B, F] = (if 1 ≤ wd ∧ lo + wd ≤ 40 then
        .ok ((a &&& ~~~((BitVec.allOnes wd).zeroExtend 40 <<< lo)) ||| ((b.extractLsb' 0 wd).zeroExtend 40 <<< lo)).toNat none 0 false
        else .ok 0 none 1 false)
    ∧ aluExec .sext .S e [A, F] = (if 1 ≤ lo ∧ lo ≤ 40 then .ok ((a.extractLsb' 0 lo).signExtend 40).toNat none 0 false
        else .ok 0 none 1 false)
    ∧ aluExec .zext .S e [A, F] = (if 1 ≤ lo ∧ lo ≤ 40 then .ok (a.extractLsb' 0 lo).toNat none 0 false else .ok 0 none 1 false)
    ∧ aluExec .brev .V e [A] = .ok a.reverse.toNat none 0 false
    ∧ aluExec .bswap .V e [A] = .ok (lsum ((List.range 5).map (fun i => (a.extractLsb' (8 * (4 - i)) 8).toNat * 2 ^ (8 * i)))) none 0 false)
  ∧ (∀ (x : Nat) (e : AluEnv) (k s : Nat), x ≤ 9999999999 → ∃ y, aluExec .i2bcd .V e [⟨x, false, k, s⟩] = .ok y none 0 false
      ∧ aluExec .bcd2i .V e [⟨y, false, k, s⟩] = .ok x none 0 false)

/-- The timers of a session (R245, R246), each for every session and state: CONNECT_TIMEOUT takes a session that was Connecting
for 3 s to Backoff; CLOSING_TIMEOUT releases the connection of one that was Closing for 2 s; HANDSHAKE_TIMEOUT counts a
failure (0x4000:03) after 10 s of Handshaking and closes the session with the alert handshake_failure; BACKOFF_EXPIRY
connects again after `SES_RETRY_MS` (0x4000:07); KEEPALIVE_TIMER sends a probe of the octet before the next sequence number
once `0x4000:08` seconds passed without a segment; TCP_RETRANSMIT_TIMEOUT at the timer's expiry doubles the timeout between 1
ms and 1 s and starts it anew while octets wait or are unacknowledged or the SYN is, and ends it otherwise; state, octets to
send and every other session stay. Before its time each leaves the block as it was. -/
def Obligations.SessionTimers : Prop :=
  (∀ (n : Nat) (s : State), Gives (.connectTimeout n) s
    (if (s.dev.sess n).st = .connecting ∧ (s.dev.sess n).since + 3000000000 ≤ s.dev.up then
      s.dev.setSes n { s.dev.sess n with st := .backoff, since := s.dev.up, tcb := tcbInit } else s.dev))
  ∧ (∀ (n : Nat) (s : State), Gives (.closingTimeout n) s
    (if (s.dev.sess n).st = .closing ∧ (s.dev.sess n).since + 2000000000 ≤ s.dev.up then
      (s.dev.unpost n).modSes n (fun x => { x with
        st := if cfgActive x.cfg then .backoff else .listening, since := s.dev.up, tcb := tcbInit, rxbuf := [],
        plain := [], msg := none, sndbuf := [], hsOn := false }) else s.dev))
  ∧ (∀ (n : Nat) (s : State), Gives (.handshakeTimeout n) s
    (if (s.dev.sess n).st = .handshaking ∧ (s.dev.sess n).since + 10000000000 ≤ s.dev.up then
      (s.dev.bump 0x4000 3).closeSes n (some .handshakeFailure) else s.dev))
  ∧ (∀ (n : Nat) (s : State), Gives (.backoffExpiry n) s
    (if (s.dev.sess n).st = .backoff ∧ (s.dev.sess n).since + s.dev.obj 0x4000 7 * 1000000 ≤ s.dev.up then
      s.dev.connect n else s.dev))
  ∧ (∀ (n : Nat) (s : State), Gives (.keepaliveTimer n) s
    (if 0 < s.dev.obj 0x4000 8 ∧ (s.dev.sess n).tcb.conn = true ∧ (s.dev.sess n).tcb.synSent = false
        ∧ (s.dev.sess n).tcb.lastRx + s.dev.obj 0x4000 8 * 1000000000 ≤ s.dev.up then
      (s.dev.setSes n { s.dev.sess n with tcb := { (s.dev.sess n).tcb with lastRx := s.dev.up } }).emitOf (s.dev.sess n)
        [(s.dev.sess n).seg (seqSub (s.dev.sess n).tcb.sndNxt 1) false false false true []]
      else s.dev))
  ∧ (∀ (n : Nat) (s : State), Does (.tcpRetransmitTimeout n) s fun d =>
    match (s.dev.sess n).tcb.timer with
    | none => d = s.dev
    | some t =>
      if t ≤ s.dev.up then
        (if (s.dev.sess n).tcb.synSent = false ∧ (s.dev.sess n).tcb.flight = 0 ∧ (s.dev.sess n).sndbuf = [] then
          (d.sess n).tcb.timer = none ∧ (d.sess n).tcb.rto = (s.dev.sess n).tcb.rto
        else (d.sess n).tcb.rto = max 1000000 (min 1000000000 (2 * (s.dev.sess n).tcb.rto))
          ∧ (d.sess n).tcb.timer = some (s.dev.up + (d.sess n).tcb.rto))
        ∧ (d.sess n).st = (s.dev.sess n).st ∧ (d.sess n).sndbuf = (s.dev.sess n).sndbuf
        ∧ (∀ m, m ≠ n → d.sess m = s.dev.sess m)
        ∧ d = { s.dev with ses := { s.dev.ses with ses := d.ses.ses, segs := d.ses.segs } }
      else d = s.dev)

/-- Opening and closing a session (R245, R247, R248). HANDSHAKE_START: the session at the head of the handshake queue begins
where the bucket of 512 (128) tokens, refilled at 20,000 (5,000) a second, holds one and the session engines' DRBG runs (log
124); its work joins a slot 8. HANDSHAKE_COMPLETE: a begun handshake whose work is at the head of its slot comes out as the
profile word and the peer have it: the session opens with what was settled and counts in 0x4000:02, or it fails with an alert
and counts in 0x4000:03. SES_ENABLE: a Disabled session of a valid partner whose two rings are on connects or listens (a
session with `ACTIVE_OPEN` and remote port 0 does not: log 44), and flow control follows (R252). SES_OPERATOR_CLOSE closes an
Open one with close_notify. SES_DISABLE sends RST on a connection, aborts the open record and leaves the session Disabled. -/
def Obligations.SessionOpening : Prop :=
  (∀ (n : Nat) (s0 : State), Gives (.handshakeStart n) s0 (
    let d := s0.dev
    let s := n
    if d.ses.hsQ.head? ≠ some s || !d.drbgOn drbgSession then d
    else
      let debt := d.ses.hsTok - (d.up - d.ses.hsAt) * d.hsRate
      if d.hsBurst * 1000000000 < debt + 1000000000 then d
      else
        let d := { d with ses := { d.ses with hsQ := d.ses.hsQ.drop 1, hsTok := debt + 1000000000, hsAt := d.up } }
        (d.modSes s (fun x => { x with hsOn := true })).addJob (.handshake s)))
  ∧ (∀ (n : Nat) (h : HsIn) (s0 : State), Gives (.handshakeComplete n h) s0 (
    let d := s0.dev
    let s := n
    let x := d.sess s
    if x.st ≠ .handshaking || !x.hsOn || !d.jobReady (.handshake s) then d
    else
      let (f, d) := d.drawNat 16
      match d.hsOutcome (d.profile x) f (cfgActive x.cfg) h with
      | .ok t =>
        ((d.bump 0x4000 2).dropJob (.handshake s)).modSes s
          (fun x => { x with st := .opened, since := d.up, hsOn := false, tls := some t })
      | .error a => d.hsFail s a))
  ∧ Writes .sesEnable .sesEnable (fun _ _ d e => e =
    let s := d.selSes
    let x := d.sess s
    let r := cfgRing x.cfg
    if x.st ≠ .disabled || !ptrValid (d.partner (cfgPartner x.cfg)) || !(d.ing r).q.on || !(d.egr r).q.on
        || (cfgActive x.cfg && cfgRemote x.cfg == 0) then d
    else if cfgActive x.cfg then (d.connect s).flow
    else (d.modSes s (fun x => { x with st := .listening, since := d.up, tcb := tcbInit })).flow)
  ∧ Writes .sesOperatorClose .sesClose (fun _ _ d e => e =
      (if (d.sess d.selSes).st = .opened then d.closeSes d.selSes (some .closeNotify) else d).settle)
  ∧ Writes .sesDisable .sesDisable (fun _ _ d e => e = (d.sesDisable d.selSes).settle.splitSettle)

/-- Rows that set up message rings (R91–R95, R249, R253). INGRESS_ENABLE_WRITE sets 0x4020:01. RING_ENABLE brings a ring that no
session names from Off to Empty. RING_DISABLE discards its contents, descriptors and raised signals and keeps `OVERRUN`.
OVERRUN_CLEAR clears `OVERRUN` of the ring written to. WATERMARK_WRITE is ignored where the high watermark would not exceed
the low one, else it sets the object and the watermark state is taken anew. -/
def Obligations.RingWrites : Prop :=
  Writes .ingressEnableWrite .ingressEnable (fun _ r d e => e = d.setObj 0x4020 1 (reqValue r))
  ∧ Writes .ringEnable .ringEnable (fun _ r d e =>
      if d.namers (r.idx % 256) = [] ∧ inPage r.idx 0x41 = true ∧ (d.ing (r.idx % 256)).q.on = false then
        (e.ing (r.idx % 256)).q.on = true ∧ (e.ing (r.idx % 256)).descs = [] ∧ sqFill (e.ing (r.idx % 256)).q = 0
        ∧ (e.ing (r.idx % 256)).q.overrun = (d.ing (r.idx % 256)).q.overrun ∧ e.key = d.key ∧ e.fab = d.fab ∧ e.mem = d.mem
      else if d.namers (r.idx % 256) = [] ∧ inPage r.idx 0x41 = false ∧ (d.egr (r.idx % 256)).q.on = false then
        e = d.setEgr (r.idx % 256) { q := sqEnable (d.egr (r.idx % 256)).q, descs := [] }
        ∧ sqFill (e.egr (r.idx % 256)).q = 0 ∧ (e.egr (r.idx % 256)).q.on = true
      else e = d)
  ∧ Writes .ringDisable .ringDisable (fun _ r d e =>
      if d.namers (r.idx % 256) = [] then
        if inPage r.idx 0x41 then
          (e.ing (r.idx % 256)).q.on = false ∧ (e.ing (r.idx % 256)).descs = [] ∧ sqFill (e.ing (r.idx % 256)).q = 0
          ∧ (e.ing (r.idx % 256)).q.overrun = (d.ing (r.idx % 256)).q.overrun
          ∧ e.key = { d.key with signals := d.key.signals.filter (fun x => x.ring != r.idx % 256) } ∧ e.fab = d.fab
        else e = d.setEgr (r.idx % 256) { q := sqDisable (d.egr (r.idx % 256)).q, descs := [] }
      else e = d)
  ∧ Writes .overrunClear .overrunClear (fun _ r d e =>
      (inPage r.idx 0x41 = true → (e.ing (r.idx % 256)).q = { (d.ing (r.idx % 256)).q with overrun := false })
      ∧ (inPage r.idx 0x42 = true → (e.egr (r.idx % 256)).q = { (d.egr (r.idx % 256)).q with overrun := false })
      ∧ (e = d.overrunClear r.idx r.sub (reqValue r)))
  ∧ Writes .watermarkWrite .watermark (fun _ r d e =>
      (r.idx ≠ 0x2301 → r.sub = 3 → reqValue r ≤ d.obj r.idx 4 → e = d)
      ∧ (r.idx ≠ 0x2301 → r.sub = 4 → d.obj r.idx 3 ≤ reqValue r → e = d)
      ∧ (r.idx ≠ 0x2301 → r.sub = 3 → d.obj r.idx 4 < reqValue r → e.obj r.idx 3 = reqValue r)
      ∧ (r.idx ≠ 0x2301 → r.sub = 4 → reqValue r < d.obj r.idx 3 → e.obj r.idx 4 = reqValue r)
      ∧ e = d.watermark r.idx r.sub (reqValue r))

/-- Received octets become records of a message ring (R246, R249, R302). TLS_RECORD_RECEIVE: where the session is Open and the
receive buffer holds the record's `wire` octets, they leave it and are counted in 0x5031:03; application data joins the
plaintext and is framed into the ring, data on the journal's export session (0x7000:08 = 2 and 0x7000:09) is dropped,
close_notify and a bad record close the session. Else nothing. SHARED_RING_MESSAGE_WRITE: with no record of the ring open and
no writer that waits, the session whose message was whole first leaves the order and has it written. TCP_SEGMENT_RECEIVE at a
port in the mode in force: a segment of a connection by that connection's state, an unacceptable one answered; a SYN to a
listener begins one; another segment that is no RST is answered with RST. After each, records that the keyway turned away are
read and released (R131) and writers that waited go on (R91). -/
def Obligations.IngressOctets : Prop :=
  (∀ (n wire : Nat) (rec : TlsRec) (s0 : State), Gives (.tlsRecordReceive n wire rec) s0 (
    let d := s0.dev
    Dev.settle <|
      let s := n
      let x := d.sess s
      if x.st ≠ .opened || wire = 0 || x.rxbuf.length < wire then d
      else
        let d := (d.modSes s (fun x => { x with rxbuf := x.rxbuf.drop wire })).bumpBy 0x5031 3 wire
        match rec with
        | .data p =>
          if d.obj 0x7000 8 = 2 && d.obj 0x7000 9 = s then d.pump s
          else
          let d := d.modSes s (fun x => { x with plain := x.plain ++ p })
          (d.frameSes s frameFuel).pump s
        | .closeNotify => d.closeSes s (some .closeNotify)
        | .keyUpdate => d.pump s
        | .bad => d.closeSes s (some .badRecordMac)))
  ∧ (∀ (r : Nat) (s0 : State), Gives (.sharedRingMessageWrite r) s0 (
    let d := s0.dev
    Dev.settle <|
      match (d.ing r).whole with
      | [] => d
      | s :: rest =>
        if (d.ing r).wait.isSome || (d.ing r).descs.any (fun c => !c.eor && !c.aborted) then d
        else (d.setIng r { d.ing r with whole := rest }).sharedMsg s))
  ∧ (∀ (port : Nat) (g : SegIn) (s0 : State), Gives (.tcpSegmentReceive port g) s0 (
    let d := s0.dev
    Dev.settle <|
      if !d.portOn port then d
      else match d.connOf port g with
      | some (s, x) =>
        if x.st = .connecting then
          if g.rst then (if g.ackF && g.ack == x.tcb.sndNxt then d.connLost s else d)
          else if g.syn && g.ackF && g.ack == x.tcb.sndNxt then d.established s g
          else d
        else if g.rst then (if seqLe x.tcb.rcvNxt g.seq && seqLt g.seq (seqAdd x.tcb.edge 1) then d.connLost s else d)
        else if g.syn then d.emitOf x [x.ackSeg]
        else if x.acceptable g then d.connSeg s g
        else d.outsideSeg s g
      | none =>
        if g.rst then d
        else if g.syn && !g.ackF then
          match d.listener port g with
          | some (s, _) => d.accept s g
          | none => d.emit port g.v6 [rstFor g]
        else d.emit port g.v6 [rstFor g]))

/-- What the keyway and the lexer do with records (R131, R133, R262). KEYWAY_TAKE_SIGNAL: the oldest signal, where it is next and
no pace window that ends now is left, is used up; charges are drained to the microsecond; the first cell of the record at
`RD` is read between `MARK` and `REWIND`; a message that the partner's selection table calls a reply takes the reply path,
every other one the decision. LEX_RECORD: of a record that is accepted the cells that are there are read; where its context
lives on in its generation the tokens that follow from them go out; at its end it is released. Otherwise nothing changes. -/
def Obligations.KeywayRecords : Prop :=
  (∀ (s0 : State), Gives .keywayTakeSignal s0 (
    let d := s0.dev
    match d.key.signals with
    | [] => d
    | g :: rest =>
      if d.paceDue || !d.signalNext then d
      else
        let e : Dev := Dev.drainTick { d with key := { d.key with signals := rest } }
        match (d.ing g.ring).descs with
        | [] => e
        | c :: _ => if d.isReply c then (e.readFirst g.ring).replyPath c g.ring else (e.readFirst g.ring).decide_ c g.ring))
  ∧ (∀ (r : Nat) (s0 : State), Gives (.lexRecord r) s0 (
    let d := s0.dev
    match (d.ing r).descs with
    | [] => d
    | c :: _ => match c.owner with
      | none => d
      | some (ctx, gen) =>
        let d := d.readRecord r
        let d := match (d.ing r).descs.head?, d.life ctx, d.fmtOf c.partner with
          | some c, some l, some t => if l.gen = gen && !c.lexed then d.lexInto r c { l with ctx := ctx } t else d
          | _, _, _ => d
        (d.takeRecord r).resume r))

/-- A message turned away (R131 step 5, R135): while admission is closed to all (R134 code 0x01), the record of the oldest
signal, if it is next (R131, R133) and no reply, and no writer waits at a ring, raises the counters 0x3000:03 and 0x3010:01
by one each, the reject lane takes it with code 0x01 behind the rejects that wait, and no context begins: the lives, their
charges drained to the microsecond (R137), and the free queue stay as they were. -/
def Obligations.ClosedKeywayRejects : Prop :=
  ∀ (s : State) (g : Signal) (rest : List Signal) (c : Desc) (t : List Desc), s.dev.key.signals = g :: rest →
    s.dev.signalNext = true → s.dev.paceDue = false →
    (s.dev.ing g.ring).descs = c :: t → s.dev.isReply c = false → s.dev.keyClosed = true → (∀ r, (s.dev.ing r).wait = none) →
    Does .keywayTakeSignal s fun d =>
      d.obj 0x3000 3 = (s.dev.obj 0x3000 3 + 1) % 2 ^ 64 ∧ d.obj 0x3010 1 = (s.dev.obj 0x3010 1 + 1) % 2 ^ 64
      ∧ d.key.lives = s.dev.drainTick.key.lives ∧ d.key.freshCtx = s.dev.key.freshCtx ∧ d.key.freeTail = s.dev.key.freeTail
      ∧ ∃ j : Reject, d.key.rejects = s.dev.key.rejects ++ [j] ∧ j.code = 1 ∧ j.ring = g.ring ∧ j.session = c.session

/-- What leaves for a partner (R135, R252, R254). EGRESS_RECORD_SEND: the record at the front of an egress ring is read; it
becomes a TLS record of its session where that is Open and its send buffer has room, and else it is discarded, counted and
journaled (type 0x0A with reason 1 or 2). PFC_RENEW: what a port asserts is sent again. REJECT_LANE_WRITE: the oldest waiting
reject leaves the lane; its response is written where the session is Open, the reject template composes and the ring has
room, else it counts as undeliverable (0x3000:07); a journal record of type 3 says which. -/
def Obligations.EgressRecords : Prop :=
  (∀ (r : Nat) (s0 : State), Gives (.egressRecordSend r) s0 (
    let d := s0.dev
    let x := d.egr r
    match x.descs with
    | [] => d
    | c :: rest =>
      let rd := readEgress (d.ringCfg 0x4200 r x.q) 1026 x.q
      if !rd.2.1 then d
      else
        let o := rd.1
        let d := d.setEgr r { q := rd.2.2, descs := rest }
        let s := d.sess c.session
        let reason := if s.st ≠ .opened then 1 else if txCap < s.sndbuf.length + o.length + tlsOver then 2 else 0
        if reason = 0 then (d.tlsSend c.session o).modSes c.session (fun s => { s with tx := s.tx + 1 })
        else
          (d.modSes c.session (fun s => { s with disc := s.disc + 1 })).journal
            { jrec0 with lane := c.session % 16, typ := 0x0A, reason := reason, session := c.session, partner := c.partner,
                         ring := r, detail := o.length }))
  ∧ (∀ (port : Nat) (s0 : State), Gives (.pfcRenew port) s0 (
    let d := s0.dev
    { d with ses := { d.ses with fcOut := d.ses.fcOut ++ fcFrames port 0 (tget 0 d.ses.fcOn port) } }))
  ∧ (∀ (s0 : State), Gives .rejectLaneWrite s0 (
    let d := s0.dev
    match d.key.rejects with
    | [] => d
    | j :: rest =>
      let d := { d with key := { d.key with rejects := rest } }
      let rec0 : JRec := { jrec0 with
        lane := j.session % 16, time := d.time80, typ := 3, reason := j.code, flags := if j.early then 0x400 else 0,
        session := j.session, partner := j.partner, ring := j.ring, ingress := j.ingress, typeCode := j.typeCode }
      let out := if (d.sess j.session).st ≠ .opened then none
        else match d.composeFor false j.partner j.tpl [2] ⟨none, 0, 0, some j⟩ with
          | some (o, d') => if d'.egRoom j.ring o.length then some (o, d') else none
          | none => none
      match out with
      | some (o, d) =>
        let d := (d.egWrite j.ring j.session j.partner (o.length - ptrSize (d.partner j.partner)) o).bump 0x4500 1
        d.journalPut { rec0 with resp := some (d.tai - j.taken) }
      | none => (d.bump 0x3000 7).journalPut { rec0 with flags := rec0.flags + 0x100 }))

/-- Times of a context (R20, R21, R23, R125, R140, R266). DUE_TIME_EXPIRY: a context that is Armed, Parked or Resumed with its
timer outstanding, its message arrived, its due time reached and none due earlier gets its deadline token with reason 0.
FORCE_STANDIN: the context of the correlation value written gets it with reason 2 where its generation is current and its
timer outstanding; else 0x2120:03 counts. FALLBACK_POINT_EXPIRY: a context that is not Claimed at its fallback point falls
back. DEADLINE_PURGE_EXPIRY: a Claimed one at its deadline is purged with journal flag 0x200. RESPONSE_LAST_BYTE: a Claimed
one whose response is written has it complete; it is purged when no token of it is left, or at once during step 2 of a core
reset. Otherwise nothing changes. -/
def Obligations.ContextTimes : Prop :=
  (∀ (ctx : Nat) (s0 : State), Gives (.dueTimeExpiry ctx) s0 (
    let d := s0.dev
    match d.life ctx with
    | some l =>
      if l.dueAt d.tai && d.key.lives.all (fun (e : Nat × Life) => !e.2.dueAt d.tai || decide (l.due ≤ e.2.due)) then
        d.deadlineToken l 0
      else d
    | none => d))
  ∧ Writes .forceStandin .forceStandin (fun _ r d e => e =
    let v := reqValue r
    let ctx := v / 64 % 2 ^ 24
    match d.life ctx with
    | some l => if l.gen = v % 64 && l.inDue then d.deadlineToken l 2 else d.bump 0x2120 3
    | none => d.bump 0x2120 3)
  ∧ (∀ (ctx : Nat) (s0 : State), Gives (.fallbackPointExpiry ctx) s0 (
    let d := s0.dev
    match d.life ctx with
    | some l => if !l.timer || l.st = .claimed || d.tai < l.fb then d else d.fallback ctx
    | none => d))
  ∧ (∀ (ctx : Nat) (s0 : State), Gives (.deadlinePurgeExpiry ctx) s0 (
    let d := s0.dev
    match d.life ctx with
    | some l => if l.st = .claimed && l.deadline ≤ d.tai then d.purge l false 0x200 else d
    | none => d))
  ∧ (∀ (ctx : Nat) (s0 : State), Gives (.responseLastByte ctx) s0 (
    let d := s0.dev
    match d.life ctx with
    | some l =>
      if l.st = .claimed && l.respNs.isSome then
        let l := { l with respDone := true }
        if d.pwr.cr = .walking then d.purge l false 0 else (d.setLife l).quiesce ctx
      else d
    | none => d))

/-- Charges, pace and reclamation (R102, R103, R123, R133, R137). DRAIN_TICK drains the charge of every life, reclaimed ones too,
by the whole microseconds that have passed. PACE_WINDOW_END, once in a microsecond of the timebase, takes every monitor's
count in turn and keeps the lowest pace of a position in service. RECLAIM_DONE: the storage that a purged context held on
every die is free, its reservations leave the pools, 0x2106:01 counts, its journal record goes to its lane and those of its
late replies after it (R308), and its number joins the end of the free queue with that count. -/
def Obligations.ChargesAndReclaim : Prop :=
  (∀ (s0 : State), Gives .drainTick s0 (
    let d := s0.dev
    let now := d.tai / 1000
    { d with key := { d.key with
      lives := d.key.lives.map (fun (e : Nat × Life) => (e.1, e.2.drain now)),
      reclaim := d.key.reclaim.map (fun (r : Reclaim) => { r with life := r.life.drain now }) } }))
  ∧ (∀ (l : List (Nat × Nat)) (s0 : State), Gives (.paceWindowEnd l) s0 (
    let d := s0.dev
    if d.key.paceAt = some (d.tai / 1000) then d
    else
      let d := l.foldl (fun d x => d.paceOf x.1 x.2) d
      let ms := (d.inService).map (fun e => e.2.pace)
      { d with pwr := { d.pwr with minPace := (minBy id ms).getD 0 }, key := { d.key with paceAt := some (d.tai / 1000) } }))
  ∧ (∀ (ctx : Nat) (s0 : State), Gives (.reclaimDone ctx) s0 (
    let d := s0.dev
    match d.key.reclaim.find? (fun r => r.life.ctx == ctx) with
    | some r =>
      let d := (List.range d.dies).foldl (fun (d : Dev) q => d.reclaimDie r.life.ctx q) d
      let d : Dev := { d with
        fab := { d.fab with reserved := d.fab.reserved - r.life.match_, spillRes := d.fab.spillRes - r.life.spill },
        key := { d.key with reclaim := d.key.reclaim.filter (fun x => x.life.ctx != r.life.ctx) } }
      let d := r.late.foldl Dev.journalPut (((d.poolStates).bump 0x2106 1).journalPut r.jrec)
      { d with key := { d.key with freeTail := d.key.freeTail ++ [(r.life.ctx, some (d.obj 0x2106 1))] } }
    | none => d))

/-- The match store (R28, R59–R69, R74, R89). MATCH_ARRIVAL: the head of the match input is checked (R32), and discarded where
its code line is not loaded, its shape malformed or its generation stale; else it is applied, or waits at the head.
MATCH_SWEEP_TICK: at most once in 64 ns, the stale way of a key leaves its set, and only where none is stale the coldest way
moves out where the write-back buffer has room. OVERFLOW_PROBE_DONE: the chain of the first waiting arrival's context is
walked and the arrival applied to the entry found, or to a new one. WRITEBACK_LINK: the oldest write-back leaves the buffer
for its context's chain. -/
def Obligations.MatchStore : Prop :=
  (∀ (pos vc : Nat) (s0 : State), Gives (.matchArrival pos vc) s0 (
    let d := s0.dev
    match (d.pos pos).inHead vc with
    | none => d
    | some a =>
      let d := d.modPos pos (fun p => p.inPop vc)
      match (if a.waited then (some a.pl, d) else d.checkTok 0x02 (posLoc pos) a.pl) with
      | (none, d) => d.quiesce (tCtx a.pl)
      | (some t, d) =>
        if !(d.pos pos).code.contains (lineKey (tNode t)) then (d.unmapped pos).quiesce (tCtx t)
        else if tokMalformed t (d.shapeOf (tNode t)) then (d.malformed pos).quiesce (tCtx t)
        else if tGen t ≠ d.gen (tCtx t) then d.staleAt pos 2
        else match d.arrive pos { a with pl := t } with
          | .ok d => d
          | .error w =>
            let first := w == .probe && !a.counted
            let d := if first then d.bump 0x2002 0x0F else d
            d.modPos pos (fun p => p.inWait vc { a with pl := t, waited := true, counted := a.counted || first })))
  ∧ (∀ (pos key : Nat) (s0 : State), Gives (.matchSweepTick pos key) s0 (
    let d := s0.dev
    if d.up < (d.pos pos).swept then d
    else
      let later (d : Dev) : Dev := d.modPos pos (fun p => { p with swept := d.up + 64 })
      let d := d.modPos pos (fun p => { p with coldUs := d.obj 0x2001 1 })
      let p := d.pos pos
      if p.ways.any (fun w => d.entStale w.ent) then
        match p.ways.find? (fun w => d.entStale w.ent && w.ent.key == key) with
        | some w => later (d.moveOut pos w.ent true)
        | none => d
      else match p.ways.find? (d.cold pos) with
        | some w => if 64 ≤ p.wb.length then d else later (d.moveOut pos w.ent true)
        | none => d))
  ∧ (∀ (pos key : Nat) (s0 : State), Gives (.overflowProbeDone pos key) s0 (
    let d := s0.dev
    let die := pos / 34
    match (d.pos pos).probes.find? (fun b => b.key == key) with
    | none => d
    | some b => match b.arrs with
      | [] => d.modPos pos (fun p => { p with probes := p.probes.filter (fun x => x.key != key) })
      | a :: more =>
        let ctx := tCtx a.pl
        let clear (d : Dev) : Dev := d.modPos pos (fun p => { p with probes := p.probes.filter (fun x => x.key != key) })
        if tGen a.pl ≠ d.gen ctx then ((clear d).staleAt pos 2).requeueArrs pos more
        else
          let e := d.readHead die ctx
          let w := e.walkChain die (some key) (e.chain die ctx)
          match (clear (Dev.endWalk w die ctx)).probeApply pos key w.hit a with
          | none => d
          | some d => (d.requeueArrs pos more).quiesce ctx))
  ∧ (∀ (pos : Nat) (s0 : State), Gives (.writebackLink pos) s0 (
    let d := s0.dev
    let die := pos / 34
    match (d.pos pos).wb with
    | [] => d
    | (e, swept) :: _ =>
      let ctx := e.key / 2 ^ 36
      let d := d.modPos pos (fun p => { p with wb := p.wb.drop 1 })
      if d.entStale e then d.bump 0x2002 9
      else
        let d := match d.readOnDie pos e with
          | (some e, d) =>
            let d := d.readHead die ctx
            let l := d.chain die ctx
            if 64 ≤ l.length then (d.bump 0x2002 0x0D).report 0x13 (faultLoc 2 die)
            else (match d.anyIdx die with
              | none => (d.bump 0x2100 1).report 0x19 (faultLoc 2 die)
              | some (i, d) =>
                let ws := e.words (match l with | x :: _ => x.idx | [] => 0)
                let d := ((d.setChain die ctx (⟨i, ws⟩ :: l)).rewrote spHbm (d.poolAt i) 64).bump 0x2002 6
                if swept then d.bump 0x2002 7 else d)
          | (none, d) => d
        d.quiesce ctx))

/-- Commands on the queues of a cluster: their effect for every state and operand, on both outcomes of each condition. DISPATCH
(R82, R86) sets a firing aside whose frame line is absent, or gives it to the lowest idle cell. FRAME_FETCH_DONE (R44)
installs the line that the oldest set-aside firing of its set waits for, and puts that context's firings back in order.
PI_SIGNAL (R87) is used up and promotes. CODE_RELOAD_DONE (R89) ends the oldest reload. SLOT_TICK (R413) counts one slot of
every cell. -/
def Obligations.QueueCommands : Prop :=
  (∀ (pos : Nat) (s0 : State), Gives (.dispatch pos) s0 (
    let d := s0.dev
    if (d.pos pos).st != .inService then d
    else match d.pick pos 8 with
      | none => d
      | some p => d.serve pos p))
  ∧ (∀ (pos ctx : Nat) (s0 : State), Gives (.frameFetchDone pos ctx) s0 (
    let d := s0.dev
    let p := d.pos pos
    match p.fwait.find? (fun w => w.ctx % 64 == ctx % 64) with
    | none => d
    | some w =>
      if w.ctx ≠ ctx || !d.frameRoom p ctx then d
      else
        let mine := p.fwait.filter (fun x => x.ctx == ctx)
        let (_, fs, d) := d.readCws spHbm 8 (d.frameAt ctx)
        let fr := tget (zeroFrame ctx) d.fab.frames ctx
        let fr := if fs.isEmpty then fr else Frame.ofOctets (flipAt (d.frameAt ctx) fs fr.octets)
        let d := (d.installLine pos fr).bump 0x2803 3
        let d := d.modPos pos (fun p => { p with fwait := p.fwait.filter (fun x => x.ctx != ctx) })
        mine.reverse.foldl (fun d x => d.reenter pos x.f) d))
  ∧ (∀ (s0 : State), Gives .piSignal s0 (
    let d := s0.dev
    match d.fab.noc.mgmt with
    | [] => d
    | (pos, ctx, p) :: r =>
      let d := { d with fab := { d.fab with noc := { d.fab.noc with mgmt := r } } }.bump 0x2202 2
      if 8 ≤ p then d.promote pos ctx (p - 8) else d))
  ∧ (∀ (pos : Nat) (s0 : State), Gives (.codeReloadDone pos) s0 (
    let d := s0.dev
    if (d.pos pos).badCode.isEmpty then d
    else (List.range cellCount).foldl (fun d c => d.retryFetch pos c) (d.modPos pos (fun p => { p with badCode := p.badCode.drop 1 }))))
  ∧ (∀ (pos : Nat) (s0 : State), Gives (.slotTick pos) s0 (
    let d := s0.dev
    if (d.pos pos).st != .inService then d
    else (List.range cellCount).foldl (fun d c =>
      let d := (d.slotAdd pos 4 1).event (pos / 34) 1 (pos % 34 * 64 + c) 1
      match d.slotCat pos c with
      | some cat => d.slotEvent pos c cat 1
      | none => d.modCell pos c (fun x => { x with slots := x.slots + 1 })) d))

/-- SPILL_BURST_DONE and SPILL_REFILL_DONE (R91, R94) on every kind of spill queue: a ready queue, a message ring, a parking
queue; a burst or refill that is not due changes no cell. ORPHAN_BREAK (R239): a lock entry that is not orphaned refuses,
with a journal record of type 5 and reason 2; an orphaned one is released to the next waiter with reason 1.
DEFERRAL_SWEEP_TICK (R228): the entry that the sweeper visits is freed where its context's generation has moved on, else the
sweeper goes on. -/
def Obligations.SpillCommands : Prop :=
  (∀ (q : QId) (s0 : State), Gives (.spillBurstDone q) s0 (
    let d := s0.dev
    match q with
    | .ready p k => let x := (d.pos p).queue k; d.setRq p k (sqBurst (d.rqCfg p k x) x)
    | .ingress r => let x := d.ing r; ((d.setIng r { x with q := sqBurst (d.ringCfg 0x4100 r x.q) x.q }).resume r).settle
    | .egress r => let x := d.egr r; d.setEgr r { x with q := sqBurst (d.ringCfg 0x4200 r x.q) x.q }
    | .park k => let x := tget parkInit d.fab.noc.park k; d.setPark k (sqBurst (d.parkCfg x) x)))
  ∧ (∀ (q : QId) (s0 : State), Gives (.spillRefillDone q) s0 (
    let d := s0.dev
    match q with
    | .ready p k => let x := (d.pos p).queue k; d.setRq p k (sqDoRefill (d.rqCfg p k x) x)
    | .ingress r => let x := d.ing r; ((d.setIng r { x with q := sqDoRefill (d.ringCfg 0x4100 r x.q) x.q }).resume r).settle
    | .egress r => let x := d.egr r; d.setEgr r { x with q := sqDoRefill (d.ringCfg 0x4200 r x.q) x.q }
    | .park k => let x := tget parkInit d.fab.noc.park k; d.setPark k (sqDoRefill (d.parkCfg x) x)))
  ∧ Writes .orphanBreak .orphanBreak (fun ro r d e => e =
    let ea := reqValue r % 2 ^ 40
    let sess := r.sess
    let refuse : Dev := (d.bump 0x6310 3).breakRec 2 ea 0 sess ro none
    match d.lockOf ea with
    | none => refuse
    | some (i, e) =>
      if !e.orphan then refuse
      else
        let new := match d.nextWaiter e with | some w => (d.hslot w).ctx | none => 0
        ((d.release i).bump 0x6310 2).breakRec 1 ea new sess ro (some e))
  ∧ (∀ (s0 : State), Gives .deferralSweepTick s0 (
    let d := s0.dev
    let i := d.mem.sweep
    match d.mem.defers[i]? with
    | none => { d with mem := { d.mem with sweep := 0 } }
    | some x =>
      if d.gen x.req.ctx ≠ x.req.gen then
        { d with mem := { d.mem with defers := ldel d.mem.defers i } }.bump 0x6020 4
      else { d with mem := { d.mem with sweep := (i + 1) % d.deferCap } }))

/-- Packets on the network (R112, R325, R326). ROUTER_HOP: the packet at the head of an input is discarded, parked, delivered or
forwarded where its output serves it next. VC2_ESCAPE: a packet of VC0 or VC1 that has stood 2 µs at its head without a
credit moves on along the escape tree where that has room. FABRIC_STALL_DETECT (R122): a stall of 2 µs is counted, mapped and
reported as fault 0x1A. PARK_RECEIVE (R337, R338): the oldest packet at the parking agent goes on where its cluster is in
service and not parked, else into that cluster's queue; a queue without room loses it, counted in 0x8030:03 and reported as
fault 0x42. PARK_REPLAY_DONE: a returning cluster's queue is replayed in order. -/
def Obligations.RouterCommands : Prop :=
  (∀ (rt inp vc : Nat) (s0 : State), Gives (.routerHop rt inp vc) s0 (
    let d := s0.dev
    match (d.router rt).headOf inp vc with
    | none => d
    | some b => match b.f.read with
      | none => d.goOn rt inp vc vc b.f .drop
      | some hd =>
        let h := d.hopOf rt vc hd
        match h.port with
        | none => d.goOn rt inp vc vc b.f h
        | some p => match d.winner rt p with
          | none => d
          | some w =>
            if w.inp = inp && w.vc = vc then
              let waits := (d.cands rt p).any (·.vc == 3)
              let d := d.modRouter rt (fun r => { r with
                rr := tset r.rr p inp, vc3 := tset r.vc3 p (if vc = 3 || !waits then 0 else tget 0 r.vc3 p + 1) })
              d.goOn rt inp vc vc b.f h
            else d))
  ∧ (∀ (rt inp vc : Nat) (s0 : State), Gives (.vc2Escape rt inp vc) s0 (
    let d := s0.dev
    if 1 < vc then d
    else match (d.router rt).headOf inp vc with
      | none => d
      | some b =>
        if d.up < b.since + 2000 then d
        else match b.f.read with
          | none => d
          | some hd =>
            let h := d.hopOf rt vc hd
            let e := d.hopOf rt 2 hd
            if h.port.isNone || d.canGo rt vc h || !(d.canGo rt 2 e || e == .park) then d
            else
              let d := d.bump 0x2101 1
              let d := match routerPos rt with | some p => d.posEvent p 0x0C 0 | none => d
              d.goOn rt inp vc 2 b.f e))
  ∧ (∀ (die : Nat) (s0 : State), Gives (.fabricStallDetect die) s0 (
    let d := s0.dev
    match tget? d.fab.stallSince die with
    | none => d
    | some t =>
      if d.up < t + 2000 then d
      else
        let m := lsum ((d.dieReadable die).map (fun p => 2 ^ (p % 34)))
        let d := { d with fab := { d.fab with stallMap := tset d.fab.stallMap die m,
                                              stallSince := tset d.fab.stallSince die d.up } }
        (d.bump 0x2104 2).report 0x1A (faultLoc 2 die)))
  ∧ (∀ (s0 : State), Gives .parkReceive s0 (
    let d := s0.dev
    match d.fab.noc.parkIn with
    | [] => d
    | f :: r =>
      let d := (d.modNoc (fun n => { n with parkIn := r })).bump 0x8030 1
      let k := hDie f.hdr * 32 + hCluster f.hdr
      if hVc f.hdr = 3 then d
      else if 32 ≤ hCluster f.hdr then ((d.bump 0x8040 4).report 0x41 0).quiesce (tCtx f.pl)
      else if d.parkPass k f then d.reinject hubRouter f
      else
        let q := tget parkInit d.fab.noc.park k
        let lost := !sqTakes (d.parkCfg q) q
        let d := d.setPark k (sqWrite (d.parkCfg q) q f)
        if lost then ((d.bump 0x8030 3).report 0x42 (faultLoc 7 agPark)).quiesce (tCtx f.pl) else d))
  ∧ (∀ (k : Nat) (s0 : State), Gives (.parkReplayDone k) s0 (
    let d := s0.dev
    if !d.fab.noc.replay.contains k || !(List.range 4).all d.fab.noc.drained then d
    else
      let q := tget parkInit d.fab.noc.park k
      let r := sqReadAll (d.parkCfg q) (sqFill q + q.held.length) q
      let d := (d.setPark k r.2).modNoc (fun n => { n with replay := n.replay.filter (· != k) })
      (r.1.foldl (fun d f => d.putFlit hubRouter f) d).bumpBy 0x8030 2 r.1.length))

/-- Route swaps and power domains (R334–R338): what each command does, in every state. ROUTE_SWAP takes value 1 alone and counts
a refusal in 0x8000:05 while a swap runs; SWAP_VC_DRAINED releases a drained channel's held packets in their order and ends
the swap with the fourth; a domain that may not go down counts in 0x8020:02; one that drains ends at the latest after 5 µs. -/
def Obligations.SwapAndDomainCommands : Prop :=
  Writes .routeSwap .routeSwap (fun _ r d e => e =
    let v := reqValue r
    if v ≠ 1 then d
    else if d.fab.noc.swap ≠ .idle then d.bump 0x8000 5
    else d.startSwap)
  ∧ (∀ (vc : Nat) (s0 : State), Gives (.swapVcDrained vc) s0 (
    let d := s0.dev
    let n := d.fab.noc
    if n.swap = .idle || 4 ≤ vc || n.relVc.contains vc || !n.drained vc || n.replay.any (fun k => n.changed.contains (lcIndex k)) then d
    else
      let mine := n.held.filter (fun h => hVc h.2.hdr == vc)
      let d := d.modNoc (fun n => { n with relVc := n.relVc ++ [vc], held := n.held.filter (fun h => hVc h.2.hdr != vc) })
      let d := mine.foldl (fun d h => d.putFlit h.1 h.2) d
      if d.fab.noc.relVc.length = 4 then d.endSwap else d))
  ∧ Writes .domainPowerDown .domainDown (fun _ r d e => e =
    let v := reqValue r
    match d.domainOf v with
    | none => d.bump 0x8020 2
    | some ps => if d.mayPowerDown v ps then d.askSwap ⟨v % 2 ^ 15, ps, false, 0, d.up, .none⟩ else d.bump 0x8020 2)
  ∧ (∀ (s0 : State), Gives .domainDrainEnd s0 (
    let d := s0.dev
    let empty (x : Domain) : Bool := x.routers.all (fun r => (d.router r).flits.isEmpty)
    match takeFirst (fun (x : Domain) => !x.up && x.step == 2 && (empty x || decide (x.since + 5000 ≤ d.up))) d.fab.noc.domains with
    | none => d
    | some (x, rest) =>
      let d := x.routers.foldl Dev.drainRouter d
      let d := x.positions.foldl (fun d p => d.modPos p Pos.powerOff) d
      (d.modNoc (fun n => { n with domains := rest, down := n.down ++ x.routers.flatMap d.portsTo })).quiesceAll))
  ∧ Writes .domainPowerUp .domainUp (fun _ r d e => e =
    let v := reqValue r
    match d.domainOf v with
    | none => d.bump 0x8020 2
    | some ps => d.modNoc (fun n => { n with domains := n.domains ++ [(⟨v % 2 ^ 15, ps, true, 3, d.up, .none⟩ : Domain)] }))
  ∧ (∀ (s0 : State), Gives .domainRailsUp s0 (
    let d := s0.dev
    match takeFirst (fun (x : Domain) => x.up && x.step == 3) d.fab.noc.domains with
    | none => d
    | some (x, rest) =>
      let ports := x.routers.flatMap d.portsTo
      let d := d.modNoc (fun n => { n with domains := rest, down := n.down.filter (fun p => !ports.contains p) })
      let d := x.positions.foldl (fun d p => d.modPos p (fun q => if q.st = .off then { q with st := .standby } else q)) d
      d.askSwap x))

/-- The crypto units (chapter 11) and zeroization (R291, R292): what each command does, in every state. CRYPTO_SLOT_START (R273):
the head of the queue takes a free slot. CRYPTO_CALL_COMPLETE (R272): the call of a slot ends once its latency has passed.
DRBG_RESEED: after 2^20 requests or 1 s. DRBG_RESTART: the instances are seeded afresh. That 4,096 samples have passed is the
ward's to know (log 51). ENTROPY_TEST_FAIL: the instances stop producing. ZEROIZE (R292): a write of 1. MESH_COMPARE: the
pattern that returns on `MESH_IN`; then a new pattern is driven (R291, R292). GLITCH_DETECT (R292): A zeroization trigger:
steps 1 to 3: slots, cache, DRBG states and the master key on the die overwritten; the instances are seeded afresh (log 124).
ZEROIZE_SEAL_DONE: steps 4 and 5. -/
def Obligations.CryptoUnitCommands : Prop :=
  (∀ (k : Nat) (s0 : State), Gives (.cryptoSlotStart k) s0 (
    let d := s0.dev
    let att := cslotAtt k
    if !d.cslotOk k || (tget? d.cry.slots k).isSome then d
    else match d.cqueue att with
      | [] => d
      | c :: r => (d.setCqueue att r).beginCall k c))
  ∧ (∀ (k : Nat) (s0 : State), Gives (.cryptoCallComplete k) s0 (
    let d := s0.dev
    match tget? d.cry.slots k with
    | none => d
    | some s =>
      if d.up < s.done then d
      else
        let c := s.call
        let free (d : Dev) : Dev := ({ d with cry := { d.cry with slots := terase d.cry.slots k } }).endDeletes
        match d.areaRead c.graph (pbInEa c.block) (pbInLen c.block) with
        | (none, d) => (free (d.bump 0x6010 4)).hubExc c.agent c.req 7 4
        | (some m, d) => match d.areaRead c.graph (pbAuxEa c.block) (pbAuxLen c.block) with
          | (none, d) => (free (d.bump 0x6010 4)).hubExc c.agent c.req 7 4
          | (some aux, d) =>
            match d.callRun c (s.key1.getD keyRecInit) (s.key2.getD keyRecInit) m aux with
            | (.fail e, d) => (free d).callFail c e
            | (.done o v bad, d) =>
              let d := (free (d.areaWrite c.graph (pbOutEa c.block) o)).bump (0x5030 + c.att) 1
              let d := if bad then d.bump 0x5033 1 else d
              d.hubWord c.agent c.req v))
  ∧ (∀ (i : Nat) (s0 : State), Gives (.drbgReseed i) s0 (
    let d := s0.dev
    if 4 ≤ i || !d.drbgOn i then d
    else if tget 0 d.cry.reqs i < 2 ^ 20 && d.up < tget 0 d.cry.seededAt i + 1000000000 then d
    else { d with cry := { d.cry with reqs := tset d.cry.reqs i 0, seededAt := tset d.cry.seededAt i d.up } }))
  ∧ Writes .drbgRestart .drbgRestart (fun _ r d e => e =
    let v := reqValue r
    if v ≠ 1 then d
    else { d with cry := { d.cry with
      drbg := 15, reqs := [], seededAt := (List.range 4).map (fun i => (i, d.up)) } })
  ∧ (∀ (s0 : State), Gives .entropyTestFail s0 (
    let d := s0.dev
    ({ d with cry := { d.cry with drbg := 0 } }.bump 0x5020 2).report 0x32 0))
  ∧ Writes .zeroize .zeroize (fun _ r d e => e =
    if reqValue r = 1 then d.zeroize 3 else d)
  ∧ (∀ (ret : Nat) (s0 : State), Gives (.meshCompare ret) s0 (
    let d := s0.dev
    if !d.wrd.up || !d.flag 0x5010 1 then { d with cry := { d.cry with meshFail := 0, mesh := 0 } }
    else
      let bad := ret % 16 != d.cry.mesh
      let n := if bad then d.cry.meshFail + 1 else 0
      let (p, d) := if d.drbgOn drbgWard then d.generate drbgWard 1 else ([BitVec.ofNat 8 d.cry.mesh], d)
      let d := { d with cry := { d.cry with mesh := (p.headD 0).toNat % 16, meshFail := if 2 ≤ n then 0 else n } }
      if 2 ≤ n then d.zeroize 1 else d))
  ∧ (∀ (s0 : State), Gives .glitchDetect s0 (
    let d := s0.dev
    let trigger := 2
    if d.cry.zero.isSome then d
    else
      let d := (d.setObj 0x5010 4 trigger)
      let d := { d with cry := { d.cry with ring := 2, zero := some (d.up, 3), cached := [], comps := [], compChk := [],
                                            impBlock := [], master := [], reqs := [],
                                            seededAt := (List.range 4).map (fun i => (i, d.up)) } }
      d.endCalls.endDeletes))
  ∧ (∀ (s0 : State), Gives .zeroizeSealDone s0 (
    let d := s0.dev
    if d.cry.zero.isNone then d
    else
      let trig := d.obj 0x5010 4
      let d := { d with cry := { d.cry with zero := none, sealed_ := [] } }.bump 0x5010 3
      let hit (e : Nat × Ses) : Bool :=
        let prof := bits (d.partner (cfgPartner e.2.cfg)) 46 43
        bits (d.obj (0x4010 + prof) 1) 63 48 != 0 && (e.2.st == .opened || e.2.st == .handshaking)
      let d := (d.ses.ses.filter hit).foldl (fun d (e : Nat × Ses) => (d.closeSes e.1 (some .closeNotify)).settle) d
      (d.report 0x33 0).journal { jrec0 with typ := 7, reason := trig }))

/-- The keyring (chapter 11): what each command does, as the ward applies it. MASTER_KEY_CMD (R281): drawn from the ward's DRBG,
none while that is stopped (R290, log 124). KEY_DELETE (R285). IMPORT_CMD (R284). EXPORT_CMD (R284). An empty handle answers
status 8 (log 50). COMPONENT (R284). GEN_CMD (R284): status 1 done, 2, 5, 7 or 8; no effect while the ward's DRBG is stopped
(log 124). A public verification key is not generated. -/
def Obligations.KeyringCommands : Prop :=
  Writes .masterKeyCmd .masterKey (fun _ r d e => e =
    let v := reqValue r
    if v ≠ 1 || d.cry.ring = 1 || d.cry.zero.isSome || !d.drbgOn drbgWard then d
    else
      let (k, d) := d.generate drbgWard 32
      { d with cry := { d.cry with ring := 1, keys := if d.cry.ring = 2 then [] else d.cry.keys, cached := [],
                                   master := k, sealed_ := k } })
  ∧ Writes .keyDelete .keyDelete (fun ro r d e => e =
    let v := reqValue r
    let sess := r.sess
    let h := d.obj 0x5001 1
    match d.key? h with
    | some k =>
      if v ≠ 1 then d
      else
        let r := d.keyRec 4 h k.attr sess ro
        { d with cry := { d.cry with keys := terase d.cry.keys h, cached := d.cry.cached.filter (· != h),
                                     deleting := d.cry.deleting ++ [(k.ser, r)] } }.endDeletes
    | none => d)
  ∧ Writes .importCmd .importCmd (fun ro r d e => e =
    let v := reqValue r
    let sess := r.sess
    if v ≠ 1 then d
    else
      let set (d : Dev) (st : Nat) : Dev := { d with cry := { d.cry with impSt := st } }
      let h := d.obj 0x5002 2
      if !d.ringReady then set d 7
      else match d.key? (d.obj 0x5002 3) with
        | none => set d 3
        | some p =>
          if !(aUsage p.attr == uK1 && aAlg p.attr == algAes && aSize p.attr == 2 && aRev p.attr) then set d 3
          else match openBlock p.sec d.cry.impBlock with
            | .error st => set d st
            | .ok k =>
              let st := d.roomFor k.attr h
              if st ≠ 1 then set d st
              else (set (d.installKey h k) 1).journal (d.keyRec 1 h k.attr sess ro))
  ∧ Writes .exportCmd .exportCmd (fun ro r d e => e =
    let v := reqValue r
    let sess := r.sess
    if v ≠ 1 then d
    else
      let set (d : Dev) (st : Nat) : Dev := { d with cry := { d.cry with expSt := st, expBlock := [] } }
      let h := d.obj 0x5003 1
      if !d.ringReady then set d 7
      else match d.key? (d.obj 0x5003 2), d.key? h with
        | some p, some k =>
          if !(aUsage p.attr == uK1 && aAlg p.attr == algAes && aSize p.attr == 2 && aFwd p.attr) then set d 3
          else if aExport k.attr ≠ 1 then set d 6
          else if !d.drbgOn drbgWard then d
          else
            let (pad, d) := d.generate drbgWard 32
            let d := { d with cry := { d.cry with expBlock := sealBlock p.sec k pad, expSt := 1 } }
            d.journal (d.keyRec 2 h k.attr sess ro)
        | none, _ => set d 3
        | _, none => set d 8)
  ∧ Writes .component .component (fun ro r d e => e =
    let v := reqValue r
    let id := match tget? d.wrd.sessions r.sess with | some w => beNat w.key | none => 0
    let sess := r.sess
    let o := leOctets 32 v
    if !d.ringReady || d.cry.comps.any (fun c => c.1 == id) then d
    else
      let old := d.cry.comps
      let cs := old ++ [(id, o)]
      let x (l : List (Nat × List Byte)) : List Byte := l.foldl (fun a c => xorOct a c.2) (List.replicate 32 0)
      let h := d.obj 0x5001 1
      let cv (o : List Byte) : List Byte := checkValue ⟨compAttr, o, [], [], 0⟩
      let chk := (cv o).take 3 ++ (cv (x cs)).take 2
      let d := { d with cry := { d.cry with comps := if 3 ≤ cs.length then [] else cs, compChk := chk } }
      if cs.length < 2 then d
      else
        let mine := match d.key? h with | some k => decide (2 ≤ old.length) && k.sec == x old | none => false
        if !mine && d.roomFor compAttr h ≠ 1 then d
        else (d.installKey h ⟨compAttr, x cs, [], [], 0⟩).journal (d.keyRec 1 h compAttr sess ro))
  ∧ Writes .genCmd .genCmd (fun ro r d e => e =
    let v := reqValue r
    let sess := r.sess
    if v ≠ 1 || !d.drbgOn drbgWard then d
    else
      let a := d.obj 0x5005 1
      let h := d.obj 0x5005 2
      let pair := aAlg a == algEcc || aAlg a == algRsa
      let st := if !d.ringReady then 7 else if !attrOk a || aUsage a == uPub || (pair != (aUsage a == uS0)) then 5 else d.roomFor a h
      if st ≠ 1 then { d with cry := { d.cry with genSt := st } }
      else
        let (k, d) := d.makeKey a
        let d := d.installKey h k
        { d with cry := { d.cry with genSt := 1 } }.journal (d.keyRec 3 h a sess ro))

/-- The journal (R298–R303): what each command does, in every state. JOURNAL_APPEND: the oldest record of a lane. A record that
must wait while the queue is full stays in its lane. CKPT_INTERVAL_EXPIRY. CKPT_REQUEST (R303). CKPT_SIGN_DONE.
JNL_EXPORT_ACK: of the mode's path, for records that were handed to it; in mode 2 for those that TCP has acknowledged.
JOURNAL_ACK_DOORBELL: the count that the host writes, in mode 1. -/
def Obligations.JournalCommands : Prop :=
  (∀ (l : Nat) (s0 : State), Gives (.journalAppend l) s0 (
    let d := s0.dev
    match (tget laneInit d.jnl.lanes l).queue with
    | [] => d
    | r :: q =>
      let pop (d : Dev) : Dev := { d with jnl := { d.jnl with lanes := tmod laneInit d.jnl.lanes l (fun x => { x with queue := q }) } }
      if d.jnlFree < d.ctxActive && [0x03, 0x04, 0x0A].contains r.typ then (pop d).suppress r
      else if d.jnlFree ≤ d.ctxActive && [0x05, 0x06, 0x07, 0x09, 0x0B].contains r.typ then
        if d.jnl.waitQ.length < waitCap then pop { d with jnl := { d.jnl with waitQ := d.jnl.waitQ ++ [r] } } else d
      else ((pop d).append r).roomMade))
  ∧ (∀ (s0 : State), Gives .ckptIntervalExpiry s0 (
    let d := s0.dev
    if d.jnl.sinceCut ≠ 0 && decide (d.jnl.cutAt + d.obj 0x7010 2 * 1000000 ≤ d.up) then d.cut 1 else d))
  ∧ Writes .ckptRequest .ckptRequest (fun _ r d e => e =
    if reqValue r = 1 then d.cut 2 else d)
  ∧ (∀ (s0 : State), Gives .ckptSignDone s0 (
    let d := s0.dev
    match d.jnl.cuts with
    | o :: _ => if d.jobReady (.ckpt (leNat (o.take 8))) then d.ckptWrite else d
    | [] => d))
  ∧ (∀ (n : Nat) (s0 : State), Gives (.jnlExportAck n) s0 (
    let d := s0.dev
    match d.obj 0x7000 8 with
    | 1 => d.exportAck (min n d.jnl.posted)
    | 2 =>
      let k := min n (min d.jnl.posted d.tcpAcked)
      Dev.exportAck { d with jnl := { d.jnl with marks := dropMarks k d.jnl.marks } } k
    | _ => d))
  ∧ (∀ (n : Nat) (s0 : State), Gives (.journalAckDoorbell n) s0 (
    let d := s0.dev
    if d.lnk.pcieUp && d.obj 0x7000 8 = 1 then d.exportAck (min n d.jnl.posted) else d))

/-- The timebase (R309–R317, R449): what each command does, in every state. PPS_IN_EDGE (R310, R315, R449): the edge is captured;
with `PPS_IN` selected its distance from the whole second is the phase error. While Locked an edge more than 1 ms away counts
as missing. `frac` is the fraction in 1/256 ns. TAI_SET. TAI_STEP_APPLY: at the `PPS_IN` edge captured now, or at the whole
second with another source. TAI_SLEW_NS: the offset is added; a total beyond ±1 s is ignored. TB_SOURCE_WRITE: source codes
0–3. SOURCE_LOSS_TIMEOUT. REFCLK_LOCK_LOST. REFCLK_LOCK_REGAINED. PPS_OUT_PULSE. PPS_OUT_WIDTH_END. -/
def Obligations.TimebaseCommands : Prop :=
  (∀ (frac : Nat) (s0 : State), Gives (.ppsInEdge frac) s0 (
    let d := s0.dev
    if d.tb.waitLock || d.tbSel ≠ 1 then d
    else
      let f := frac % 256
      let d := { d with tb := { d.tb with edge := some d.up, capture := d.tai * 65536 + f * 256 + d.quality } }
      let e := centred (d.tai * 1000 + f * 1000 / 256 - d.objI 0x7100 7 40 * 1000) (10 ^ 12)
      if d.tb.step.isSome || (d.tb.st = .locked && decide (10 ^ 9 < e.natAbs)) then d else d.measure 1 e))
  ∧ Writes .taiSet .taiSet (fun _ r d e => e =
    let v := reqValue r
    if d.tb.st = .unset || d.tb.st = .freeRun || (d.ctxActive = 0 && !d.flag 0x3000 1) then
      { d with tb := { d.tb with step := some v, edge := none } }
    else d.bump 0x7100 0x0E)
  ∧ (∀ (s0 : State), Gives .taiStepApply s0 (
    let d := s0.dev
    match d.tb.step with
    | none => d
    | some v =>
      let due := if d.tbSel = 1 then d.tb.edge == some d.up else d.tai % 10 ^ 9 == 0
      if d.tb.waitLock || !due then d
      else
        let new := wrap 64 (v + if d.tbSel = 1 then d.objI 0x7100 7 40 else 0)
        let detail := wrap 40 ((new : Int) - d.tai)
        let d := { d with tai := new, tb := { d.tb with step := none, edge := none, good := 0 } }
        let d := if d.tb.st ≠ .unset then d else if d.tbSel = 0 then d.tbMove .freeRun 0
          else ({ d with tb := { d.tb with lastMeas := d.up } }).tbMove .acquiring d.tbSel
        d.timeRec detail))
  ∧ Writes .taiSlewNs .taiSlew (fun _ r d e => e =
    let v := reqValue r
    let t := d.tb.slew + sgn 40 v
    if decide (t.natAbs ≤ 10 ^ 9) then { d with tb := { d.tb with slew := t } } else d)
  ∧ Writes .tbSourceWrite .tbSource (fun _ r d e => e =
    let v := reqValue r
    if v ≤ 3 then d.setObj 0x7100 2 v else d)
  ∧ (∀ (s0 : State), Gives .sourceLossTimeout s0 (
    let d := s0.dev
    if d.tb.lastMeas + d.lossNs < d.up then d.sourceLost else d))
  ∧ (∀ (s0 : State), Gives .refclkLockLost s0 (
    let d := s0.dev
    if d.tb.waitLock || d.tb.st = .refLost then d else (d.tbTo .refLost d.tb.src).report 0x34 0))
  ∧ (∀ (s0 : State), Gives .refclkLockRegained s0 (
    let d := s0.dev
    if d.tb.st = .refLost then d.tbTo (if d.tb.ever then .holdover else .freeRun) d.tb.src else d))
  ∧ (∀ (s0 : State), Gives .ppsOutPulse s0 (
    let d := s0.dev
    if d.tb.ever && d.ppsOk d.tb.st && ((d.tai : Int) - d.objI 0x7100 9 40) % 10 ^ 9 == 0 then
      let en := d.obj 0x7100 8 % 4
      let off := [0, 1].foldl (fun t p => if bit en p then tset t p (d.up + d.obj 0x7100 0x0A * 1000) else t) d.tb.ppsOff
      { d with tb := { d.tb with pps := d.tb.pps ||| en, ppsOff := off } }
    else d))
  ∧ (∀ (p : Nat) (s0 : State), Gives (.ppsOutWidthEnd p) s0 (
    let d := s0.dev
    match tget? d.tb.ppsOff p with
    | some t => if t ≤ d.up then
        { d with tb := { d.tb with pps := if bit d.tb.pps p then d.tb.pps - 2 ^ p else d.tb.pps, ppsOff := terase d.tb.ppsOff p } }
      else d
    | none => d))

/-- The Precision Time Protocol port (R312, R313, R356): what each command does, in every state. PTP_MESSAGE_RECEIVE: message
types 0 Sync, 1 Delay_Req, 2 Pdelay_Req, 3 Pdelay_Resp, 8 Follow_Up, 9 Delay_Resp, 0x0A Pdelay_Resp_Follow_Up, 0x0B Announce,
of the configured domain and transport. PTP_SYNC_SEND: one-step, or two-step with its Follow_Up. PTP_ANNOUNCE_SEND.
PTP_DELAY_REQUEST_SEND: a Pdelay_Req on a peer-delay port, a Delay_Req on the slave port otherwise. -/
def Obligations.PtpCommands : Prop :=
  (∀ (p : Nat) (m : PtpMsg) (s0 : State), Gives (.ptpMessageReceive p m) s0 (
    let d := s0.dev
    if !d.ptpOn p || m.domain ≠ d.obj 0x7200 6 || m.transp ≠ d.obj 0x7200 5 then d
    else match m.typ with
    | 0 =>
      if !d.ptpSlave p || !d.ptpFollows p m then d
      else if m.twoStep then { d with tb := { d.tb with ptpPend := tset d.tb.ptpPend p (m.seq, m.rx, m.corr) } }
      else d.ptpTime p ((m.rx : Int) - m.stamp - m.corr)
    | 8 => match tget? d.tb.ptpPend p with
      | some (q, rx, c) => if q = m.seq && d.ptpFollows p m then d.ptpTime p ((rx : Int) - m.stamp - c - m.corr) else d
      | none => d
    | 1 => if d.ptpSlave p || d.ptpP2p p then d else d.ptpSend p (d.ptpMsg 9 m.seq m.rx m.corr false)
    | 9 => match tget? d.tb.ptpReq p with
      | some (q, t) =>
        if q = m.seq && !d.ptpP2p p && d.ptpSlave p then
          d.setDelay p ((tget 0 d.tb.ptpFwd p + ((m.stamp : Int) - t - m.corr)) / 2)
        else d
      | none => d
    | 2 =>
      if !d.ptpP2p p then d
      else
        let (now, d) := d.ptpNow
        if d.flag 0x7200 0x0A then
          (d.ptpSend p (d.ptpMsg 3 m.seq m.rx m.corr true)).ptpSend p (d.ptpMsg 0x0A m.seq now 0 false)
        else d.ptpSend p (d.ptpMsg 3 m.seq 0 (m.corr + ((now : Int) - m.rx)) false)
    | 3 => match tget? d.tb.ptpReq p with
      | some (q, t) =>
        if q ≠ m.seq || !d.ptpP2p p then d
        else if m.twoStep then { d with tb := { d.tb with ptpPd := tset d.tb.ptpPd p (m.stamp, m.rx) } }
        else d.setDelay p (((m.rx : Int) - t - m.corr) / 2)
      | none => d
    | 0x0A => match tget? d.tb.ptpReq p, tget? d.tb.ptpPd p with
      | some (q, t), some (t2, t4) =>
        if q = m.seq && d.ptpP2p p then d.setDelay p ((((t4 : Int) - t) - ((m.stamp : Int) - t2) - m.corr) / 2) else d
      | _, _ => d
    | 0x0B =>
      let k := ptpRank m
      if (match d.ptpForeign p with | none => true | some o => decide (k ≤ o) || o % 2 ^ 64 == k % 2 ^ 64) then
        { d with tb := { d.tb with ptpMaster := tset d.tb.ptpMaster p (k, d.up) } }
      else d
    | _ => d))
  ∧ (∀ (p : Nat) (s0 : State), Gives (.ptpSyncSend p) s0 (
    let d := s0.dev
    let due := match tget? d.tb.ptpSent p with | some t => decide (t + d.syncNs ≤ d.up) | none => true
    if !d.ptpMasterPort p || !due then d
    else
      let (n, d) := d.ptpNext p 0
      let d := { d with tb := { d.tb with ptpSent := tset d.tb.ptpSent p d.up } }
      let (now, d) := d.ptpNow
      if d.flag 0x7200 0x0A then (d.ptpSend p (d.ptpMsg 0 n 0 0 true)).ptpSend p (d.ptpMsg 8 n now 0 false)
      else d.ptpSend p (d.ptpMsg 0 n now 0 false)))
  ∧ (∀ (p : Nat) (s0 : State), Gives (.ptpAnnounceSend p) s0 (
    let d := s0.dev
    if !d.ptpMasterPort p then d else let (n, d) := d.ptpNext p 11; d.ptpSend p (d.ptpMsg 0x0B n (d.tai * 256) 0 false)))
  ∧ (∀ (p : Nat) (s0 : State), Gives (.ptpDelayRequestSend p) s0 (
    let d := s0.dev
    if !d.ptpOn p || !(d.ptpP2p p || d.ptpSlave p) then d
    else
      let kind := if d.ptpP2p p then 2 else 1
      let (n, d) := d.ptpNext p kind
      let (now, d) := d.ptpNow
      let d := { d with tb := { d.tb with ptpReq := tset d.tb.ptpReq p (n, now), ptpPd := terase d.tb.ptpPd p } }
      d.ptpSend p (d.ptpMsg kind n now 0 false)))

/-- Frames of the station ring (R369–R373): what each command does, in every state. RING_TIME_SEND: the master's time frame,
every 1 ms. RING_FRAME_FORWARD: a frame arrives at a port, with what follows it. RING_TIME_FRAME_RECEIVE: a time frame at a
port; `ps` is the timebase reading in ps at its K27.7. RING_FAULT_FRAME_RECEIVE: counted, and the latest held.
RING_CLAIM_RECEIVE: a better claim ends claiming and mastership. -/
def Obligations.RingFrameCommands : Prop :=
  (∀ (s0 : State), Gives .ringTimeSend s0 (
    let d := s0.dev
    if d.rng.master && decide (d.rng.lastSend + 1000000 ≤ d.up) then
      let pl := leOctets 10 d.time80 ++ leOctets 4 d.rng.circ ++ [BitVec.ofNat 8 d.ownPri]
      (d.ringPut 0x10 ringAll pl).modRng (fun r => { r with lastSend := d.up, sentAt := some (d.tai * 1000), arrA := none, arrB := none })
    else d))
  ∧ (∀ (p : Nat) (f : RFrame) (t : RTail) (s0 : State), Gives (.ringFrameForward p f t) s0 (
    let d := s0.dev
    if !d.onRing p then d
    else
      let loc := faultLoc 6 p
      let (m, b, d) := d.takeInj 0x0B loc
      let ok := t.ended && t.crc == ringCrc f && m != 1 && m != 2
      let d := if ok then d.bump 0x1100 4 else d.bump 0x1100 5
      let removed := f.dst == d.nodeId || (f.dst == ringAll && f.src == d.nodeId) || decide (4096 ≤ f.hops + 1)
      let g : RFrame := { f with hops := f.hops + 1 }
      let d := if removed then d else d.modRng (fun r => { r with out := r.out ++ [(p, g, ringCrc g, ok)] })
      let mine := (f.dst == d.nodeId || f.dst == ringAll) && f.src != d.nodeId && ringType f.typ
      if !ok || !mine then d
      else if d.duplicate f then d.bump 0x1100 6
      else
        let f := if m = 3 then { f with pl := f.pl.zipIdx.map (fun x => if x.2 = b / 8 then x.1 ^^^ BitVec.ofNat 8 (2 ^ (b % 8)) else x.1) } else f
        (d.remember f).wardIrq 0))
  ∧ (∀ (p : Nat) (f : RFrame) (ps : Nat) (s0 : State), Gives (.ringTimeFrameReceive p f ps) s0 (
    let d := s0.dev
    if f.typ ≠ 0x10 || 2 ≤ p || !d.onRing p then d
    else if f.src = d.nodeId then d.ownReturn p f ps
    else
      let pri := (f.pl.getD 14 0xFF).toNat
      let d := (d.elected pri f.src).modRng (fun r => { r with lastTime := d.up, mPri := if r.master then r.mPri else pri, mId := if r.master then r.mId else f.src })
      let d := if d.rng.claiming.isSome && ringBetter pri f.src d.ownPri d.nodeId then d.modRng (fun r => { r with claiming := none }) else d
      let d := if d.ownPri < pri then d.startClaim else d
      let d := d.noteTime p f ps
      let d := if p = 0 then (d.setObj 0x7300 2 (f.hops % 65536)).setObj 0x7300 3 (1600 + (57 * f.hops + 9) / 10) else d
      d.ringPhase f))
  ∧ (∀ (f : RFrame) (s0 : State), Gives (.ringFaultFrameReceive f) s0 (
    let d := s0.dev
    if f.typ ≠ 0x20 || f.src = d.nodeId || !(d.onRing 0 || d.onRing 1) then d
    else (d.bump 0x9000 8).setObj 0x9000 9 (leNat (f.src.take 8 ++ f.pl.take 12))))
  ∧ (∀ (f : RFrame) (s0 : State), Gives (.ringClaimReceive f) s0 (
    let d := s0.dev
    if f.typ ≠ 0x30 || f.src = d.nodeId || !(d.onRing 0 || d.onRing 1) then d
    else
      let pri := (f.pl.headD 0xFF).toNat
      let d := d.elect pri f.src
      if ringBetter pri f.src d.ownPri d.nodeId then d.modRng (fun r => { r with claiming := none, master := false }) else d))

/-- The ring's master and its hinges (R370–R373): what each command does, in every state. CLAIM_TIMER: every 100 µs; a node that
is no longer eligible claims no more. TIME_FRAME_ABSENCE: 4 ms without a time frame. BECOME_MASTER: 1 ms of claiming without
a better claim. RING_BREAK_DETECT: a port has lost synchronisation or has had no idle for 1 µs. With the ring as the time
source the timebase reports Holdover (R317). HINGE_CLOSE. HINGE_OPEN: inside the idle run after 64 idle characters, once the
reset has ended and the structures are initialised (R430 step 5). RING_SYNC_ACQUIRED. -/
def Obligations.RingStateCommands : Prop :=
  (∀ (s0 : State), Gives .claimTimer s0 (
    let d := s0.dev
    if !d.eligible then d.modRng (fun r => { r with claiming := none })
    else if d.rng.claiming.isSome && decide (d.rng.lastClaim + 100000 ≤ d.up) then d.sendClaim else d))
  ∧ (∀ (s0 : State), Gives .timeFrameAbsence s0 (
    let d := s0.dev
    if !d.rng.master && decide (d.rng.lastTime + 4000000 ≤ d.up) then d.startClaim else d))
  ∧ (∀ (s0 : State), Gives .becomeMaster s0 (
    let d := s0.dev
    match d.rng.claiming with
    | some t =>
      if d.eligible && decide (t + 1000000 ≤ d.up) then
        d.modRng (fun r => { r with
          claiming := none, best := none, master := true, mPri := d.ownPri, mId := d.nodeId, sentAt := none, arrA := none, arrB := none })
      else d
    | none => d))
  ∧ (∀ (p : Nat) (s0 : State), Gives (.ringBreakDetect p) s0 (
    let d := s0.dev
    if 2 ≤ p || !d.wrd.up then d
    else
      let d := ((d.modRng (fun r => { r with sync := lset r.sync p false, broken := lset r.broken p true })).bump 0x1100 7).report 0x61 (faultLoc 6 p)
      if d.tb.st = .locked && d.tb.src = 3 then d.tbTo .holdover 3 else d))
  ∧ (∀ (p : Nat) (s0 : State), Gives (.hingeClose p) s0 (
    let d := s0.dev
    if d.hingesShut then d.modRng (fun r => { r with hinge := lset r.hinge p false }) else d))
  ∧ (∀ (p : Nat) (s0 : State), Gives (.hingeOpen p) s0 (
    let d := s0.dev
    if d.hingesShut || d.pwr.phase != .running then d else d.modRng (fun r => { r with hinge := lset r.hinge p true })))
  ∧ (∀ (p : Nat) (s0 : State), Gives (.ringSyncAcquired p) s0 (
    let d := s0.dev
    if 2 ≤ p || !d.wrd.up then d
    else d.modRng (fun r => { r with sync := lset r.sync p true, broken := lset r.broken p false })))

/-- Requests to the object dictionary (R374–R377, R418), in every state. DICT_READ: `OP` 1 of an object, but for a programmable
counter's value; with `INDEX` 0 the session closes. OBJECT_WRITE: an `OP` 2 that is no other row of the command table.
TRANSFER_BEGIN, SEGMENT_WRITE, SEGMENT_READ and TRANSFER_END: `OP` 3 to 6, each under the role of its session.
CNT_VALUE_READ: `OP` 1 of a counter's value (R418). A request of another `OP` leaves the block as it was. -/
def Obligations.DictionaryCommands : Prop :=
  (∀ (r : DReq) (s0 : State), Gives (.dictRead r) s0 (
    let d := s0.dev
    if r.op ≠ 1 || isCtrRead r then d
    else if r.idx = 0 then d.request r (fun _ d => ⟨0, [], { d with wrd := d.wrd.closeSession r.sess }⟩)
    else d.request r (fun ro d => d.readAcc r ro)))
  ∧ (∀ (r : DReq) (s0 : State), Gives (.objectWrite r) s0 (
    let d := s0.dev
    d.command r .plain (fun ro v d => d.plainWrite r.idx r.sub v r.sess (actorRole ro))))
  ∧ (∀ (r : DReq) (s0 : State), Gives (.transferBegin r) s0 (
    let d := s0.dev
    Dev.storeDue <|
      let op := 3
      let f := Dev.beginAcc
      if r.op = op then d.request r (fun ro d => f d r ro) else d))
  ∧ (∀ (r : DReq) (s0 : State), Gives (.segmentWrite r) s0 (
    let d := s0.dev
    let op := 4
    let f := Dev.segWrite
    if r.op = op then d.request r (fun ro d => f d r ro) else d))
  ∧ (∀ (r : DReq) (s0 : State), Gives (.segmentRead r) s0 (
    let d := s0.dev
    let op := 5
    let f := Dev.segRead
    if r.op = op then d.request r (fun ro d => f d r ro) else d))
  ∧ (∀ (r : DReq) (s0 : State), Gives (.transferEnd r) s0 (
    let d := s0.dev
    let op := 6
    let f := Dev.endAcc
    if r.op = op then d.request r (fun ro d => f d r ro) else d))
  ∧ (∀ (r : DReq) (s0 : State), Gives (.cntValueRead r) s0 (
    let d := s0.dev
    if isCtrRead r then d.request r (fun ro d => d.ctrRead r ro) else d))

/-- Sessions of the dictionary (R374–R376) and the PCIe port that carries them (R354, R355): what each command does, in every
state. SESSION_OPEN from a station over the ring, or over queue pair `chan` − 0x40: a challenge with a fresh nonce. In
recovery role K alone is accepted (R364). SESSION_PROOF. SESSION_IDLE_TIMEOUT. LOCKOUT_EXPIRY of a station. PCIE_DOORBELL: an
entry of a queue pair's submission ring, at `index`, naming a buffer of `octets` octets; `x` are the pair's registers. One
that exceeds the ring, or meets a ring of no legal length, or names an unaligned buffer is completed with status 1.
PCIE_LINK_RESET: the queue pairs are reset and the sessions they carry closed; the link is down until it trains.
PCIE_LINK_UP: width and rate codes as negotiated. -/
def Obligations.SessionCommands : Prop :=
  (∀ (chan : Nat) (station : List Byte) (role : Nat) (nonce : List Byte) (s0 : State), Gives (.sessionOpen chan station role nonce) s0 (
    let d := s0.dev
    let st := if pcieSes chan then leOctets 8 (chan - 0x40) else padTo 8 station
    if !d.wardUp || d.pwr.phase != .running || d.lockedOut st then d
    else match roleOf role, d.sessionNum chan with
      | some ro, some s =>
        if d.wrd.state = 2 && ro ≠ .K then d
        else
          let (n, d) := d.draw 16
          let d := { d with wrd := d.wrd.closeSession s }
          let w : WSes := ⟨.challenged, ro, st, padTo 16 nonce, n, [], d.up, none, []⟩
          (d.modWrd (fun x => { x with sessions := tset x.sessions s w })).frameTo s 4 0 st (sesOctet s :: n)
      | _, _ => d))
  ∧ (∀ (n : Nat) (proof : List Byte) (s0 : State), Gives (.sessionProof n proof) s0 (
    let d := s0.dev
    let s := n
    if !d.wardUp then d
    else match tget? d.wrd.sessions s with
      | none => d
      | some w =>
        if w.stage ≠ .challenged then d
        else if proof = d.proofOf w then
          let d := d.modWrd (fun x => { x with sessions := tset x.sessions s { w with stage := .opened, key := d.sessionKey w, last := d.up } })
          let d := d.frameTo s 6 0 w.station [sesOctet s]
          if w.role = .K then d.wardRecord 7 (leNat w.station) s (actorRole .K) else d
        else (d.modWrd (fun x => { x with sessions := tset x.sessions s { w with stage := .failed } })).wrongProof w.station s w.role))
  ∧ (∀ (n : Nat) (s0 : State), Gives (.sessionIdleTimeout n) s0 (
    let d := s0.dev
    let s := n
    match tget? d.wrd.sessions s with
    | some w => if w.last + idleNs ≤ d.up then { d with wrd := d.wrd.closeSession s } else d
    | none => d))
  ∧ (∀ (st : List Byte) (s0 : State), Gives (.lockoutExpiry st) s0 (
    let d := s0.dev
    d.modWrd (fun w => { w with lockouts := w.lockouts.filter (fun x =>
      !(x.station == st && (match x.until_ with | some t => decide (t ≤ d.up) | none => false))) })))
  ∧ (∀ (q : Nat) (x : QpRegs) (index octets : Nat) (aligned : Bool) (f : RFrame) (s0 : State), Gives (.pcieDoorbell q x index octets aligned f) s0 (
    let d := s0.dev
    if !d.lnk.pcieUp || 34 ≤ q then d
    else
      let d := d.modQp q (fun y => { y with subLen := x.subLen, cplLen := x.cplLen })
      let d := { d with lnk := { d.lnk with masked := x.masked } }
      if !(ringLenOk x.subLen && ringLenOk x.cplLen && decide (index < x.subLen) && aligned) then (d.complete q index 1).bump 0x8300 2
      else
        let d := d.modQp q (fun y => { y with head := (index + 1) % x.subLen })
        if q < 32 then if d.hostFrame q f then (d.complete q index 0).wardIrq 1 else d.complete q index 0
        else
          let d := d.modQp q (fun x => { x with bufs := x.bufs ++ [(index, octets)] })
          if q = 32 then d.exportNext else d))
  ∧ (∀ (s0 : State), Gives .pcieLinkReset s0 (
    let d := s0.dev
    { d with
      lnk := { d.lnk with pcieUp := false, qps := [], masked := [], frames := [] },
      wrd := d.wrd.closePcie,
      jnl := { d.jnl with posted := if d.obj 0x7000 8 = 1 then 0 else d.jnl.posted } }))
  ∧ (∀ (width rate : Nat) (s0 : State), Gives (.pcieLinkUp width rate) s0 (
    let d := s0.dev
    if d.pwr.bs.getD 19 0 ≠ 2 then d
    else ({ d with lnk := { d.lnk with pcieUp := true } }).setObj 0x8300 1 (width % 16 * 16 + rate % 16)))

/-- The ward and its firmware (R358–R364, R384): what each command does, in every state. WATCHDOG_EXPIRY: 100 ms after its last
restart. WARD_RESTART (R360). SENSOR_SAMPLE: every 100 µs. FW_VERIFY_DONE. FW_COMMAND: 1 starts a trial of a Valid inactive
slot. FW_TRIAL_CONFIRM: the self-check passes within 60 s of the trial's start. FW_TRIAL_TIMEOUT: 60 s pass without
confirmation. -/
def Obligations.WardCommands : Prop :=
  (∀ (s0 : State), Gives .watchdogExpiry s0 (
    let d := s0.dev
    if d.wardUp && decide (d.wrd.dog + 100000000 ≤ d.up) then ((d.bump 0xC000 3).report 0x60 0).wardReset 0 else d))
  ∧ Writes .wardRestart .wardRestart (fun _ r d e => e =
    if reqValue r = 1 then d.wardReset 1 else d)
  ∧ (∀ (tj tjHbm : List Int) (rails : List Nat) (s0 : State), Gives (.sensorSample tj tjHbm rails) s0 (
    let d := s0.dev
    if !d.wardUp || d.up < d.pwr.sampleAt + 100000 then d
    else
      let d := d.modPwr (fun w => { w with
        sampleAt := d.up, tjHbm := (List.range 8).map (fun i => tjHbm.getD i 0), rails := (List.range 8).map (fun i => rails.getD i 0) })
      let d := ((List.range 5).filter d.hasSensor).foldl (fun d i => d.sensorRead i (tj.getD i 0)) d
      if d.hot then d.boostEnd else d))
  ∧ (∀ (s0 : State), Gives .fwVerifyDone s0 (
    let d := s0.dev
    let i := d.fwOther
    let x := d.fwSlot i
    if !x.verify || !d.jobReady .firmware then d
    else
      let ok := fwSigned x.octets && decide (d.wrd.rollback ≤ fwLevel x.octets)
      (d.dropJob .firmware).setFw i ⟨if ok then .valid else .invalid, x.octets, false⟩))
  ∧ Writes .fwCommand .fwCommand (fun _ r d e => e =
    let v := reqValue r
    let x := d.fwSlot d.fwOther
    if v ≠ 1 || x.st ≠ .valid then d
    else ((d.setFw d.fwOther { x with st := .trial }).modWrd (fun w => { w with trialAt := none })).wardReset 2)
  ∧ (∀ (s0 : State), Gives .fwTrialConfirm s0 (
    let d := s0.dev
    match d.wrd.trialAt with
    | none => d
    | some t =>
      if t + 60000000000 ≤ d.up then d
      else
        let i := d.fwOther
        let x := d.fwSlot i
        let old := d.fwSlot d.wrd.fwActive
        let r := max d.wrd.rollback (fwLevel x.octets)
        let d := (d.setFw i { x with st := .active }).setFw d.wrd.fwActive { old with st := .valid }
        let d := d.modWrd (fun w => { w with fwActive := i, trialAt := none, rollback := r })
        d.wardRecord 3 (x.version + r * 2 ^ 32) 0xFF 0))
  ∧ (∀ (s0 : State), Gives .fwTrialTimeout s0 (
    let d := s0.dev
    match d.wrd.trialAt with
    | some t => if t + 60000000000 ≤ d.up then d.wardReset 3 else d
    | none => d))

/-- The object store (R14, R15) and graph images (R378–R383): what each command does, in every state. STORE: during an activation
it begins when that ends (R384). RESTORE. STORE_ERASE. IMG_VERIFY_DONE (R380). IMG_ACTIVATE: step 1. IMG_INSTALL_DONE: steps
2 and 3. IMG_DEACTIVATE. IMG_DRAIN_DONE: no Active context runs under a template of the image. IMG_ERASE: of a Loaded slot. -/
def Obligations.StoreAndImageCommands : Prop :=
  Writes .store .store (fun ro r d e => e =
    let actor := r.sess
    let role := actorRole ro
    let d := d.modWrd (fun w => { w with storeBy := (actor, role) })
    if d.activating then d.modWrd (fun w => { w with storeSt := 1, storeBusy := 1 }) else d.storeNow)
  ∧ Writes .restore .restore (fun ro r d e => e =
    let actor := r.sess
    let role := actorRole ro
    if d.flag 0x3000 1 then d.modWrd (fun w => { w with storeSt := 3 })
    else match d.wrd.store with
      | none => d.modWrd (fun w => { w with storeSt := 4 })
      | some s => (d.restoreSet s actor role).modWrd (fun w => { w with storeSt := 2 }))
  ∧ Writes .storeErase .storeErase (fun _ _ d e => e =
    d.modWrd (fun w => { w with stores := [none, none], storeSt := 2 }))
  ∧ (∀ (idx : Nat) (s0 : State), Gives (.imgVerifyDone idx) s0 (
    let d := s0.dev
    let x := d.img idx
    if x.st ≠ .receiving || x.busy ≠ .verify || !d.jobReady (.image idx) then d
    else
      let d := d.dropJob (.image idx)
      let fail (r : Nat) : Dev := d.setImg idx { x with st := .empty, busy := .none, octets := [], result := imgResult r 0 0 }
      if !d.imgSigned x.octets then fail 1
      else if !imgHeaderOk idx x.octets then fail 2
      else d.setImg idx { x with st := .loaded, busy := .none, result := 0 }))
  ∧ Writes .imgActivate .imgActivate (fun ro r d e => e =
    let idx := r.idx
    let sess := r.sess
    let role := actorRole ro
    let x := d.img idx
    if x.st ≠ .loaded || x.busy ≠ .none then d
    else
      let r := d.imgCheck idx x.octets
      if r ≠ 0 then (d.setImg idx { x with result := r }).wardLog logActivation (leOctets 2 idx ++ leOctets 8 r)
      else d.setImg idx { x with busy := .install, by_ := (sess, role) })
  ∧ (∀ (idx : Nat) (s0 : State), Gives (.imgInstallDone idx) s0 (
    let d := s0.dev
    Dev.storeDue <|
      let x := d.img idx
      if x.st ≠ .loaded || x.busy ≠ .install then d
      else
        let s := imgSlotOf idx
        let d := (d.putImage idx x.octets).setImg idx { x with st := .active, busy := .none, result := 0 }
        (if imgKindOf idx = 0 then d.usableNow s else d).wardRecord 1 (imgDetail idx x.octets) x.by_.1 x.by_.2))
  ∧ Writes .imgDeactivate .imgDeactivate (fun ro r d e => e =
    let idx := r.idx
    let sess := r.sess
    let role := actorRole ro
    let x := d.img idx
    if x.st ≠ .active then d else d.unlessNamed idx (fun d => d.setImg idx { x with st := .draining, by_ := (sess, role) }))
  ∧ (∀ (idx : Nat) (s0 : State), Gives (.imgDrainDone idx) s0 (
    let d := s0.dev
    let x := d.img idx
    let s := imgSlotOf idx
    if x.st ≠ .draining || (imgKindOf idx == 0 && d.key.lives.any (fun (e : Nat × Life) => e.2.graph == s)) then d
    else
      ((d.dropImage idx).setImg idx { x with st := .loaded }).wardRecord 2 (imgDetail idx x.octets) x.by_.1 x.by_.2))
  ∧ Writes .imgErase .imgErase (fun ro r d e => e =
    let idx := r.idx
    let sess := r.sess
    let role := actorRole ro
    Dev.storeDue <|
      let x := d.img idx
      if x.st ≠ .loaded then d
      else d.unlessNamed idx (fun d =>
        (d.setImg idx { imgInit with result := x.result }).wardRecord 2 (imgDetail idx x.octets) sess role))

/-- Inter-device links (R341–R345): what each command does to a link, in every state. LINK_ENABLE_SET (R341): The port that a
request's object belongs to. LINK_ENABLE_CLEAR (R341): The port that a request's object belongs to. LINK_TRAINED: lanes
locked and FEC aligned; `neighbour` is the neighbour's `DEVICE_ID`, `flight` the time measured. LINK_REALIGNED: within 100
ms. LINK_ALIGNMENT_LOST. LINK_RETRAIN_TIMEOUT: 100 ms in Retraining. LINK_DOWN_EXPIRY: 10 ms in Down. DEVICE_ID_WRITE (R345,
R357): ignored while any port is not Disabled; [14:12] read as written 0. -/
def Obligations.LinkStateCommands : Prop :=
  Writes .linkEnableSet .linkSet (fun _ r d e => e =
    let f := Dev.linkEnable
    match linkOfIdx d.part r.idx with | some l => f d l | none => d)
  ∧ Writes .linkEnableClear .linkClear (fun _ r d e => e =
    let f := Dev.linkDisable
    match linkOfIdx d.part r.idx with | some l => f d l | none => d)
  ∧ (∀ (l neighbour flight : Nat) (s0 : State), Gives (.linkTrained l neighbour flight) s0 (
    let d := s0.dev
    if (d.link l).st ≠ .training || d.nLinks ≤ l || d.pwr.bs.getD (13 + l) 0 ≠ 2 then d
    else if bit (d.obj 0x8100 1) 15 || bit neighbour 15 || neighbour % 4096 == d.devId then d.report 0x50 (linkLoc l)
    else ((d.linkUp l).setObj (lidx l) 8 (neighbour % 4096)).setObj (lidx l) 9 (flight % 65536)))
  ∧ (∀ (l : Nat) (s0 : State), Gives (.linkRealigned l) s0 (
    let d := s0.dev
    let x := d.link l
    if x.st = .retraining && decide (d.up < x.since + 100000000) then d.linkUp l else d))
  ∧ (∀ (l : Nat) (s0 : State), Gives (.linkAlignmentLost l) s0 (
    let d := s0.dev
    if (d.link l).st = .up then d.linkTo_ l .retraining else d))
  ∧ (∀ (l : Nat) (s0 : State), Gives (.linkRetrainTimeout l) s0 (
    let d := s0.dev
    let x := d.link l
    if x.st = .retraining && decide (x.since + 100000000 ≤ d.up) then (d.linkTo_ l .down).report 0x51 (linkLoc l) else d))
  ∧ (∀ (l : Nat) (s0 : State), Gives (.linkDownExpiry l) s0 (
    let d := s0.dev
    let x := d.link l
    if x.st = .down && decide (x.since + 10000000 ≤ d.up) then d.linkTo_ l .training else d))
  ∧ Writes .deviceIdWrite .deviceId (fun _ r d e => e =
    let v := reqValue r
    if (List.range d.nLinks).any (fun l => (d.link l).st != .disabled) then d
    else d.setObj 0x8100 1 (if bit v 15 then 0x8000 else v % 4096))

/-- Words on the links (R343–R350) and frames at the Ethernet ports (R351–R353): what each command does, in every state.
ETH_FRAME_RECEIVE: a frame without its check sequence, 64 to 9,216 octets with it. ETH_SPLIT: on even logical ports only.
LINK_WORD_RECEIVE. The word takes the local epoch of its channel (R333). LINK_CREDIT_WORD. LINK_RETRY_REQUEST: everything
before `SEQ` `q` is acknowledged and the rest sent again in order. LINK_TOKEN_SEND. PROXY_ADMISSION: the oldest token to a
link entry node is decided; those of its triple that wait follow it. -/
def Obligations.LinkWordCommands : Prop :=
  (∀ (e : Nat) (f : List Byte) (s0 : State), Gives (.ethFrameReceive e f) s0 (
    let d := s0.dev
    if !d.ethRuns e then d
    else if f.length < 60 || 9212 < f.length || !d.macFor e f then d.ethDrop e
    else if beAt f 12 2 = 0x8808 then d.macControl e (f.drop 14)
    else match d.untag e f with
      | none => d.ethDrop e
      | some (t, p) =>
        if t = 0x0806 then d.arp e p
        else if t = 0x88F7 then d.ptpFrame e 0 p
        else if t = 0x0800 then d.ip4 e p
        else if t = 0x86DD then d.ip6 e (cutAt f 6 6) p
        else d.ethDrop e))
  ∧ Writes .ethSplit .ethSplit (fun _ r d e => e =
    let e := r.idx % 256
    let v := reqValue r
    if e % 2 = 0 then (d.setObj (0x8200 + e) 1 v).splitSettle else d)
  ∧ (∀ (l : Nat) (i : WordIn) (s0 : State), Gives (.linkWordReceive l i) s0 (
    let d := s0.dev
    if (d.link l).st ≠ .up then d
    else
      let (m, b, d) := d.takeInj 0x0A (linkLoc l)
      let w : LWord := ⟨mkFlit i.hdr i.pl, i.ddev % 4096, i.odev % 4096, i.hops % 256, seq12 i.seq, some l, d.tai⟩
      if i.fec || i.crc ≠ linkCrc w.body || m = 1 || m = 2 then d.askRetry l
      else if w.seq ≠ (d.link l).seqRx then if (d.link l).awaiting then d else d.askRetry l
      else
        let w := d.atEpoch (if m = 3 then flipLink w b else w)
        let d := d.modLink l Link.take
        let d :=
          if w.hops = 31 then (((d.freeWord w).bump (lidx l) 6).report 0x52 (linkLoc l)).quiesce (tCtx w.flit.pl)
          else if d.devRoute w = 8 then d.wordGo w
          else d.wordGo { w with hops := w.hops + 1 }
        d.modLink l Link.returnCredits))
  ∧ (∀ (l : Nat) (returns : List Nat) (q : Nat) (s0 : State), Gives (.linkCreditWord l returns q) s0 (
    let d := s0.dev
    if (d.link l).st ≠ .up then d
    else d.modLink l (fun x => { x with
      credits := addCredits x.credits returns, replay := x.replay.filter (fun w => !ackedBy (seq12 q) w) })))
  ∧ (∀ (l q : Nat) (s0 : State), Gives (.linkRetryRequest l q) s0 (
    let d := s0.dev
    if (d.link l).st ≠ .up then d
    else
      let d := d.modLink l (fun x =>
        let rest := x.replay.filter (fun w => !ackedBy (seq12 (q + 4095)) w)
        { x with replay := rest, sent := x.sent ++ rest.map (fun w => withCrc w.body) })
      d.retryNote l))
  ∧ (∀ (l : Nat) (s0 : State), Gives (.linkTokenSend l) s0 (
    let d := s0.dev
    d.agentStep.transmit l))
  ∧ (∀ (s0 : State), Gives .proxyAdmission s0 (
    let d := s0.dev
    match d.lnk.decide_ with
    | [] => d
    | x :: rest =>
      if d.paceDue || d.signalNext then d
      else
        let d := d.drainTick
        let more := d.lnk.hold.filter (LTok.same x)
        let d := d.modLnk (fun y => { y with decide_ := rest, hold := y.hold.filter (fun z => !z.same x) })
        match d.linkMatch x.odev with
        | none => (x :: more).foldl (fun d _ => d.orphanToken) d
        | some i => d.proxyDecide x i more))

/-- Performance counters (R408–R418): what each command does, in every state. DUMP_TICK: at a whole multiple of the period.
CNT_CONFIG: a word that R410 refuses is ignored as a whole; the reserved bits read as written 0. CNT_VALUE_WRITE (R419): A
value write: `COUNT` set, `WRAP` cleared. OVF_POP: 1 removes the head entry. -/
def Obligations.CounterCommands : Prop :=
  (∀ (s0 : State), Gives .dumpTick s0 (
    let d := s0.dev
    if d.obj 0xA000 1 = 0 || d.dumpSlot = d.perf.lastDump || d.pwr.phase != .running then d
    else
      let d := { d with perf := { d.perf with lastDump := d.dumpSlot } }
      if d.up < d.perf.dumpBusy then ({ d with perf := { d.perf with skipped := true } }).bump 0xA000 7 else d.dump))
  ∧ Writes .cntConfig .cntConfig (fun _ r d e => e =
    let b := r.idx % 256
    let k := r.sub - 0x0A
    let v := reqValue r
    let e := bits v 50 44
    if !d.eventOf b e || (bit v 54 && !evIsCond e) || !d.filterOk e (bits v 43 32) then d
    else d.setCtr b k ⟨v / 2 ^ 32 * 2 ^ 32, 0, false, false⟩)
  ∧ Writes .cntValueWrite .cntValue (fun _ r d e => e =
    let b := r.idx % 256
    let k := r.sub - 2
    let v := reqValue r
    d.setCtr b k { d.ctr b k with count := v % 2 ^ 48, wrap := false })
  ∧ Writes .ovfPop .ovfPop (fun _ r d e => e =
    let v := reqValue r
    if v = 1 then { d with perf := { d.perf with ovfQ := d.perf.ovfQ.drop 1 } } else d)

/-- The fault unit (R388–R395): what each command does, in every state. FAULT_EVENT: the oldest condition reported is handled.
GRACE_EXPIRY of a source: the deadbolt is taken; action 4 resets at once. RELATCH_EXPIRY (R395). FAULT_ACK of history entry
`i` (R394, R398). FAULT_CLEAR of a source (R395). FAULT_SUBWINDOW_TICK: an eighth of the window of a source has passed.
HISTORY_CLOSE_EXPIRY: an entry that holds only corrected events closes (R396). DEADBOLT_CORE_RESET: under action 3,
`CTX_ACTIVE` has reached 0. -/
def Obligations.FaultCommands : Prop :=
  (∀ (s0 : State), Gives .faultEvent s0 (
    let d := s0.dev
    match d.flt.queue with
    | [] => d
    | ev :: r =>
      let d := { d with flt := { d.flt with queue := r } }
      let (s, loc) := (ev.src, ev.loc)
      let d := (d.modSrc s (fun x => x.count s loc)).bump (0x9100 + s) 1
      let x := d.src s
      let cls := d.classOf s (lsum x.subs)
      let d := (d.record s cls loc).modSrc s (fun x => x.on s cls loc d.graceEnd d.up)
      let d := if cls = 0 then d else d.contain s loc
      let d := if cls = 0 || s = 1 then d else d.announce s cls
      if perLoc s && loc / 2 ^ 28 = 1 && reaches (lsum (tget [] x.locs loc)) (d.obj (0x9100 + s) 4) then
        d.failCluster (loc % 2 ^ 28 - 1)
      else d))
  ∧ (∀ (n : Nat) (s0 : State), Gives (.graceExpiry n) s0 (
    let d := s0.dev
    let s := n
    if (d.src s).boltDue d.up then
      let d := d.deadboltOf s
      if (d.src s).action = 4 then (d.sysReset (if s = 0x71 then 7 else 6)).leaveReset else d
    else d))
  ∧ (∀ (n : Nat) (s0 : State), Gives (.relatchExpiry n) s0 (
    let d := s0.dev
    let s := n
    let x := d.src s
    if s ≠ 1 && x.st ≠ .idle && x.cls = 1 && decide (x.quiet + d.obj 0x9000 3 * 1000 ≤ d.up) then
      (d.setObj (0x9100 + s) 7 (min 0xFFFF (d.obj (0x9100 + s) 7 + 1))).toIdle s
    else d))
  ∧ Writes .faultAck .faultAck (fun _ r d e => e =
    let i := reqValue r
    match d.flt.hist[i]? with
    | some e =>
      if e.estate ≠ 1 then d
      else
        let x := d.src e.src
        let mark (d : Dev) : Dev := { d with flt := { d.flt with hist := lset d.flt.hist i { e with acked := true } } }
        match x.st with
        | .opened => mark (d.modSrc e.src (fun x => { x with st := .acked, grace := if x.cls = 1 then none else x.grace }))
        | .deadbolted => mark d
        | _ => d
    | none => d)
  ∧ Writes .faultClear .faultClear (fun _ r d e => e =
    let s := reqValue r
    let x := d.src s
    if !srcDefined s || x.st = .idle || (x.cls = 2 && x.st ≠ .deadbolted) then d else d.toIdle s)
  ∧ (∀ (n : Nat) (s0 : State), Gives (.faultSubwindowTick n) s0 (
    let d := s0.dev
    let s := n
    let w := d.obj (0x9100 + s) 5 * 125
    if srcDefined s && decide ((d.src s).tick + w ≤ d.up) then
      d.modSrc s (fun x => { x with
        tick := x.tick + w, subs := shiftSub x.subs, locs := x.locs.map (fun e => (e.1, shiftSub e.2)) })
    else d))
  ∧ (∀ (i : Nat) (s0 : State), Gives (.historyCloseExpiry i) s0 (
    let d := s0.dev
    match d.flt.hist[i]? with
    | some e =>
      if e.estate = 1 && e.cls = 0 && decide (e.lastUp + d.obj 0x9000 3 * 1000 ≤ d.up) then
        { d with flt := { d.flt with hist := lset d.flt.hist i { e with estate := 2 } } }
      else d
    | none => d))
  ∧ (∀ (s0 : State), Gives .deadboltCoreReset s0 (
    let d := s0.dev
    if d.flt.resetPending && d.ctxActive == 0 && d.pwr.cr == .idle && d.pwr.phase == .running then d.coreStart 9 else d))

/-- Cluster failure, takeover and the roll test (R396–R401): what each command does, in every state. CLUSTER_FAILURE: of the
cluster, or of the position's router, which is source 0x1E. TAKEOVER_CODE_LOADED: the spare's code cache holds the lines of
the failed position. TAKEOVER_COMPLETE: the swap is Idle, the code is loaded, the walks are done. ROLL_TEST_START (R403): a
test that is due begins; the position under test gives its logical cluster to a spare. ROLL_TEST_DONE: steps 4 and 5 of R403,
once the swap to the spare is done. -/
def Obligations.SpareCommands : Prop :=
  (∀ (p : Nat) (router : Bool) (s0 : State), Gives (.clusterFailure p router) s0 (
    let d := s0.dev
    if router then d.report 0x1E (posLoc p) else d.failCluster p))
  ∧ (∀ (s0 : State), Gives .takeoverCodeLoaded s0 (
    let d := s0.dev
    match d.pwr.take with
    | some (_, p, s, _) =>
      if d.pwr.takeStep ≠ 0 then d
      else
        let c := (d.pos p).code
        let d := d.modPos s (fun x => { x with code := x.code ++ c.filter (fun a => !x.code.contains a) })
        let d := d.modPos p (fun x => { x with code := [], badCode := [] })
        { d with pwr := { d.pwr with takeStep := 1 } }
    | none => d))
  ∧ (∀ (s0 : State), Gives .takeoverComplete s0 (
    let d := s0.dev
    match d.pwr.take with
    | some (_, _, s, t) =>
      if d.pwr.takeStep = 1 && d.fab.noc.swap = .idle && !d.fab.noc.domains.any (fun x => x.positions.contains s) then
        let d := (d.modPos s (fun x => { x with isolated := false })).bump 0x9200 1
        let d := d.setObj 0x9200 6 (min (2 ^ 32 - 1) (d.up - t))
        ({ d with pwr := { d.pwr with take := none, takeStep := 0 } }).nextTakeover
      else d
    | none => d))
  ∧ (∀ (s0 : State), Gives .rollTestStart s0 (
    let d := s0.dev
    match d.pwr.roll, d.pwr.rollTo with
    | none, _ => d.rollBegin
    | some (p, _), none => d.rollMove p
    | _, _ => d))
  ∧ (∀ (pass : Bool) (s0 : State), Gives (.rollTestDone pass) s0 (
    let d := s0.dev
    match d.pwr.roll, d.pwr.rollTo with
    | some (p, _), some _ => if d.fab.noc.swap ≠ .idle || !d.fab.noc.domains.isEmpty then d else (d.rollResult p pass).rollEnd
    | _, _ => d))

/-- Built-in self-test, injection (R402–R406) and the test access port (R450–R455): what each command does, in every state.
BIST_CMD: a full test of a die (R404). BIST_DONE: the positions of the die, by number, that failed. INJ_ARM. TAP_TCK_EDGE,
while the main rails are up. TRST_N_ASSERT. -/
def Obligations.TestCommands : Prop :=
  Writes .bistCmd .bistCmd (fun _ r d e => e =
    let die := reqValue r
    if d.dies ≤ die || d.pwr.bist.isSome then d
    else if d.ctxActive ≠ 0 || d.flag 0x3000 1 then d.setObj 0x9220 2 3
    else ({ d with pwr := { d.pwr with bist := some die } }).setObj 0x9220 2 1)
  ∧ (∀ (failed : List Nat) (s0 : State), Gives (.bistDone failed) s0 (
    let d := s0.dev
    match d.pwr.bist with
    | none => d
    | some die =>
      let fs := (upFrom (die * 34) 34).filter (fun p => failed.contains (p % 34) && (d.pos p).st != .failed)
      let d := fs.foldl (fun d p => ((d.modPos p Pos.fail).report 0x1C (posLoc p)).mapRepair p) d
      ({ d with pwr := { d.pwr with bist := none } }).setObj 0x9220 2 (if fs.isEmpty then 2 else 4)))
  ∧ Writes .injArm .injArm (fun _ r d e => e =
    let v := reqValue r
    let c := d.obj 0x9300 1
    let m := d.obj 0x9300 2
    if v ≠ 1 || d.flt.injLeft ≠ 0 || m = 0 || 3 < m || c = 0 || 0x0B < c then d
    else
      let d := { d with flt := { d.flt with
        injLeft := d.obj 0x9300 4, inj := (c, m, d.obj 0x9300 3, d.obj 0x9300 5) } }
      d.wardLog logInject (BitVec.ofNat 8 c :: BitVec.ofNat 8 m :: leOctets 2 (d.obj 0x9300 3) ++ leOctets 2 (d.obj 0x9300 4) ++ leOctets 4 (d.obj 0x9300 5)))
  ∧ (∀ (rising tms tdi : Bool) (pins : List Bool) (s0 : State), Gives (.tapTckEdge rising tms tdi pins) s0 (
    let d := s0.dev
    if !d.mainUp then d else if rising then d.tapRise tms tdi pins else d.tapFall))
  ∧ (∀ (s0 : State), Gives .trstNAssert s0 (
    let d := s0.dev
    d.modPwr (fun w => { w with tap := .reset, ir := tapIdcode, tdo := none })))

/-- Power rails, clocks and their loss (R430–R435): what each command does, in every state. AUX_POWER_LOSS: the ward's memory,
the mesh and the ring go too; the seal store keeps firmware, images of it, the object store, secrets, log and wear.
AUX_POWER_GOOD: step 1. The mask ROM boots the ward. MAIN_POWER_LOSS of a main rail. MAIN_POWER_GOOD: step 2; step 3 follows
where `RESET_N` is high. RAIL_OUT_OF_RANGE: for 10 µs. PLL_LOCK of a block in wait-lock. PLL_LOCK_LOST of a running block:
the timebase follows R311. THERMAL_TRIP: a comparator finds a sensor at 105 °C. -/
def Obligations.PowerCommands : Prop :=
  (∀ (s0 : State), Gives .auxPowerLoss s0 (
    let d := s0.dev
    if d.pwr.phase = .auxOff then d
    else
      let d := if d.mainUp then d.losePower keptAux else d.keepObjs keptAux
      let w := d.wardForget.wrd
      let d := { d with
        rng := rngInit, cry := { d.cry with meshFail := 0, mesh := 0 },
        wrd := { wrdInit with
          fwA := w.fwA, fwB := w.fwB, fwActive := w.fwActive, trialAt := w.trialAt, rollback := w.rollback, fwVer := w.fwVer,
          stores := w.stores, storeCur := w.storeCur, secrets := w.secrets, kSet := w.kSet, log := w.log, logCount := w.logCount,
          sealMem := w.sealMem } }
      (d.modPwr (fun p => { p with phase := .auxOff, tripLow := false, above := List.replicate 5 false })).tripCause))
  ∧ (∀ (s0 : State), Gives .auxPowerGood s0 (
    let d := s0.dev
    if d.pwr.phase ≠ .auxOff then d
    else
      let d := (d.modPwr (fun w => { w with phase := .mainOff, sampleAt := d.up })).modWrd (fun w => { w with up := true })
      d.tripCheck.trialRestart.wardBoot))
  ∧ (∀ (r : Rail) (s0 : State), Gives (.mainPowerLoss r) s0 (
    let d := s0.dev
    if r = .aux then d
    else
      let d := d.modPwr (fun w => { w with mainOk := lset w.mainOk (Rail.num r) false })
      if !d.mainUp then d
      else
        let d := d.losePower keptMain
        let d := d.modWrd (fun w => { w.closePcie with storeBusy := 0 })
        let d := (d.modPwr (fun w => { w with phase := .mainOff })).resetCause 2
        d.tripCause.wardLog logMain (leOctets 2 (d.obj 0xB000 1))))
  ∧ (∀ (s0 : State), Gives .mainPowerGood s0 (
    let d := s0.dev
    if d.pwr.phase ≠ .mainOff then d
    else
      (d.modPwr (fun w => { w with
        phase := .sysReset, mainOk := allRails true, accrAt := d.up, govAt := d.up, pollAt := d.up, avsSince := d.up })).tripCheck.leaveReset))
  ∧ (∀ (r : Rail) (s0 : State), Gives (.railOutOfRange r) s0 (
    let d := s0.dev
    d.powerFault 0x72 (0x10 + Rail.num r)))
  ∧ (∀ (b : Nat) (s0 : State), Gives (.pllLock b) s0 (
    let d := s0.dev
    if d.pwr.bs.getD b 0 ≠ 1 then d
    else
      let d := d.modPwr (fun w => { w with bs := lset w.bs b 2 })
      if b = 0 then d.accrue.tbStart else d))
  ∧ (∀ (b : Nat) (s0 : State), Gives (.pllLockLost b) s0 (
    let d := s0.dev
    if d.pwr.bs.getD b 0 ≠ 2 then d
    else if b = 0 then d.refLost
    else
      let d := (d.modPwr (fun w => { w with bs := lset w.bs b 1 })).report 0x74 (blockLoc b)
      if isLinkBlk b then d.linkLost (b - 13) else if isPcie b then d.pcieReset else d))
  ∧ (∀ (s0 : State), Gives .thermalTrip s0 (
    let d := s0.dev
    if !d.wrd.up || d.pwr.tripLow then d
    else ((d.modPwr (fun w => { w with tripLow := true, tripped := true, trips := (w.trips + 1) % 2 ^ 32 })).powerFault 0x71 (d.hottest + 1)).wardLog logSensor
      (BitVec.ofNat 8 (d.hottest + 1) :: leOctets 5 105000)))

/-- Resets (R420–R427): what each command does, in every state. RESET_N_ASSERT after a low time; between 450 ns and 550 ns either
may happen (R449). RESET_N_RELEASE. POWERON_INIT_DONE: the HBM PHYs run; structures initialised, positions assigned, the
stored set restored if `RESTORE_AT_RESET` is true. SYS_RESET_CMD (R426). CORE_RESET_CMD. CORE_RESET_WALK_DONE: every context
is answered; the records of purges whose reclamation is left out are appended, the hasp unit acts, the fabric is held in
reset (step 3). CORE_RESET_REINIT_DONE: step 4 is done; step 5 follows, unless `SR_FABRIC` holds the fabric. -/
def Obligations.ResetCommands : Prop :=
  (∀ (lowNs : Nat) (s0 : State), Gives (.resetNAssert lowNs) s0 (
    let d := s0.dev
    let (z, d) := d.drawNat 2
    if lowNs < 450 || (lowNs < 550 && z = 0) then d
    else
      let d := d.modPwr (fun w => { w with resetN := false })
      if d.mainUp then d.sysReset 4 else if d.wrd.up then d.resetCause 4 else d))
  ∧ (∀ (s0 : State), Gives .resetNRelease s0 (
    let d := s0.dev
    (d.modPwr (fun w => { w with resetN := true })).leaveReset))
  ∧ (∀ (s0 : State), Gives .poweronInitDone s0 (
    let d := s0.dev
    if d.pwr.phase ≠ .init || !d.hbmUp then d
    else
      let d := if d.pwr.firstInit then { d with fab := { d.fab with gens := [] }, mem := { d.mem with present := [] } } else d
      let d := (d.poolStates.assign.loadRoutes).modPwr (fun w => { w with phase := .running, firstInit := false })
      if d.flag 0x1010 3 && d.wrd.state = 0 && d.wrd.store.isSome then d.restoreAsk 0xFF 0 else d))
  ∧ Writes .sysResetCmd .sysReset (fun _ r d e => e =
    if reqValue r = 1 then d.askReset else d)
  ∧ Writes .coreResetCmd .coreReset (fun _ r d e => e =
    let v := reqValue r
    if v ≠ 1 || d.pwr.phase ≠ .running then d else if d.coreBusy then d.bump 0xB001 3 else d.coreStart 8)
  ∧ (∀ (s0 : State), Gives .coreResetWalkDone s0 (
    let d := s0.dev
    if d.pwr.cr ≠ .walking || d.ctxActive ≠ 0 then d
    else
      let d := d.key.reclaim.foldl (fun d (x : Reclaim) => x.late.foldl Dev.journalPut (d.journalPut x.jrec)) { d with key := { d.key with reclaim := [] } }
      let d := d.haspOrphanAll.logOrphans
      let d := ({ d with
        mem := { d.mem with defers := [], sweep := 0 }, cry := { d.cry with slots := [], tq := [], lq := [] } }).endDeletes
      ((d.clearFabric d.fab.noc.place).clearDieCounters).modPwr (fun w => { w with cr := .reinit })))
  ∧ (∀ (s0 : State), Gives .coreResetReinitDone s0 (
    let d := s0.dev
    if d.pwr.cr ≠ .reinit then d
    else
      let d := ({ d with key := { d.key with freshCtx := 0, freeTail := [] } }).poolStates
      if d.held 0 then d.modPwr (fun w => { w with cr := .held }) else d.coreRelease))

/-- `SOFT_RESET` (R427): a write belongs to the row of the highest bit that it changes, and every bit that changes acts, highest
first; SR_KEYWAY is left as it is while contexts are Active. The rows SR_FABRIC, SR_KEYWAY, SR_HASP, SR_ETH, SR_LINKS,
SR_PCIE, SR_CRYPTO and SR_RING, as the ward applies them; FULL_SOFT_RESET (R428), a write of all ones, asks for a system
reset. -/
def Obligations.SoftResetCommands : Prop :=
  Writes .srFabric (.sr 0) (fun _ r d e => e =
    let v := reqValue r
    let old := d.obj 0xB002 1
    let v := if bit v 1 && !bit old 1 && d.ctxActive != 0 then v - 2 else v
    let d := d.setObj 0xB002 1 v
    if d.pwr.phase ≠ .running then d
    else (srChanged old v).foldl (fun d b => if bit v b then d.softSet b else d.softClear b) d)
  ∧ Writes .srKeyway (.sr 1) (fun _ r d e => e =
    let v := reqValue r
    let old := d.obj 0xB002 1
    let v := if bit v 1 && !bit old 1 && d.ctxActive != 0 then v - 2 else v
    let d := d.setObj 0xB002 1 v
    if d.pwr.phase ≠ .running then d
    else (srChanged old v).foldl (fun d b => if bit v b then d.softSet b else d.softClear b) d)
  ∧ Writes .srHasp (.sr 2) (fun _ r d e => e =
    let v := reqValue r
    let old := d.obj 0xB002 1
    let v := if bit v 1 && !bit old 1 && d.ctxActive != 0 then v - 2 else v
    let d := d.setObj 0xB002 1 v
    if d.pwr.phase ≠ .running then d
    else (srChanged old v).foldl (fun d b => if bit v b then d.softSet b else d.softClear b) d)
  ∧ Writes .srEth (.sr 3) (fun _ r d e => e =
    let v := reqValue r
    let old := d.obj 0xB002 1
    let v := if bit v 1 && !bit old 1 && d.ctxActive != 0 then v - 2 else v
    let d := d.setObj 0xB002 1 v
    if d.pwr.phase ≠ .running then d
    else (srChanged old v).foldl (fun d b => if bit v b then d.softSet b else d.softClear b) d)
  ∧ Writes .srLinks (.sr 4) (fun _ r d e => e =
    let v := reqValue r
    let old := d.obj 0xB002 1
    let v := if bit v 1 && !bit old 1 && d.ctxActive != 0 then v - 2 else v
    let d := d.setObj 0xB002 1 v
    if d.pwr.phase ≠ .running then d
    else (srChanged old v).foldl (fun d b => if bit v b then d.softSet b else d.softClear b) d)
  ∧ Writes .srPcie (.sr 5) (fun _ r d e => e =
    let v := reqValue r
    let old := d.obj 0xB002 1
    let v := if bit v 1 && !bit old 1 && d.ctxActive != 0 then v - 2 else v
    let d := d.setObj 0xB002 1 v
    if d.pwr.phase ≠ .running then d
    else (srChanged old v).foldl (fun d b => if bit v b then d.softSet b else d.softClear b) d)
  ∧ Writes .srCrypto (.sr 6) (fun _ r d e => e =
    let v := reqValue r
    let old := d.obj 0xB002 1
    let v := if bit v 1 && !bit old 1 && d.ctxActive != 0 then v - 2 else v
    let d := d.setObj 0xB002 1 v
    if d.pwr.phase ≠ .running then d
    else (srChanged old v).foldl (fun d b => if bit v b then d.softSet b else d.softClear b) d)
  ∧ Writes .srRing (.sr 7) (fun _ r d e => e =
    let v := reqValue r
    let old := d.obj 0xB002 1
    let v := if bit v 1 && !bit old 1 && d.ctxActive != 0 then v - 2 else v
    let d := d.setObj 0xB002 1 v
    if d.pwr.phase ≠ .running then d
    else (srChanged old v).foldl (fun d b => if bit v b then d.softSet b else d.softClear b) d)
  ∧ Writes .fullSoftReset .fullSoft (fun _ _ d e => e =
    if d.refusesReset then d.bump 0xB001 3 else (d.closeEpoch.sysReset 5).leaveReset)

/-- The governor, boost and HBM calibration (R436–R446): what each command does, in every state. GOVERNOR_TICK: every 10 µs.
AVS_STATUS_POLL: every 100 µs. BOOST_ENABLE written. BOOST_CHARGE_TICK: every 10 s of boost. A balance that cannot pay the
next 10 s has reached zero. HBM_PERIODIC_CALIBRATION. -/
def Obligations.GovernorCommands : Prop :=
  (∀ (s0 : State), Gives .governorTick s0 (
    let d := s0.dev
    if !d.mainUp || d.up < d.pwr.govAt + 10000 then d
    else
      let d := (d.modPwr (fun w => { w with govAt := d.up })).boostTry
      match d.inService.map (fun e => e.2.pace) with
      | [] => d
      | p :: ps =>
        let m := ps.foldl min p
        let target := d.obj 0xB010 1
        let v := d.pwr.setMv
        let n := govStep d.pwr.boosting target m v
        let d := if !d.pwr.boosting && v == 800 && m < target then d.bump 0xB010 4 else d
        d.modPwr (fun w => { w with minPace := m, setMv := n, avsOut := if n = v then w.avsOut else w.avsOut ++ [n] })))
  ∧ (∀ (answered fault : Bool) (s0 : State), Gives (.avsStatusPoll answered fault) s0 (
    let d := s0.dev
    if !d.mainUp || d.up < d.pwr.pollAt + 100000 then d
    else
      let d := d.modPwr (fun w => { w with pollAt := d.up })
      if answered then
        let d := d.modPwr (fun w => { w with avsSince := d.up })
        if fault then d.powerFault 0x72 0x10 else d
      else if d.pwr.avsSince + 1000000 ≤ d.up then (d.modPwr (fun w => { w with avsSince := d.up })).powerFault 0x72 0x10
      else d))
  ∧ Writes .boostEnable .boost (fun _ r d e => e =
    let v := reqValue r
    if v = 0 then d.boostEnd else if d.flag 0xB011 1 || d.hot then d else (d.setObj 0xB011 1 1).boostTry)
  ∧ (∀ (s0 : State), Gives .boostChargeTick s0 (
    let d := s0.dev
    if !d.pwr.boosting || d.up < d.pwr.chargeAt + boostNs then d
    else
      let d := (d.modPwr (fun w => { w with usedMs := w.usedMs + boostCharge, chargeAt := w.chargeAt + boostNs })).accrue
      if boostCharge ≤ d.pwr.balance then d.modPwr (fun w => { w with balance := w.balance - boostCharge })
      else ((d.modPwr (fun w => { w with boosting := false })).setObj 0xB011 1 0).report 0x73 0))
  ∧ (∀ (stack : Nat) (s0 : State), Gives (.hbmPeriodicCalibration stack) s0 (
    let d := s0.dev
    if d.pwr.bs.getD (stack + 1) 0 = 2 && decide (stack < d.xs 8 2) then d.bump 0x6011 1 else d))
end

