-- ==== Sys2Proof/Laws/Tab.lean ====
section
/-! SUPPORT. Laws of the sparse tables and byte memories: a read after a write gives the value written, a write leaves every
other key alone, and every memory operation keeps the canonical form. -/

namespace Sys2Proof.Machine

variable {α : Type}

@[simp] theorem tget?_nil (k : Nat) : tget? ([] : Tab α) k = none := rfl

theorem tget?_cons (j k : Nat) (v : α) (r : Tab α) :
    tget? ((j, v) :: r) k = if j = k then some v else tget? r k := by
  by_cases h : j = k <;> simp [tget?, h]

@[simp] theorem tget?_tset_same (t : Tab α) (k : Nat) (v : α) : tget? (tset t k v) k = some v := by
  induction t with
  | nil => simp [tset, tget?_cons]
  | cons e r ih =>
    obtain ⟨j, w⟩ := e
    by_cases h : k < j
    · simp [tset, h, tget?_cons]
    · by_cases h2 : k = j
      · simp [tset, h2, tget?_cons]
      · simp [tset, h, h2, tget?_cons, ih, Ne.symm h2]

theorem tget?_tset_ne (t : Tab α) {k j : Nat} (v : α) (h : j ≠ k) : tget? (tset t k v) j = tget? t j := by
  induction t with
  | nil => simp [tset, tget?_cons, Ne.symm h]
  | cons e r ih =>
    obtain ⟨i, w⟩ := e
    by_cases h1 : k < i
    · simp [tset, h1, tget?_cons, Ne.symm h]
    · by_cases h2 : k = i
      · subst h2; simp [tset, tget?_cons, Ne.symm h]
      · simp [tset, h1, h2, tget?_cons, ih]

@[simp] theorem tget_tset_same (d : α) (t : Tab α) (k : Nat) (v : α) : tget d (tset t k v) k = v := by simp [tget]

theorem tget_tset_ne (d : α) (t : Tab α) {k j : Nat} (v : α) (h : j ≠ k) : tget d (tset t k v) j = tget d t j := by
  simp [tget, tget?_tset_ne t v h]

@[simp] theorem tget_tmod_same (d : α) (t : Tab α) (k : Nat) (f : α → α) : tget d (tmod d t k f) k = f (tget d t k) := by
  simp [tmod]

theorem tget_tmod_ne (d : α) (t : Tab α) {k j : Nat} (f : α → α) (h : j ≠ k) : tget d (tmod d t k f) j = tget d t j :=
  tget_tset_ne d t _ h

@[simp] theorem tget?_terase_same (t : Tab α) (k : Nat) : tget? (terase t k) k = none := by
  induction t with
  | nil => rfl
  | cons e r ih =>
    obtain ⟨j, w⟩ := e
    by_cases h : j = k
    · simpa [terase, h] using ih
    · simpa [terase, h, tget?_cons] using ih

theorem tget?_terase_ne (t : Tab α) {k j : Nat} (h : j ≠ k) : tget? (terase t k) j = tget? t j := by
  induction t with
  | nil => rfl
  | cons e r ih =>
    obtain ⟨i, w⟩ := e
    by_cases h1 : i = k
    · subst h1; simpa [terase, tget?_cons, Ne.symm h] using ih
    · simp only [terase] at ih; simp [terase, h1, tget?_cons, ih]

@[simp] theorem tget_tput_same [DecidableEq α] (d : α) (t : Tab α) (k : Nat) (v : α) : tget d (tput d t k v) k = v := by
  by_cases h : v = d <;> simp [tput, h, tget]

theorem tget_tput_ne [DecidableEq α] (d : α) (t : Tab α) {k j : Nat} (v : α) (h : j ≠ k) :
    tget d (tput d t k v) j = tget d t j := by
  by_cases h1 : v = d <;> simp [tput, h1, tget, tget?_terase_ne t h, tget?_tset_ne t v h]

/-! ### Byte memories -/

@[simp] theorem memByte_memPut_same (m : List (Nat × Byte)) (a : Nat) (b : Byte) : memByte (memPut m a b) a = b :=
  tget_tput_same _ _ _ _

theorem memByte_memPut_ne (m : List (Nat × Byte)) {a c : Nat} (b : Byte) (h : c ≠ a) :
    memByte (memPut m a b) c = memByte m c := tget_tput_ne _ _ _ h

/-- An octet outside the octets written reads as before. -/
theorem memByte_memWrite_out (l : List Byte) : ∀ (m : List (Nat × Byte)) (a c : Nat), (c < a ∨ a + l.length ≤ c) →
    memByte (memWrite m a l) c = memByte m c := by
  induction l with
  | nil => intros; rfl
  | cons b r ih =>
    intro m a c h
    simp only [List.length_cons] at h
    rw [memWrite, ih _ _ _ (by omega), memByte_memPut_ne _ _ (by omega)]

/-- An octet written reads as written. -/
theorem memByte_memWrite_in (l : List Byte) : ∀ (m : List (Nat × Byte)) (a i : Nat) (h : i < l.length),
    memByte (memWrite m a l) (a + i) = l[i] := by
  induction l with
  | nil => intro _ _ _ h; simp at h
  | cons b r ih =>
    intro m a i h
    cases i with
    | zero => rw [memWrite, memByte_memWrite_out _ _ _ _ (by omega)]; simp
    | succ n =>
      rw [memWrite, show a + (n + 1) = (a + 1) + n by omega, ih _ _ _ (by simpa using h)]; simp

/-- Every octet of an address list is above `a`. -/
def above (a : Nat) (m : List (Nat × Byte)) : Prop := ∀ e ∈ m, a < e.1

theorem memWf_cons {a : Nat} {v : Byte} {m : List (Nat × Byte)} :
    memWf ((a, v) :: m) = true ↔ v ≠ unwritten ∧ above a m ∧ memWf m = true := by
  induction m generalizing a v with
  | nil => simp [memWf, above]
  | cons e r ih =>
    obtain ⟨b, w⟩ := e
    simp only [memWf, Bool.and_eq_true, bne_iff_ne, decide_eq_true_eq, and_assoc]
    constructor
    · rintro ⟨h1, h2, h3⟩
      refine ⟨h1, ?_, h3⟩
      intro x hx
      rcases List.mem_cons.1 hx with rfl | hx
      · exact h2
      · have := (ih.1 h3).2.1 x hx; exact Nat.lt_trans h2 this
    · rintro ⟨h1, h2, h3⟩
      exact ⟨h1, h2 (b, w) (by simp), h3⟩

theorem mem_tset (m : Tab α) (k : Nat) (v : α) (e : Nat × α) (h : e ∈ tset m k v) : e = (k, v) ∨ e ∈ m := by
  induction m with
  | nil => exact .inl (by simpa [tset] using h)
  | cons x r ih =>
    obtain ⟨j, w⟩ := x
    by_cases h1 : k < j
    · simp only [tset, h1, if_true, List.mem_cons] at h
      rcases h with h | h | h <;> simp [h]
    · by_cases h2 : k = j
      · subst h2
        simp only [tset, h1, if_false, if_true, List.mem_cons] at h
        rcases h with h | h <;> simp [h]
      · simp only [tset, h1, h2, if_false, List.mem_cons] at h
        rcases h with h | h
        · simp [h]
        · rcases ih h with h | h <;> simp [h]

theorem memWf_tset (m : List (Nat × Byte)) (a : Nat) (b : Byte) (hb : b ≠ unwritten) (h : memWf m = true) :
    memWf (tset m a b) = true := by
  induction m with
  | nil => simpa [tset, memWf] using hb
  | cons x r ih =>
    obtain ⟨j, w⟩ := x
    obtain ⟨hw, hj, hr⟩ := memWf_cons.1 h
    by_cases h1 : a < j
    · simp only [tset, h1, if_true]
      refine memWf_cons.2 ⟨hb, ?_, h⟩
      intro e he
      rcases List.mem_cons.1 he with rfl | he
      · exact h1
      · exact Nat.lt_trans h1 (hj e he)
    · by_cases h2 : a = j
      · subst h2
        simp only [tset, h1, if_false, if_true]
        exact memWf_cons.2 ⟨hb, hj, hr⟩
      · simp only [tset, h1, h2, if_false]
        refine memWf_cons.2 ⟨hw, ?_, ih hr⟩
        intro e he
        rcases mem_tset _ _ _ _ he with rfl | he
        · simp; omega
        · exact hj e he

theorem memWf_terase (m : List (Nat × Byte)) (a : Nat) (h : memWf m = true) : memWf (terase m a) = true := by
  induction m with
  | nil => rfl
  | cons x r ih =>
    obtain ⟨j, w⟩ := x
    obtain ⟨hw, hj, hr⟩ := memWf_cons.1 h
    by_cases h1 : j = a
    · simpa [terase, h1] using ih hr
    · have : terase ((j, w) :: r) a = (j, w) :: terase r a := by simp [terase, h1]
      rw [this]
      refine memWf_cons.2 ⟨hw, ?_, ih hr⟩
      intro e he
      exact hj e (List.mem_filter.1 he).1

/-- A byte written keeps the canonical form. -/
theorem memWf_memPut (m : List (Nat × Byte)) (a : Nat) (b : Byte) (h : memWf m = true) : memWf (memPut m a b) = true := by
  by_cases hb : b = unwritten
  · simpa [memPut, tput, hb] using memWf_terase m a h
  · simpa [memPut, tput, hb] using memWf_tset m a b hb h

/-- Octets written keep the canonical form. -/
theorem memWf_memWrite (l : List Byte) : ∀ (m : List (Nat × Byte)) (a : Nat), memWf m = true →
    memWf (memWrite m a l) = true := by
  induction l with
  | nil => intro _ _ h; exact h
  | cons b r ih => intro m a h; exact ih _ _ (memWf_memPut m a b h)

end Sys2Proof.Machine
end

