-- ==== Sys2Proof/Laws/Step.lean ====
section
/-! SUPPORT. What every command and every step has in common: a next state, the queue, the hard-wired fields; and how a
statement about a command comes down to one about its effect on the block. -/

namespace Sys2Proof.Machine

@[simp] theorem fused_part (d w : Dev) : (d.fused w).part = w.part := rfl
@[simp] theorem fused_ident (d w : Dev) : (d.fused w).ident = w.ident := rfl
@[simp] theorem fused_up (d w : Dev) : (d.fused w).up = w.up := rfl
@[simp] theorem fused_tai (d w : Dev) : (d.fused w).tai = d.tai := rfl
@[simp] theorem fused_free (d w : Dev) : (d.fused w).free = d.free := rfl
@[simp] theorem fused_objs (d w : Dev) : (d.fused w).objs = d.objs := rfl
@[simp] theorem fused_fab (d w : Dev) : (d.fused w).fab = d.fab := rfl
@[simp] theorem fused_mem (d w : Dev) : (d.fused w).mem = d.mem := rfl
@[simp] theorem fused_hasp (d w : Dev) : (d.fused w).hasp = d.hasp := rfl
@[simp] theorem fused_key (d w : Dev) : (d.fused w).key = d.key := rfl
@[simp] theorem fused_flt (d w : Dev) : (d.fused w).flt = d.flt := rfl
@[simp] theorem fused_perf (d w : Dev) : (d.fused w).perf = d.perf := rfl
@[simp] theorem fused_ses (d w : Dev) : (d.fused w).ses = d.ses := rfl
@[simp] theorem fused_cry (d w : Dev) : (d.fused w).cry = d.cry := rfl
@[simp] theorem fused_jnl (d w : Dev) : (d.fused w).jnl = d.jnl := rfl
@[simp] theorem fused_tb (d w : Dev) : (d.fused w).tb = d.tb := rfl
@[simp] theorem fused_lnk (d w : Dev) : (d.fused w).lnk = d.lnk := rfl
@[simp] theorem fused_wrd (d w : Dev) : (d.fused w).wrd = d.wrd := rfl
@[simp] theorem fused_rng (d w : Dev) : (d.fused w).rng = d.rng := rfl
@[simp] theorem fused_pwr (d w : Dev) : (d.fused w).pwr = d.pwr := rfl
@[simp] theorem fused_self (d : Dev) : d.fused d = d := rfl

/-- A meaning in its common form gives the next state whose block is its effect, with the hard-wired fields as they were. -/
theorem act_next (s : State) (f : Dev → Dev) : s.act f = .next { s with dev := (f s.dev).fused s.dev } := rfl

/-- Every command gives a next state, and keeps the queue and what is hard-wired. -/
theorem exec_next (c : Instr) (s : State) : ∃ d : Dev, exec c s = .next { s with dev := d.fused s.dev } := by
  cases c <;> exact ⟨_, rfl⟩

/-- A statement about a command is one about its effect. -/
theorem does_act {c : Instr} {s : State} {P : Dev → Prop} {f : Dev → Dev} (h : exec c s = s.act f)
    (hp : P ((f s.dev).fused s.dev)) : Does c s P := ⟨_, h, hp⟩

/-- A statement of the block that a command gives is one about its effect. -/
theorem becomes_act {c : Instr} {s : State} {f : Dev → Dev} {d : Dev} (h : exec c s = s.act f)
    (hd : (f s.dev).fused s.dev = d) : Becomes c s d := by subst hd; exact h

/-- A statement of the block that a command gives is one about its effect. -/
theorem gives_act {c : Instr} {s : State} {f : Dev → Dev} {d : Dev} (h : exec c s = s.act f) (hd : f s.dev = d) :
    Gives c s d := by subst hd; exact h

/-- A step on a waiting command is that command on the queue's rest. -/
theorem step_cons (c : Instr) (r : List Instr) (d : Dev) : step ⟨d, c :: r⟩ = exec c ⟨d, r⟩ := rfl

/-- A step on an empty queue is a nanosecond. -/
theorem step_nil (d : Dev) : step ⟨d, []⟩ = .next (idle ⟨d, []⟩) := rfl

end Sys2Proof.Machine
end

