-- ==== Sys2Proof/Laws/Dispatch.lean ====
section
/-! SUPPORT. Each command as its effect on the block: one lemma per constructor, true by definition. -/

namespace Sys2Proof.Machine

theorem exec_tlsRecordReceive (ses wire : Nat) (rec : TlsRec) (s : State) :
    exec (.tlsRecordReceive ses wire rec) s = s.act (fun d => (d.tlsRecord ses wire rec).settle) := rfl
theorem exec_sharedRingMessageWrite (ring : Nat) (s : State) :
    exec (.sharedRingMessageWrite ring) s = s.act (fun d => (d.sharedWrite ring).settle) := rfl
theorem exec_tcpSegmentReceive (port : Nat) (seg : SegIn) (s : State) :
    exec (.tcpSegmentReceive port seg) s = s.act (fun d => (d.segment port seg).settle) := rfl
theorem exec_tcpRetransmitTimeout (ses : Nat) (s : State) :
    exec (.tcpRetransmitTimeout ses) s = s.act (fun d => d.rtoExpired ses) := rfl
theorem exec_keepaliveTimer (ses : Nat) (s : State) :
    exec (.keepaliveTimer ses) s = s.act (fun d => d.keepalive ses) := rfl
theorem exec_sesEnable (r : DReq) (s : State) :
    exec (.sesEnable r) s = s.act (fun d => d.command r .sesEnable (fun _ _ d => d.sesEnable d.selSes)) := rfl
theorem exec_sesOperatorClose (r : DReq) (s : State) :
    exec (.sesOperatorClose r) s = s.act (fun d => d.command r .sesClose (fun _ _ d => (d.sesClose d.selSes).settle)) := rfl
theorem exec_sesDisable (r : DReq) (s : State) :
    exec (.sesDisable r) s = s.act (fun d => d.command r .sesDisable (fun _ _ d => (d.sesDisable d.selSes).settle.splitSettle)) := rfl
theorem exec_connectTimeout (ses : Nat) (s : State) :
    exec (.connectTimeout ses) s = s.act (fun d => d.connectTimeout ses) := rfl
theorem exec_handshakeStart (ses : Nat) (s : State) :
    exec (.handshakeStart ses) s = s.act (fun d => d.hsStart ses) := rfl
theorem exec_handshakeComplete (ses : Nat) (peer : HsIn) (s : State) :
    exec (.handshakeComplete ses peer) s = s.act (fun d => d.hsDone ses peer) := rfl
theorem exec_handshakeTimeout (ses : Nat) (s : State) :
    exec (.handshakeTimeout ses) s = s.act (fun d => d.hsTimeout ses) := rfl
theorem exec_closingTimeout (ses : Nat) (s : State) :
    exec (.closingTimeout ses) s = s.act (fun d => d.closingTimeout ses) := rfl
theorem exec_backoffExpiry (ses : Nat) (s : State) :
    exec (.backoffExpiry ses) s = s.act (fun d => d.backoffExpiry ses) := rfl
theorem exec_egressRecordSend (ring : Nat) (s : State) :
    exec (.egressRecordSend ring) s = s.act (fun d => d.egressSend ring) := rfl
theorem exec_pfcRenew (port : Nat) (s : State) :
    exec (.pfcRenew port) s = s.act (fun d => d.pfcRenew port) := rfl
theorem exec_ingressEnableWrite (r : DReq) (s : State) :
    exec (.ingressEnableWrite r) s = s.act (fun d => d.command r .ingressEnable (fun _ v d => d.setObj 0x4020 1 v)) := rfl
theorem exec_ringEnable (r : DReq) (s : State) :
    exec (.ringEnable r) s = s.act (fun d => d.command r .ringEnable (fun _ _ d => d.ringEnable r.idx)) := rfl
theorem exec_ringDisable (r : DReq) (s : State) :
    exec (.ringDisable r) s = s.act (fun d => d.command r .ringDisable (fun _ _ d => d.ringDisable r.idx)) := rfl
theorem exec_overrunClear (r : DReq) (s : State) :
    exec (.overrunClear r) s = s.act (fun d => d.command r .overrunClear (fun _ v d => d.overrunClear r.idx r.sub v)) := rfl
theorem exec_watermarkWrite (r : DReq) (s : State) :
    exec (.watermarkWrite r) s = s.act (fun d => d.command r .watermark (fun _ v d => d.watermark r.idx r.sub v)) := rfl
theorem exec_keywayTakeSignal (s : State) :
    exec .keywayTakeSignal s = s.act Dev.takeSignal := rfl
theorem exec_rejectLaneWrite (s : State) :
    exec .rejectLaneWrite s = s.act Dev.rejectLane := rfl
theorem exec_lexRecord (ring : Nat) (s : State) :
    exec (.lexRecord ring) s = s.act (fun d => d.lexRecord ring) := rfl
theorem exec_dueTimeExpiry (ctx : Nat) (s : State) :
    exec (.dueTimeExpiry ctx) s = s.act (fun d => d.dueExpiry ctx) := rfl
theorem exec_fallbackPointExpiry (ctx : Nat) (s : State) :
    exec (.fallbackPointExpiry ctx) s = s.act (fun d => d.fallbackExpiry ctx) := rfl
theorem exec_deadlinePurgeExpiry (ctx : Nat) (s : State) :
    exec (.deadlinePurgeExpiry ctx) s = s.act (fun d => d.deadlinePurge ctx) := rfl
theorem exec_drainTick (s : State) :
    exec .drainTick s = s.act Dev.drainTick := rfl
theorem exec_paceWindowEnd (readings : List (Nat × Nat)) (s : State) :
    exec (.paceWindowEnd readings) s = s.act (fun d => d.paceWindow readings) := rfl
theorem exec_forceStandin (r : DReq) (s : State) :
    exec (.forceStandin r) s = s.act (fun d => d.command r .forceStandin (fun _ v d => d.forceStandin v)) := rfl
theorem exec_respond (site : Site) (s : State) :
    exec (.respond site) s = s.act (fun d => d.instr site (fun n => attIs 2 1 n || attUndefined 2 n) false) := rfl
theorem exec_forward (site : Site) (s : State) :
    exec (.forward site) s = s.act (fun d => d.instr site (attIs 2 2) false) := rfl
theorem exec_sessionOf (site : Site) (s : State) :
    exec (.sessionOf site) s = s.act (fun d => d.instr site (attIs 2 3) false) := rfl
theorem exec_responseLastByte (ctx : Nat) (s : State) :
    exec (.responseLastByte ctx) s = s.act (fun d => d.lastByte ctx) := rfl
theorem exec_reclaimDone (ctx : Nat) (s : State) :
    exec (.reclaimDone ctx) s = s.act (fun d => d.reclaimDone ctx) := rfl
theorem exec_journalAppend (lane : Nat) (s : State) :
    exec (.journalAppend lane) s = s.act (fun d => d.laneAppend lane) := rfl
theorem exec_ckptIntervalExpiry (s : State) :
    exec .ckptIntervalExpiry s = s.act Dev.ckptInterval := rfl
theorem exec_ckptRequest (r : DReq) (s : State) :
    exec (.ckptRequest r) s = s.act (fun d => d.command r .ckptRequest (fun _ v d => if v = 1 then d.cut 2 else d)) := rfl
theorem exec_ckptSignDone (s : State) :
    exec .ckptSignDone s = s.act Dev.ckptDone := rfl
theorem exec_jnlExportAck (n : Nat) (s : State) :
    exec (.jnlExportAck n) s = s.act (fun d => d.jnlAck n) := rfl
theorem exec_routerHop (router inp vc : Nat) (s : State) :
    exec (.routerHop router inp vc) s = s.act (fun d => d.hop router inp vc) := rfl
theorem exec_vc2Escape (router inp vc : Nat) (s : State) :
    exec (.vc2Escape router inp vc) s = s.act (fun d => d.escape router inp vc) := rfl
theorem exec_matchArrival (pos vc : Nat) (s : State) :
    exec (.matchArrival pos vc) s = s.act (fun d => d.matchArrival pos vc) := rfl
theorem exec_overflowProbeDone (pos key : Nat) (s : State) :
    exec (.overflowProbeDone pos key) s = s.act (fun d => d.probeDone pos key) := rfl
theorem exec_matchSweepTick (pos key : Nat) (s : State) :
    exec (.matchSweepTick pos key) s = s.act (fun d => d.sweep pos key) := rfl
theorem exec_writebackLink (pos : Nat) (s : State) :
    exec (.writebackLink pos) s = s.act (fun d => d.wbLink pos) := rfl
theorem exec_spillBurstDone (q : QId) (s : State) :
    exec (.spillBurstDone q) s = s.act (fun d => d.burst q) := rfl
theorem exec_spillRefillDone (q : QId) (s : State) :
    exec (.spillRefillDone q) s = s.act (fun d => d.refill q) := rfl
theorem exec_dispatch (pos : Nat) (s : State) :
    exec (.dispatch pos) s = s.act (fun d => d.dispatch pos) := rfl
theorem exec_frameFetchDone (pos ctx : Nat) (s : State) :
    exec (.frameFetchDone pos ctx) s = s.act (fun d => d.frameFetch pos ctx) := rfl
theorem exec_piSignal (s : State) :
    exec .piSignal s = s.act Dev.piSignal := rfl
theorem exec_codeReloadDone (pos : Nat) (s : State) :
    exec (.codeReloadDone pos) s = s.act (fun d => d.codeReload pos) := rfl
theorem exec_fabricStallDetect (die : Nat) (s : State) :
    exec (.fabricStallDetect die) s = s.act (fun d => d.stallDetect die) := rfl
theorem exec_slotTick (pos : Nat) (s : State) :
    exec (.slotTick pos) s = s.act (fun d => d.slotTick pos) := rfl
theorem exec_pass (site : Site) (s : State) :
    exec (.pass site) s = s.act (fun d => d.fire site .pass) := rfl
theorem exec_steer (site : Site) (s : State) :
    exec (.steer site) s = s.act (fun d => d.fire site .steer) := rfl
theorem exec_merge (site : Site) (s : State) :
    exec (.merge site) s = s.act (fun d => d.fire site .merge) := rfl
theorem exec_sync (site : Site) (s : State) :
    exec (.sync site) s = s.act (fun d => d.fire site .sync) := rfl
theorem exec_const (site : Site) (s : State) :
    exec (.const site) s = s.act (fun d => d.fire site .const) := rfl
theorem exec_sel (site : Site) (s : State) :
    exec (.sel site) s = s.act (fun d => d.fire site .sel) := rfl
theorem exec_swap (site : Site) (s : State) :
    exec (.swap site) s = s.act (fun d => d.fire site .swap) := rfl
theorem exec_gate (site : Site) (s : State) :
    exec (.gate site) s = s.act (fun d => d.fire site .gate) := rfl
theorem exec_feat (site : Site) (s : State) :
    exec (.feat site) s = s.act (fun d => d.fire site .feat) := rfl
theorem exec_time (site : Site) (s : State) :
    exec (.time site) s = s.act (fun d => d.fire site .time) := rfl
theorem exec_ctxid (site : Site) (s : State) :
    exec (.ctxid site) s = s.act (fun d => d.fire site .ctxid) := rfl
theorem exec_raise (site : Site) (s : State) :
    exec (.raise site) s = s.act (fun d => d.fire site .raise) := rfl
theorem exec_add (site : Site) (s : State) :
    exec (.add site) s = s.act (fun d => d.fire site .add) := rfl
theorem exec_adc (site : Site) (s : State) :
    exec (.adc site) s = s.act (fun d => d.fire site .adc) := rfl
theorem exec_sub (site : Site) (s : State) :
    exec (.sub site) s = s.act (fun d => d.fire site .sub) := rfl
theorem exec_sbb (site : Site) (s : State) :
    exec (.sbb site) s = s.act (fun d => d.fire site .sbb) := rfl
theorem exec_neg (site : Site) (s : State) :
    exec (.neg site) s = s.act (fun d => d.fire site .neg) := rfl
theorem exec_abs (site : Site) (s : State) :
    exec (.abs site) s = s.act (fun d => d.fire site .abs) := rfl
theorem exec_inc (site : Site) (s : State) :
    exec (.inc site) s = s.act (fun d => d.fire site .inc) := rfl
theorem exec_dec (site : Site) (s : State) :
    exec (.dec site) s = s.act (fun d => d.fire site .dec) := rfl
theorem exec_mul (site : Site) (s : State) :
    exec (.mul site) s = s.act (fun d => d.fire site .mul) := rfl
theorem exec_mulh (site : Site) (s : State) :
    exec (.mulh site) s = s.act (fun d => d.fire site .mulh) := rfl
theorem exec_mulhu (site : Site) (s : State) :
    exec (.mulhu site) s = s.act (fun d => d.fire site .mulhu) := rfl
theorem exec_div (site : Site) (s : State) :
    exec (.div site) s = s.act (fun d => d.fire site .div) := rfl
theorem exec_divu (site : Site) (s : State) :
    exec (.divu site) s = s.act (fun d => d.fire site .divu) := rfl
theorem exec_mac (site : Site) (s : State) :
    exec (.mac site) s = s.act (fun d => d.fire site .mac) := rfl
theorem exec_msub (site : Site) (s : State) :
    exec (.msub site) s = s.act (fun d => d.fire site .msub) := rfl
theorem exec_min (site : Site) (s : State) :
    exec (.min site) s = s.act (fun d => d.fire site .min) := rfl
theorem exec_max (site : Site) (s : State) :
    exec (.max site) s = s.act (fun d => d.fire site .max) := rfl
theorem exec_minu (site : Site) (s : State) :
    exec (.minu site) s = s.act (fun d => d.fire site .minu) := rfl
theorem exec_maxu (site : Site) (s : State) :
    exec (.maxu site) s = s.act (fun d => d.fire site .maxu) := rfl
theorem exec_and (site : Site) (s : State) :
    exec (.and site) s = s.act (fun d => d.fire site .and) := rfl
theorem exec_or (site : Site) (s : State) :
    exec (.or site) s = s.act (fun d => d.fire site .or) := rfl
theorem exec_xor (site : Site) (s : State) :
    exec (.xor site) s = s.act (fun d => d.fire site .xor) := rfl
theorem exec_not (site : Site) (s : State) :
    exec (.not site) s = s.act (fun d => d.fire site .not) := rfl
theorem exec_andn (site : Site) (s : State) :
    exec (.andn site) s = s.act (fun d => d.fire site .andn) := rfl
theorem exec_orn (site : Site) (s : State) :
    exec (.orn site) s = s.act (fun d => d.fire site .orn) := rfl
theorem exec_xnor (site : Site) (s : State) :
    exec (.xnor site) s = s.act (fun d => d.fire site .xnor) := rfl
theorem exec_band (site : Site) (s : State) :
    exec (.band site) s = s.act (fun d => d.fire site .band) := rfl
theorem exec_bor (site : Site) (s : State) :
    exec (.bor site) s = s.act (fun d => d.fire site .bor) := rfl
theorem exec_bxor (site : Site) (s : State) :
    exec (.bxor site) s = s.act (fun d => d.fire site .bxor) := rfl
theorem exec_bnot (site : Site) (s : State) :
    exec (.bnot site) s = s.act (fun d => d.fire site .bnot) := rfl
theorem exec_shl (site : Site) (s : State) :
    exec (.shl site) s = s.act (fun d => d.fire site .shl) := rfl
theorem exec_shr (site : Site) (s : State) :
    exec (.shr site) s = s.act (fun d => d.fire site .shr) := rfl
theorem exec_sar (site : Site) (s : State) :
    exec (.sar site) s = s.act (fun d => d.fire site .sar) := rfl
theorem exec_rol (site : Site) (s : State) :
    exec (.rol site) s = s.act (fun d => d.fire site .rol) := rfl
theorem exec_ror (site : Site) (s : State) :
    exec (.ror site) s = s.act (fun d => d.fire site .ror) := rfl
theorem exec_clz (site : Site) (s : State) :
    exec (.clz site) s = s.act (fun d => d.fire site .clz) := rfl
theorem exec_ctz (site : Site) (s : State) :
    exec (.ctz site) s = s.act (fun d => d.fire site .ctz) := rfl
theorem exec_popc (site : Site) (s : State) :
    exec (.popc site) s = s.act (fun d => d.fire site .popc) := rfl
theorem exec_bext (site : Site) (s : State) :
    exec (.bext site) s = s.act (fun d => d.fire site .bext) := rfl
theorem exec_bextu (site : Site) (s : State) :
    exec (.bextu site) s = s.act (fun d => d.fire site .bextu) := rfl
theorem exec_bins (site : Site) (s : State) :
    exec (.bins site) s = s.act (fun d => d.fire site .bins) := rfl
theorem exec_bperm (site : Site) (s : State) :
    exec (.bperm site) s = s.act (fun d => d.fire site .bperm) := rfl
theorem exec_sext (site : Site) (s : State) :
    exec (.sext site) s = s.act (fun d => d.fire site .sext) := rfl
theorem exec_zext (site : Site) (s : State) :
    exec (.zext site) s = s.act (fun d => d.fire site .zext) := rfl
theorem exec_pdep (site : Site) (s : State) :
    exec (.pdep site) s = s.act (fun d => d.fire site .pdep) := rfl
theorem exec_pext (site : Site) (s : State) :
    exec (.pext site) s = s.act (fun d => d.fire site .pext) := rfl
theorem exec_hash (site : Site) (s : State) :
    exec (.hash site) s = s.act (fun d => d.fire site .hash) := rfl
theorem exec_crc32c (site : Site) (s : State) :
    exec (.crc32c site) s = s.act (fun d => d.fire site .crc32c) := rfl
theorem exec_ceq (site : Site) (s : State) :
    exec (.ceq site) s = s.act (fun d => d.fire site .ceq) := rfl
theorem exec_cne (site : Site) (s : State) :
    exec (.cne site) s = s.act (fun d => d.fire site .cne) := rfl
theorem exec_clt (site : Site) (s : State) :
    exec (.clt site) s = s.act (fun d => d.fire site .clt) := rfl
theorem exec_cle (site : Site) (s : State) :
    exec (.cle site) s = s.act (fun d => d.fire site .cle) := rfl
theorem exec_cltu (site : Site) (s : State) :
    exec (.cltu site) s = s.act (fun d => d.fire site .cltu) := rfl
theorem exec_cleu (site : Site) (s : State) :
    exec (.cleu site) s = s.act (fun d => d.fire site .cleu) := rfl
theorem exec_ctst (site : Site) (s : State) :
    exec (.ctst site) s = s.act (fun d => d.fire site .ctst) := rfl
theorem exec_cbit (site : Site) (s : State) :
    exec (.cbit site) s = s.act (fun d => d.fire site .cbit) := rfl
theorem exec_ceqb (site : Site) (s : State) :
    exec (.ceqb site) s = s.act (fun d => d.fire site .ceqb) := rfl
theorem exec_cneb (site : Site) (s : State) :
    exec (.cneb site) s = s.act (fun d => d.fire site .cneb) := rfl
theorem exec_cltb (site : Site) (s : State) :
    exec (.cltb site) s = s.act (fun d => d.fire site .cltb) := rfl
theorem exec_cleb (site : Site) (s : State) :
    exec (.cleb site) s = s.act (fun d => d.fire site .cleb) := rfl
theorem exec_cltub (site : Site) (s : State) :
    exec (.cltub site) s = s.act (fun d => d.fire site .cltub) := rfl
theorem exec_cleub (site : Site) (s : State) :
    exec (.cleub site) s = s.act (fun d => d.fire site .cleub) := rfl
theorem exec_ctstb (site : Site) (s : State) :
    exec (.ctstb site) s = s.act (fun d => d.fire site .ctstb) := rfl
theorem exec_cbitb (site : Site) (s : State) :
    exec (.cbitb site) s = s.act (fun d => d.fire site .cbitb) := rfl
theorem exec_flgr (site : Site) (s : State) :
    exec (.flgr site) s = s.act (fun d => d.fire site .flgr) := rfl
theorem exec_flgw (site : Site) (s : State) :
    exec (.flgw site) s = s.act (fun d => d.fire site .flgw) := rfl
theorem exec_flgtas (site : Site) (s : State) :
    exec (.flgtas site) s = s.act (fun d => d.fire site .flgtas) := rfl
theorem exec_setbank (site : Site) (s : State) :
    exec (.setbank site) s = s.act (fun d => d.fire site .setbank) := rfl
theorem exec_getbank (site : Site) (s : State) :
    exec (.getbank site) s = s.act (fun d => d.fire site .getbank) := rfl
theorem exec_settrap (site : Site) (s : State) :
    exec (.settrap site) s = s.act (fun d => d.fire site .settrap) := rfl
theorem exec_setsub (site : Site) (s : State) :
    exec (.setsub site) s = s.act (fun d => d.fire site .setsub) := rfl
theorem exec_setrnd (site : Site) (s : State) :
    exec (.setrnd site) s = s.act (fun d => d.fire site .setrnd) := rfl
theorem exec_getmode (site : Site) (s : State) :
    exec (.getmode site) s = s.act (fun d => d.fire site .getmode) := rfl
theorem exec_i2fx (site : Site) (s : State) :
    exec (.i2fx site) s = s.act (fun d => d.fire site .i2fx) := rfl
theorem exec_fx2i (site : Site) (s : State) :
    exec (.fx2i site) s = s.act (fun d => d.fire site .fx2i) := rfl
theorem exec_fx2f (site : Site) (s : State) :
    exec (.fx2f site) s = s.act (fun d => d.fire site .fx2f) := rfl
theorem exec_f2fx (site : Site) (s : State) :
    exec (.f2fx site) s = s.act (fun d => d.fire site .f2fx) := rfl
theorem exec_i2f (site : Site) (s : State) :
    exec (.i2f site) s = s.act (fun d => d.fire site .i2f) := rfl
theorem exec_f2i (site : Site) (s : State) :
    exec (.f2i site) s = s.act (fun d => d.fire site .f2i) := rfl
theorem exec_f2iu (site : Site) (s : State) :
    exec (.f2iu site) s = s.act (fun d => d.fire site .f2iu) := rfl
theorem exec_bcd2i (site : Site) (s : State) :
    exec (.bcd2i site) s = s.act (fun d => d.fire site .bcd2i) := rfl
theorem exec_i2bcd (site : Site) (s : State) :
    exec (.i2bcd site) s = s.act (fun d => d.fire site .i2bcd) := rfl
theorem exec_dec2i (site : Site) (s : State) :
    exec (.dec2i site) s = s.act (fun d => d.fire site .dec2i) := rfl
theorem exec_i2dec (site : Site) (s : State) :
    exec (.i2dec site) s = s.act (fun d => d.fire site .i2dec) := rfl
theorem exec_eb2as (site : Site) (s : State) :
    exec (.eb2as site) s = s.act (fun d => d.fire site .eb2as) := rfl
theorem exec_as2eb (site : Site) (s : State) :
    exec (.as2eb site) s = s.act (fun d => d.fire site .as2eb) := rfl
theorem exec_bswap (site : Site) (s : State) :
    exec (.bswap site) s = s.act (fun d => d.fire site .bswap) := rfl
theorem exec_brev (site : Site) (s : State) :
    exec (.brev site) s = s.act (fun d => d.fire site .brev) := rfl
theorem exec_fadd (site : Site) (s : State) :
    exec (.fadd site) s = s.act (fun d => d.fire site .fadd) := rfl
theorem exec_fsub (site : Site) (s : State) :
    exec (.fsub site) s = s.act (fun d => d.fire site .fsub) := rfl
theorem exec_fmul (site : Site) (s : State) :
    exec (.fmul site) s = s.act (fun d => d.fire site .fmul) := rfl
theorem exec_fdiv (site : Site) (s : State) :
    exec (.fdiv site) s = s.act (fun d => d.fire site .fdiv) := rfl
theorem exec_fsqrt (site : Site) (s : State) :
    exec (.fsqrt site) s = s.act (fun d => d.fire site .fsqrt) := rfl
theorem exec_fma (site : Site) (s : State) :
    exec (.fma site) s = s.act (fun d => d.fire site .fma) := rfl
theorem exec_fmin (site : Site) (s : State) :
    exec (.fmin site) s = s.act (fun d => d.fire site .fmin) := rfl
theorem exec_fmax (site : Site) (s : State) :
    exec (.fmax site) s = s.act (fun d => d.fire site .fmax) := rfl
theorem exec_fneg (site : Site) (s : State) :
    exec (.fneg site) s = s.act (fun d => d.fire site .fneg) := rfl
theorem exec_fabs (site : Site) (s : State) :
    exec (.fabs site) s = s.act (fun d => d.fire site .fabs) := rfl
theorem exec_fceq (site : Site) (s : State) :
    exec (.fceq site) s = s.act (fun d => d.fire site .fceq) := rfl
theorem exec_fclt (site : Site) (s : State) :
    exec (.fclt site) s = s.act (fun d => d.fire site .fclt) := rfl
theorem exec_fcle (site : Site) (s : State) :
    exec (.fcle site) s = s.act (fun d => d.fire site .fcle) := rfl
theorem exec_fcun (site : Site) (s : State) :
    exec (.fcun site) s = s.act (fun d => d.fire site .fcun) := rfl
theorem exec_frint (site : Site) (s : State) :
    exec (.frint site) s = s.act (fun d => d.fire site .frint) := rfl
theorem exec_fclass (site : Site) (s : State) :
    exec (.fclass site) s = s.act (fun d => d.fire site .fclass) := rfl
theorem exec_ld (site : Site) (s : State) :
    exec (.ld site) s = s.act (fun d => d.fire site .ld) := rfl
theorem exec_ldb (site : Site) (s : State) :
    exec (.ldb site) s = s.act (fun d => d.fire site .ldb) := rfl
theorem exec_ldbu (site : Site) (s : State) :
    exec (.ldbu site) s = s.act (fun d => d.fire site .ldbu) := rfl
theorem exec_ldh (site : Site) (s : State) :
    exec (.ldh site) s = s.act (fun d => d.fire site .ldh) := rfl
theorem exec_ldhu (site : Site) (s : State) :
    exec (.ldhu site) s = s.act (fun d => d.fire site .ldhu) := rfl
theorem exec_ldw (site : Site) (s : State) :
    exec (.ldw site) s = s.act (fun d => d.fire site .ldw) := rfl
theorem exec_ldwu (site : Site) (s : State) :
    exec (.ldwu site) s = s.act (fun d => d.fire site .ldwu) := rfl
theorem exec_st (site : Site) (s : State) :
    exec (.st site) s = s.act (fun d => d.fire site .st) := rfl
theorem exec_stb (site : Site) (s : State) :
    exec (.stb site) s = s.act (fun d => d.fire site .stb) := rfl
theorem exec_sth (site : Site) (s : State) :
    exec (.sth site) s = s.act (fun d => d.fire site .sth) := rfl
theorem exec_stw (site : Site) (s : State) :
    exec (.stw site) s = s.act (fun d => d.fire site .stw) := rfl
theorem exec_ird (site : Site) (s : State) :
    exec (.ird site) s = s.act (fun d => d.fire site .ird) := rfl
theorem exec_iwr (site : Site) (s : State) :
    exec (.iwr site) s = s.act (fun d => d.fire site .iwr) := rfl
theorem exec_iclr (site : Site) (s : State) :
    exec (.iclr site) s = s.act (fun d => d.fire site .iclr) := rfl
theorem exec_aadd (site : Site) (s : State) :
    exec (.aadd site) s = s.act (fun d => d.fire site .aadd) := rfl
theorem exec_aand (site : Site) (s : State) :
    exec (.aand site) s = s.act (fun d => d.fire site .aand) := rfl
theorem exec_aor (site : Site) (s : State) :
    exec (.aor site) s = s.act (fun d => d.fire site .aor) := rfl
theorem exec_axor (site : Site) (s : State) :
    exec (.axor site) s = s.act (fun d => d.fire site .axor) := rfl
theorem exec_axchg (site : Site) (s : State) :
    exec (.axchg site) s = s.act (fun d => d.fire site .axchg) := rfl
theorem exec_acas (site : Site) (s : State) :
    exec (.acas site) s = s.act (fun d => d.fire site .acas) := rfl
theorem exec_amin (site : Site) (s : State) :
    exec (.amin site) s = s.act (fun d => d.fire site .amin) := rfl
theorem exec_amax (site : Site) (s : State) :
    exec (.amax site) s = s.act (fun d => d.fire site .amax) := rfl
theorem exec_lock (site : Site) (s : State) :
    exec (.lock site) s = s.act (fun d => d.fire site .lock) := rfl
theorem exec_trylock (site : Site) (s : State) :
    exec (.trylock site) s = s.act (fun d => d.fire site .trylock) := rfl
theorem exec_unlock (site : Site) (s : State) :
    exec (.unlock site) s = s.act (fun d => d.fire site .unlock) := rfl
theorem exec_orphanBreak (r : DReq) (s : State) :
    exec (.orphanBreak r) s = s.act (fun d => d.command r .orphanBreak (fun ro v d => d.orphanBreak (v % 2 ^ 40) r.sess ro)) := rfl
theorem exec_bld (site : Site) (s : State) :
    exec (.bld site) s = s.act (fun d => d.fire site .bld) := rfl
theorem exec_bst (site : Site) (s : State) :
    exec (.bst site) s = s.act (fun d => d.fire site .bst) := rfl
theorem exec_btas (site : Site) (s : State) :
    exec (.btas site) s = s.act (fun d => d.fire site .btas) := rfl
theorem exec_btac (site : Site) (s : State) :
    exec (.btac site) s = s.act (fun d => d.fire site .btac) := rfl
theorem exec_bflip (site : Site) (s : State) :
    exec (.bflip site) s = s.act (fun d => d.fire site .bflip) := rfl
theorem exec_blts (site : Site) (s : State) :
    exec (.blts site) s = s.act (fun d => d.fire site .blts) := rfl
theorem exec_deferralSweepTick (s : State) :
    exec .deferralSweepTick s = s.act Dev.deferSweep := rfl
theorem exec_sigSign (site : Site) (s : State) :
    exec (.sigSign site) s = s.act (fun d => d.instr site (fun n => attIs 0 1 n || attUndefined 0 n) false) := rfl
theorem exec_sigVerify (site : Site) (s : State) :
    exec (.sigVerify site) s = s.act (fun d => d.instr site (attIs 0 2) false) := rfl
theorem exec_sigVerifyV15 (site : Site) (s : State) :
    exec (.sigVerifyV15 site) s = s.act (fun d => d.instr site (attIs 0 3) false) := rfl
theorem exec_gcmSeal (site : Site) (s : State) :
    exec (.gcmSeal site) s = s.act (fun d => d.instr site (fun n => attIs 1 1 n || attUndefined 1 n) false) := rfl
theorem exec_gcmOpen (site : Site) (s : State) :
    exec (.gcmOpen site) s = s.act (fun d => d.instr site (attIs 1 2) false) := rfl
theorem exec_cmacGen (site : Site) (s : State) :
    exec (.cmacGen site) s = s.act (fun d => d.instr site (attIs 1 3) false) := rfl
theorem exec_cmacVerify (site : Site) (s : State) :
    exec (.cmacVerify site) s = s.act (fun d => d.instr site (attIs 1 4) false) := rfl
theorem exec_hmacGen (site : Site) (s : State) :
    exec (.hmacGen site) s = s.act (fun d => d.instr site (attIs 1 5) false) := rfl
theorem exec_hmacVerify (site : Site) (s : State) :
    exec (.hmacVerify site) s = s.act (fun d => d.instr site (attIs 1 6) false) := rfl
theorem exec_digest (site : Site) (s : State) :
    exec (.digest site) s = s.act (fun d => d.instr site (attIs 1 7) false) := rfl
theorem exec_pinXlate (site : Site) (s : State) :
    exec (.pinXlate site) s = s.act (fun d => d.instr site (attIs 1 8) false) := rfl
theorem exec_pinXlateDukpt (site : Site) (s : State) :
    exec (.pinXlateDukpt site) s = s.act (fun d => d.instr site (attIs 1 9) false) := rfl
theorem exec_random (site : Site) (s : State) :
    exec (.random site) s = s.act (fun d => d.instr site (attIs 1 10) false) := rfl
theorem exec_customerLogicCall (site : Site) (s : State) :
    exec (.customerLogicCall site) s = s.act (fun d => d.instr site (fun n => n.op == .att && n.att == 7) false) := rfl
theorem exec_cryptoSlotStart (slot : Nat) (s : State) :
    exec (.cryptoSlotStart slot) s = s.act (fun d => d.slotStart slot) := rfl
theorem exec_cryptoCallComplete (slot : Nat) (s : State) :
    exec (.cryptoCallComplete slot) s = s.act (fun d => d.callComplete slot) := rfl
theorem exec_masterKeyCmd (r : DReq) (s : State) :
    exec (.masterKeyCmd r) s = s.act (fun d => d.command r .masterKey (fun _ v d => d.masterKey v)) := rfl
theorem exec_keyDelete (r : DReq) (s : State) :
    exec (.keyDelete r) s = s.act (fun d => d.command r .keyDelete (fun ro v d => d.keyDelete v r.sess ro)) := rfl
theorem exec_importCmd (r : DReq) (s : State) :
    exec (.importCmd r) s = s.act (fun d => d.command r .importCmd (fun ro v d => d.importKey v r.sess ro)) := rfl
theorem exec_exportCmd (r : DReq) (s : State) :
    exec (.exportCmd r) s = s.act (fun d => d.command r .exportCmd (fun ro v d => d.exportKey v r.sess ro)) := rfl
theorem exec_component (r : DReq) (s : State) :
    exec (.component r) s = s.act (fun d => d.command r .component (fun ro v d =>
        let id := match tget? d.wrd.sessions r.sess with | some w => beNat w.key | none => 0
        d.component v id r.sess ro)) := rfl
theorem exec_genCmd (r : DReq) (s : State) :
    exec (.genCmd r) s = s.act (fun d => d.command r .genCmd (fun ro v d => d.genKey v r.sess ro)) := rfl
theorem exec_zeroize (r : DReq) (s : State) :
    exec (.zeroize r) s = s.act (fun d => d.command r .zeroize (fun _ v d => if v = 1 then d.zeroize 3 else d)) := rfl
theorem exec_meshCompare (ret : Nat) (s : State) :
    exec (.meshCompare ret) s = s.act (fun d => d.meshCompare ret) := rfl
theorem exec_glitchDetect (s : State) :
    exec .glitchDetect s = s.act (fun d => d.zeroize 2) := rfl
theorem exec_zeroizeSealDone (s : State) :
    exec .zeroizeSealDone s = s.act Dev.zeroDone := rfl
theorem exec_entropyTestFail (s : State) :
    exec .entropyTestFail s = s.act Dev.entropyFail := rfl
theorem exec_drbgReseed (i : Nat) (s : State) :
    exec (.drbgReseed i) s = s.act (fun d => d.drbgReseed i) := rfl
theorem exec_drbgRestart (r : DReq) (s : State) :
    exec (.drbgRestart r) s = s.act (fun d => d.command r .drbgRestart (fun _ v d => d.drbgRestart v)) := rfl
theorem exec_ppsInEdge (frac : Nat) (s : State) :
    exec (.ppsInEdge frac) s = s.act (fun d => d.ppsEdge frac) := rfl
theorem exec_taiSet (r : DReq) (s : State) :
    exec (.taiSet r) s = s.act (fun d => d.command r .taiSet (fun _ v d => d.taiSet v)) := rfl
theorem exec_taiStepApply (s : State) :
    exec .taiStepApply s = s.act Dev.taiStep := rfl
theorem exec_taiSlewNs (r : DReq) (s : State) :
    exec (.taiSlewNs r) s = s.act (fun d => d.command r .taiSlew (fun _ v d => d.taiSlew v)) := rfl
theorem exec_tbSourceWrite (r : DReq) (s : State) :
    exec (.tbSourceWrite r) s = s.act (fun d => d.command r .tbSource (fun _ v d => d.tbSource v)) := rfl
theorem exec_sourceLossTimeout (s : State) :
    exec .sourceLossTimeout s = s.act Dev.sourceTimeout := rfl
theorem exec_refclkLockLost (s : State) :
    exec .refclkLockLost s = s.act Dev.refLost := rfl
theorem exec_refclkLockRegained (s : State) :
    exec .refclkLockRegained s = s.act Dev.refRegained := rfl
theorem exec_ppsOutPulse (s : State) :
    exec .ppsOutPulse s = s.act Dev.ppsPulse := rfl
theorem exec_ptpMessageReceive (port : Nat) (m : PtpMsg) (s : State) :
    exec (.ptpMessageReceive port m) s = s.act (fun d => d.ptpReceive port m) := rfl
theorem exec_ptpSyncSend (port : Nat) (s : State) :
    exec (.ptpSyncSend port) s = s.act (fun d => d.ptpSync port) := rfl
theorem exec_ringTimeSend (s : State) :
    exec .ringTimeSend s = s.act Dev.timeSend := rfl
theorem exec_ringFrameForward (port : Nat) (f : RFrame) (tail : RTail) (s : State) :
    exec (.ringFrameForward port f tail) s = s.act (fun d => d.ringForward port f tail) := rfl
theorem exec_ringTimeFrameReceive (port : Nat) (f : RFrame) (ps : Nat) (s : State) :
    exec (.ringTimeFrameReceive port f ps) s = s.act (fun d => d.timeIn port f ps) := rfl
theorem exec_ringFaultFrameReceive (f : RFrame) (s : State) :
    exec (.ringFaultFrameReceive f) s = s.act (fun d => d.faultFrameIn f) := rfl
theorem exec_ringClaimReceive (f : RFrame) (s : State) :
    exec (.ringClaimReceive f) s = s.act (fun d => d.claimIn f) := rfl
theorem exec_claimTimer (s : State) :
    exec .claimTimer s = s.act Dev.claimTick := rfl
theorem exec_timeFrameAbsence (s : State) :
    exec .timeFrameAbsence s = s.act Dev.timeAbsent := rfl
theorem exec_becomeMaster (s : State) :
    exec .becomeMaster s = s.act Dev.becomeMaster := rfl
theorem exec_ringBreakDetect (port : Nat) (s : State) :
    exec (.ringBreakDetect port) s = s.act (fun d => d.ringBreak port) := rfl
theorem exec_hingeClose (port : Nat) (s : State) :
    exec (.hingeClose port) s = s.act (fun d => d.hingeClose port) := rfl
theorem exec_hingeOpen (port : Nat) (s : State) :
    exec (.hingeOpen port) s = s.act (fun d => d.hingeOpen port) := rfl
theorem exec_dictRead (r : DReq) (s : State) :
    exec (.dictRead r) s = s.act (fun d => d.dictRead r) := rfl
theorem exec_objectWrite (r : DReq) (s : State) :
    exec (.objectWrite r) s = s.act (fun d => d.objectWrite r) := rfl
theorem exec_transferBegin (r : DReq) (s : State) :
    exec (.transferBegin r) s = s.act (fun d => (d.onOp r 3 Dev.beginAcc).storeDue) := rfl
theorem exec_segmentWrite (r : DReq) (s : State) :
    exec (.segmentWrite r) s = s.act (fun d => d.onOp r 4 Dev.segWrite) := rfl
theorem exec_segmentRead (r : DReq) (s : State) :
    exec (.segmentRead r) s = s.act (fun d => d.onOp r 5 Dev.segRead) := rfl
theorem exec_transferEnd (r : DReq) (s : State) :
    exec (.transferEnd r) s = s.act (fun d => d.onOp r 6 Dev.endAcc) := rfl
theorem exec_sessionOpen (chan : Nat) (station : List Byte) (role : Nat) (nonce : List Byte) (s : State) :
    exec (.sessionOpen chan station role nonce) s = s.act (fun d => d.sessionOpen chan station role nonce) := rfl
theorem exec_sessionProof (sess : Nat) (proof : List Byte) (s : State) :
    exec (.sessionProof sess proof) s = s.act (fun d => d.sessionProof sess proof) := rfl
theorem exec_sessionIdleTimeout (sess : Nat) (s : State) :
    exec (.sessionIdleTimeout sess) s = s.act (fun d => d.sessionIdle sess) := rfl
theorem exec_lockoutExpiry (station : List Byte) (s : State) :
    exec (.lockoutExpiry station) s = s.act (fun d => d.lockoutEnd station) := rfl
theorem exec_pcieDoorbell (qp : Nat) (regs : QpRegs) (index octets : Nat) (aligned : Bool) (frame : RFrame) (s : State) :
    exec (.pcieDoorbell qp regs index octets aligned frame) s = s.act (fun d => d.doorbell qp regs index octets aligned frame) := rfl
theorem exec_journalAckDoorbell (n : Nat) (s : State) :
    exec (.journalAckDoorbell n) s = s.act (fun d => d.ackDoorbell n) := rfl
theorem exec_pcieLinkReset (s : State) :
    exec .pcieLinkReset s = s.act Dev.pcieReset := rfl
theorem exec_watchdogExpiry (s : State) :
    exec .watchdogExpiry s = s.act Dev.watchdog := rfl
theorem exec_wardRestart (r : DReq) (s : State) :
    exec (.wardRestart r) s = s.act (fun d => d.command r .wardRestart (fun _ v d => if v = 1 then d.wardReset 1 else d)) := rfl
theorem exec_gloletInterrupt (s : State) :
    exec .gloletInterrupt s = s.act Dev.coreIrq := rfl
theorem exec_jmp (s : State) :
    exec .jmp s = s.act (fun d => d.coreStep (fun n => n.op == .jmp) false) := rfl
theorem exec_bz (s : State) :
    exec .bz s = s.act (fun d => d.coreStep (fun n => n.op == .bz) false) := rfl
theorem exec_bnz (s : State) :
    exec .bnz s = s.act (fun d => d.coreStep (fun n => n.op == .bnz) false) := rfl
theorem exec_jal (s : State) :
    exec .jal s = s.act (fun d => d.coreStep (fun n => n.op == .jal) false) := rfl
theorem exec_jr (s : State) :
    exec .jr s = s.act (fun d => d.coreStep (fun n => n.op == .jr) false) := rfl
theorem exec_ret (s : State) :
    exec .ret s = s.act (fun d => d.coreStep (fun n => n.op == .ret) false) := rfl
theorem exec_trapret (s : State) :
    exec .trapret s = s.act (fun d => d.coreStep (fun n => n.op == .trapret) false) := rfl
theorem exec_halt (s : State) :
    exec .halt s = s.act (fun d => d.coreStep (fun n => n.op == .halt) false) := rfl
theorem exec_wfi (s : State) :
    exec .wfi s = s.act (fun d => d.coreStep (fun n => n.op == .wfi) false) := rfl
theorem exec_nop (s : State) :
    exec .nop s = s.act (fun d => d.coreStep (fun n => n.op == .nop) false) := rfl
theorem exec_csrr (s : State) :
    exec .csrr s = s.act (fun d => d.coreStep (fun n => n.op == .csrr) false) := rfl
theorem exec_csrw (s : State) :
    exec .csrw s = s.act (fun d => d.coreStep (fun n => n.op == .csrw) false) := rfl
theorem exec_sensorSample (tj tjHbm : List Int) (rails : List Nat) (s : State) :
    exec (.sensorSample tj tjHbm rails) s = s.act (fun d => d.sensorSample tj tjHbm rails) := rfl
theorem exec_fwVerifyDone (s : State) :
    exec .fwVerifyDone s = s.act Dev.fwVerifyDone := rfl
theorem exec_fwCommand (r : DReq) (s : State) :
    exec (.fwCommand r) s = s.act (fun d => d.command r .fwCommand (fun _ v d => d.fwCommand v)) := rfl
theorem exec_fwTrialConfirm (s : State) :
    exec .fwTrialConfirm s = s.act Dev.fwConfirm := rfl
theorem exec_fwTrialTimeout (s : State) :
    exec .fwTrialTimeout s = s.act Dev.fwTimeout := rfl
theorem exec_store (r : DReq) (s : State) :
    exec (.store r) s = s.act (fun d => d.command r .store (fun ro _ d => d.storeAsk r.sess (actorRole ro))) := rfl
theorem exec_restore (r : DReq) (s : State) :
    exec (.restore r) s = s.act (fun d => d.command r .restore (fun ro _ d => d.restoreAsk r.sess (actorRole ro))) := rfl
theorem exec_storeErase (r : DReq) (s : State) :
    exec (.storeErase r) s = s.act (fun d => d.command r .storeErase (fun _ _ d => d.storeErase)) := rfl
theorem exec_imgVerifyDone (idx : Nat) (s : State) :
    exec (.imgVerifyDone idx) s = s.act (fun d => d.imgVerify idx) := rfl
theorem exec_imgActivate (r : DReq) (s : State) :
    exec (.imgActivate r) s = s.act (fun d => d.command r .imgActivate (fun ro _ d => d.imgStart r.idx r.sess (actorRole ro))) := rfl
theorem exec_imgInstallDone (idx : Nat) (s : State) :
    exec (.imgInstallDone idx) s = s.act (fun d => (d.imgInstall idx).storeDue) := rfl
theorem exec_imgDeactivate (r : DReq) (s : State) :
    exec (.imgDeactivate r) s = s.act (fun d => d.command r .imgDeactivate (fun ro _ d => d.imgDrain r.idx r.sess (actorRole ro))) := rfl
theorem exec_imgDrainDone (idx : Nat) (s : State) :
    exec (.imgDrainDone idx) s = s.act (fun d => d.imgDrained idx) := rfl
theorem exec_imgErase (r : DReq) (s : State) :
    exec (.imgErase r) s = s.act (fun d => d.command r .imgErase (fun ro _ d => (d.imgClear r.idx r.sess (actorRole ro)).storeDue)) := rfl
theorem exec_routeSwap (r : DReq) (s : State) :
    exec (.routeSwap r) s = s.act (fun d => d.command r .routeSwap (fun _ v d => d.routeSwap v)) := rfl
theorem exec_swapVcDrained (vc : Nat) (s : State) :
    exec (.swapVcDrained vc) s = s.act (fun d => d.vcDrained vc) := rfl
theorem exec_domainPowerDown (r : DReq) (s : State) :
    exec (.domainPowerDown r) s = s.act (fun d => d.command r .domainDown (fun _ v d => d.domainDown v)) := rfl
theorem exec_domainDrainEnd (s : State) :
    exec .domainDrainEnd s = s.act Dev.domainDrainEnd := rfl
theorem exec_domainPowerUp (r : DReq) (s : State) :
    exec (.domainPowerUp r) s = s.act (fun d => d.command r .domainUp (fun _ v d => d.domainUp v)) := rfl
theorem exec_domainRailsUp (s : State) :
    exec .domainRailsUp s = s.act Dev.domainRailsUp := rfl
theorem exec_parkReceive (s : State) :
    exec .parkReceive s = s.act Dev.parkReceive := rfl
theorem exec_parkReplayDone (k : Nat) (s : State) :
    exec (.parkReplayDone k) s = s.act (fun d => d.parkReplay k) := rfl
theorem exec_linkEnableSet (r : DReq) (s : State) :
    exec (.linkEnableSet r) s = s.act (fun d => d.command r .linkSet (fun _ _ d => d.reqLink r Dev.linkEnable)) := rfl
theorem exec_linkEnableClear (r : DReq) (s : State) :
    exec (.linkEnableClear r) s = s.act (fun d => d.command r .linkClear (fun _ _ d => d.reqLink r Dev.linkDisable)) := rfl
theorem exec_linkTrained (l neighbour flight : Nat) (s : State) :
    exec (.linkTrained l neighbour flight) s = s.act (fun d => d.linkTrained l neighbour flight) := rfl
theorem exec_linkAlignmentLost (l : Nat) (s : State) :
    exec (.linkAlignmentLost l) s = s.act (fun d => d.linkLost l) := rfl
theorem exec_linkRetrainTimeout (l : Nat) (s : State) :
    exec (.linkRetrainTimeout l) s = s.act (fun d => d.linkTimeout l) := rfl
theorem exec_linkDownExpiry (l : Nat) (s : State) :
    exec (.linkDownExpiry l) s = s.act (fun d => d.linkDownEnd l) := rfl
theorem exec_linkWordReceive (l : Nat) (w : WordIn) (s : State) :
    exec (.linkWordReceive l w) s = s.act (fun d => d.wordReceive l w) := rfl
theorem exec_linkCreditWord (l : Nat) (returns : List Nat) (seq : Nat) (s : State) :
    exec (.linkCreditWord l returns seq) s = s.act (fun d => d.creditWord l returns seq) := rfl
theorem exec_linkRetryRequest (l seq : Nat) (s : State) :
    exec (.linkRetryRequest l seq) s = s.act (fun d => d.retryRequest l seq) := rfl
theorem exec_linkTokenSend (l : Nat) (s : State) :
    exec (.linkTokenSend l) s = s.act (fun d => d.tokenSend l) := rfl
theorem exec_proxyAdmission (s : State) :
    exec .proxyAdmission s = s.act Dev.proxyAdmission := rfl
theorem exec_deviceIdWrite (r : DReq) (s : State) :
    exec (.deviceIdWrite r) s = s.act (fun d => d.command r .deviceId (fun _ v d => d.deviceIdWrite v)) := rfl
theorem exec_ethFrameReceive (port : Nat) (frame : List Byte) (s : State) :
    exec (.ethFrameReceive port frame) s = s.act (fun d => d.ethReceive port frame) := rfl
theorem exec_ethSplit (r : DReq) (s : State) :
    exec (.ethSplit r) s = s.act (fun d => d.command r .ethSplit (fun _ v d => d.ethSplit (r.idx % 256) v)) := rfl
theorem exec_faultEvent (s : State) :
    exec .faultEvent s = s.act Dev.faultEvent := rfl
theorem exec_graceExpiry (src : Nat) (s : State) :
    exec (.graceExpiry src) s = s.act (fun d => d.graceExpiry src) := rfl
theorem exec_relatchExpiry (src : Nat) (s : State) :
    exec (.relatchExpiry src) s = s.act (fun d => d.relatch src) := rfl
theorem exec_faultAck (r : DReq) (s : State) :
    exec (.faultAck r) s = s.act (fun d => d.command r .faultAck (fun _ v d => d.faultAck v)) := rfl
theorem exec_faultClear (r : DReq) (s : State) :
    exec (.faultClear r) s = s.act (fun d => d.command r .faultClear (fun _ v d => d.faultClear v)) := rfl
theorem exec_faultSubwindowTick (src : Nat) (s : State) :
    exec (.faultSubwindowTick src) s = s.act (fun d => d.subTick src) := rfl
theorem exec_historyCloseExpiry (i : Nat) (s : State) :
    exec (.historyCloseExpiry i) s = s.act (fun d => d.histClose i) := rfl
theorem exec_deadboltCoreReset (s : State) :
    exec .deadboltCoreReset s = s.act Dev.boltReset := rfl
theorem exec_clusterFailure (pos : Nat) (router : Bool) (s : State) :
    exec (.clusterFailure pos router) s = s.act (fun d => d.clusterFailure pos router) := rfl
theorem exec_takeoverCodeLoaded (s : State) :
    exec .takeoverCodeLoaded s = s.act Dev.takeCode := rfl
theorem exec_takeoverComplete (s : State) :
    exec .takeoverComplete s = s.act Dev.takeDone := rfl
theorem exec_rollTestStart (s : State) :
    exec .rollTestStart s = s.act Dev.rollStart := rfl
theorem exec_rollTestDone (pass : Bool) (s : State) :
    exec (.rollTestDone pass) s = s.act (fun d => d.rollDone pass) := rfl
theorem exec_bistCmd (r : DReq) (s : State) :
    exec (.bistCmd r) s = s.act (fun d => d.command r .bistCmd (fun _ v d => d.bistStart v)) := rfl
theorem exec_bistDone (failed : List Nat) (s : State) :
    exec (.bistDone failed) s = s.act (fun d => d.bistEnd failed) := rfl
theorem exec_injArm (r : DReq) (s : State) :
    exec (.injArm r) s = s.act (fun d => d.command r .injArm (fun _ v d => d.injArm v)) := rfl
theorem exec_dumpTick (s : State) :
    exec .dumpTick s = s.act Dev.dumpTick := rfl
theorem exec_cntConfig (r : DReq) (s : State) :
    exec (.cntConfig r) s = s.act (fun d => d.command r .cntConfig (fun _ v d => d.ctrConfig (r.idx % 256) (r.sub - 0x0A) v)) := rfl
theorem exec_cntValueWrite (r : DReq) (s : State) :
    exec (.cntValueWrite r) s = s.act (fun d => d.command r .cntValue (fun _ v d => d.ctrWrite (r.idx % 256) (r.sub - 2) v)) := rfl
theorem exec_cntValueRead (r : DReq) (s : State) :
    exec (.cntValueRead r) s = s.act (fun d => d.cntRead r) := rfl
theorem exec_ovfPop (r : DReq) (s : State) :
    exec (.ovfPop r) s = s.act (fun d => d.command r .ovfPop (fun _ v d => d.ovfPop v)) := rfl
theorem exec_auxPowerLoss (s : State) :
    exec .auxPowerLoss s = s.act Dev.auxLoss := rfl
theorem exec_auxPowerGood (s : State) :
    exec .auxPowerGood s = s.act Dev.auxGood := rfl
theorem exec_mainPowerLoss (rail : Rail) (s : State) :
    exec (.mainPowerLoss rail) s = s.act (fun d => d.mainLoss rail) := rfl
theorem exec_mainPowerGood (s : State) :
    exec .mainPowerGood s = s.act Dev.mainGood := rfl
theorem exec_resetNAssert (lowNs : Nat) (s : State) :
    exec (.resetNAssert lowNs) s = s.act (fun d => d.resetLow lowNs) := rfl
theorem exec_resetNRelease (s : State) :
    exec .resetNRelease s = s.act Dev.resetHigh := rfl
theorem exec_poweronInitDone (s : State) :
    exec .poweronInitDone s = s.act Dev.initDone := rfl
theorem exec_sysResetCmd (r : DReq) (s : State) :
    exec (.sysResetCmd r) s = s.act (fun d => d.command r .sysReset (fun _ v d => if v = 1 then d.askReset else d)) := rfl
theorem exec_coreResetCmd (r : DReq) (s : State) :
    exec (.coreResetCmd r) s = s.act (fun d => d.command r .coreReset (fun _ v d => d.coreCmd v)) := rfl
theorem exec_coreResetWalkDone (s : State) :
    exec .coreResetWalkDone s = s.act Dev.walkDone := rfl
theorem exec_coreResetReinitDone (s : State) :
    exec .coreResetReinitDone s = s.act Dev.reinitDone := rfl
theorem exec_srRing (r : DReq) (s : State) :
    exec (.srRing r) s = s.act (fun d => d.command r (.sr 7) (fun _ v d => d.softWrite v)) := rfl
theorem exec_srCrypto (r : DReq) (s : State) :
    exec (.srCrypto r) s = s.act (fun d => d.command r (.sr 6) (fun _ v d => d.softWrite v)) := rfl
theorem exec_srPcie (r : DReq) (s : State) :
    exec (.srPcie r) s = s.act (fun d => d.command r (.sr 5) (fun _ v d => d.softWrite v)) := rfl
theorem exec_srLinks (r : DReq) (s : State) :
    exec (.srLinks r) s = s.act (fun d => d.command r (.sr 4) (fun _ v d => d.softWrite v)) := rfl
theorem exec_srEth (r : DReq) (s : State) :
    exec (.srEth r) s = s.act (fun d => d.command r (.sr 3) (fun _ v d => d.softWrite v)) := rfl
theorem exec_srHasp (r : DReq) (s : State) :
    exec (.srHasp r) s = s.act (fun d => d.command r (.sr 2) (fun _ v d => d.softWrite v)) := rfl
theorem exec_srKeyway (r : DReq) (s : State) :
    exec (.srKeyway r) s = s.act (fun d => d.command r (.sr 1) (fun _ v d => d.softWrite v)) := rfl
theorem exec_srFabric (r : DReq) (s : State) :
    exec (.srFabric r) s = s.act (fun d => d.command r (.sr 0) (fun _ v d => d.softWrite v)) := rfl
theorem exec_fullSoftReset (r : DReq) (s : State) :
    exec (.fullSoftReset r) s = s.act (fun d => d.command r .fullSoft (fun _ _ d => d.askReset)) := rfl
theorem exec_pllLock (block : Nat) (s : State) :
    exec (.pllLock block) s = s.act (fun d => d.pllUp block) := rfl
theorem exec_pllLockLost (block : Nat) (s : State) :
    exec (.pllLockLost block) s = s.act (fun d => d.pllDown block) := rfl
theorem exec_governorTick (s : State) :
    exec .governorTick s = s.act Dev.govTick := rfl
theorem exec_avsStatusPoll (answered fault : Bool) (s : State) :
    exec (.avsStatusPoll answered fault) s = s.act (fun d => d.avsPoll answered fault) := rfl
theorem exec_boostEnable (r : DReq) (s : State) :
    exec (.boostEnable r) s = s.act (fun d => d.command r .boost (fun _ v d => d.boostWrite v)) := rfl
theorem exec_boostChargeTick (s : State) :
    exec .boostChargeTick s = s.act Dev.boostTick := rfl
theorem exec_thermalTrip (s : State) :
    exec .thermalTrip s = s.act Dev.thermalTrip := rfl
theorem exec_railOutOfRange (rail : Rail) (s : State) :
    exec (.railOutOfRange rail) s = s.act (fun d => d.railOut rail) := rfl
theorem exec_linkRealigned (l : Nat) (s : State) :
    exec (.linkRealigned l) s = s.act (fun d => d.linkRealigned l) := rfl
theorem exec_ringSyncAcquired (port : Nat) (s : State) :
    exec (.ringSyncAcquired port) s = s.act (fun d => d.ringSync port) := rfl
theorem exec_pcieLinkUp (width rate : Nat) (s : State) :
    exec (.pcieLinkUp width rate) s = s.act (fun d => d.pcieUp_ width rate) := rfl
theorem exec_ppsOutWidthEnd (pin : Nat) (s : State) :
    exec (.ppsOutWidthEnd pin) s = s.act (fun d => d.ppsFall pin) := rfl
theorem exec_hbmPeriodicCalibration (stack : Nat) (s : State) :
    exec (.hbmPeriodicCalibration stack) s = s.act (fun d => d.calibrate stack) := rfl
theorem exec_tapTckEdge (rising tms tdi : Bool) (pins : List Bool) (s : State) :
    exec (.tapTckEdge rising tms tdi pins) s = s.act (fun d => d.tapEdge rising tms tdi pins) := rfl
theorem exec_trstNAssert (s : State) :
    exec .trstNAssert s = s.act Dev.tapReset := rfl
theorem exec_ptpAnnounceSend (port : Nat) (s : State) :
    exec (.ptpAnnounceSend port) s = s.act (fun d => d.ptpAnnounce port) := rfl
theorem exec_ptpDelayRequestSend (port : Nat) (s : State) :
    exec (.ptpDelayRequestSend port) s = s.act (fun d => d.ptpDelayReq port) := rfl

end Sys2Proof.Machine
end

