-- ==== Sys2Proof/Laws/Cells.lean ====
section
/-! SUPPORT. What the rows of the node encoding come to: a cell that takes its head firing on, the Glolet core that takes its next
instruction on, and the core's stores. -/

namespace Sys2Proof.Machine

/-- With no injection armed a checker takes none. -/
theorem takeInj_none {d : Dev} (h : d.flt.injLeft = 0) (a b : Nat) : d.takeInj a b = (0, 0, d) := by
  simp [Dev.takeInj, h]

/-- Clean tokens pass the check of a firing as they are. -/
theorem checkAll_clean {d : Dev} (h : d.flt.injLeft = 0) (loc : Nat) (l : List W128) (hl : ∀ u ∈ l, checkWord u = .clean) :
    d.checkAll loc l = (some l, d) := by
  induction l with
  | nil => rfl
  | cons a r ih =>
    have := hl a (by simp)
    simp [Dev.checkAll, Dev.checkTok, takeInj_none h, this, ih (fun u hu => hl u (by simp [hu]))]

/-- What a cell does with a firing that can go on: it executes the node of a row that names it. -/
theorem fireCell_ready {d : Dev} {pos c : Nat} {f : Firing} {t : W128} {n : Node} (h : d.headReady pos c f t n)
    (want : Node → Bool) : d.fireCell pos c want = if want n then d.execute (d.fireCtx pos c f t n) else d := by
  obtain ⟨l, h1, h2, h3, h4⟩ := h
  unfold Dev.fireCell
  cases hp : (d.cell pos c).pipe with
  | nil => simp [hp] at h1
  | cons g r =>
    simp only [hp, List.head?_cons, Option.some.injEq] at h1; subst h1
    cases ht : f.toks with
    | nil => simp [ht] at h2
    | cons u r2 =>
      simp only [ht, List.head?_cons, Option.some.injEq] at h2; subst h2
      simp [ht, h3, h4]

/-- A cell that takes a firing of an illegal node (R171), whose tokens are whole and of the generation that the context has. -/
theorem enterCell_illegal {d : Dev} {pos c e : Nat} {f : Firing} {t : W128} (h3 : f.toks.head? = some t)
    (h5 : (d.pos pos).code.contains (lineKey (tNode t)) = true) (h6 : (d.pos pos).badCode = []) (h7 : d.flt.injLeft = 0)
    (h8 : ∀ u ∈ f.toks, checkWord u = .clean ∧ tokMalformed u (d.shapeOf (tNode t)) = false) (h9 : tGen t = d.gen (tCtx t))
    (h10 : decodeNode (d.codeAt (tNode t)) = .error e) :
    d.enterCell pos c f = d.fireIllegal (d.fireCtx pos c f t illegalNode) e := by
  cases ht : f.toks with
  | nil => simp [ht] at h3
  | cons u r =>
    simp only [ht, List.head?_cons, Option.some.injEq] at h3; subst h3
    have hf : d.fetchNode pos (tNode u) = (some (d.codeAt (tNode u)), d) := by
      simp [Dev.fetchNode, h6, takeInj_none h7]
    have hm : ((u :: r).any fun v => tokMalformed v (d.shapeOf (tNode u))) = false := by
      rw [List.any_eq_false]
      intro v hv; rw [(h8 v (by rw [ht]; exact hv)).2]; decide
    have hg : d.genFor (d.codeAt (tNode u)) (tCtx u) = tGen u := by simp [Dev.genFor, h10, h9]
    have hk := checkAll_clean h7 (posLoc pos) (u :: r) (fun v hv => (h8 v (by rw [ht]; exact hv)).1)
    have hq : ({ f with toks := u :: r } : Firing) = f := by rw [← ht]
    unfold Dev.enterCell Dev.beginFiring
    simp only [ht, h5, hf, hk, List.headD_cons, hm, hg, h10, hq, Bool.not_true, Bool.false_eq_true, if_false, ne_eq, not_true_eq_false]

/-- A firing that finds a cell idle goes there. -/
theorem toCell_idle {d : Dev} {pos c : Nat} (f : Firing) (h : (d.pos pos).idleCell d.up = some c) :
    d.toCell pos f = d.enterCell pos c f := by
  simp only [Dev.toCell, h]

/-- What DISPATCH does with a firing that it gives to a cell. -/
theorem dispatch_give {d : Dev} {pos pri : Nat} {f : Firing} (h1 : (d.pos pos).st = .inService)
    (h2 : d.pick pos 8 = some (.give pri f)) : d.dispatch pos = (d.popReady pos pri).toCell pos { f with pri := pri } := by
  unfold Dev.dispatch
  rw [if_neg (by rw [h1]; decide), h2]; simp only [Dev.serve]

/-- A row of the node encoding takes an instruction on at its site. -/
theorem exec_node_row {c : Instr} {site : Site} {want : Node → Bool} (h : nodeRow c = some (site, want)) :
    ∃ bad, ∀ s, exec c s = s.act (fun d => d.instr site want bad) := by
  cases c <;> simp only [nodeRow, Option.some.injEq, Prod.mk.injEq, reduceCtorEq] at h <;>
    (obtain ⟨rfl, rfl⟩ := h; exact ⟨_, fun _ => rfl⟩)

/-- A row of the node encoding at a cell is the cell taking its head firing on. -/
theorem exec_cell_row {c : Instr} {pos cell : Nat} {want : Node → Bool} (h : nodeRow c = some (.cell pos cell, want)) (s : State) :
    exec c s = s.act (fun d => d.fireCell pos cell want) := by
  obtain ⟨_, h⟩ := exec_node_row h
  exact h s

/-- A row of the node encoding at the Glolet core is the core taking its next instruction on. -/
theorem exec_core_node {c : Instr} {want : Node → Bool} (h : nodeRow c = some (.glolet, want)) :
    ∃ bad, ∀ s, exec c s = s.act (fun d => d.coreStep want bad) := by
  obtain ⟨bad, h⟩ := exec_node_row h
  exact ⟨bad, h⟩

/-- A row at the Glolet core that names an instruction is the core taking its next instruction on. -/
theorem exec_core_row {c : Instr} {n : Node} (h : coreRow c = some n.op ∨ ∃ want, nodeRow c = some (.glolet, want) ∧ want n = true) :
    ∃ want bad, want n = true ∧ ∀ s, exec c s = s.act (fun d => d.coreStep want bad) := by
  rcases h with h | ⟨want, h, hw⟩
  · cases c <;> simp only [coreRow, Option.some.injEq, reduceCtorEq] at h <;>
      exact ⟨_, _, by rw [beq_iff_eq]; exact h.symm, fun s => rfl⟩
  · obtain ⟨bad, h⟩ := exec_core_node h
    exact ⟨want, bad, hw, h⟩

/-- Register 1 stands in slot 1 of what an instruction runs with. -/
theorem coreCtx_slot_one (d : Dev) (n : Node) : (d.coreCtx n).fr.slot 1 = tget 0 d.wrd.core.g 1 := by
  simp [Dev.coreCtx, Frame.slot, Glolet.regs]

/-- An address of the ward's memory. -/
theorem place_sram (d : Dev) (a : Nat) (h1 : 0x100000 ≤ a) (h2 : a < 0x180000) : d.place a = .sram a := by
  unfold Dev.place; simp [h1, h2]; omega

/-- Octets stored within the ward's memory. -/
theorem coreStore_sram (l : List Byte) : ∀ (k a : Nat) (d : Dev), 0x100000 ≤ a → a + k + l.length ≤ 0x180000 →
    (l.zipIdx k).foldl (fun d (p : Byte × Nat) => d.corePut ((a + p.2) % 2 ^ 40) p.1) d
      = { d with wrd := { d.wrd with sram := memWrite d.wrd.sram (a + k) l } } := by
  induction l with
  | nil => intro k a d _ _; rfl
  | cons b r ih =>
    intro k a d h1 h2
    simp at h2
    simp only [List.zipIdx_cons, List.foldl_cons]
    rw [ih (k+1) a _ h1 (by omega)]
    have : (a + k) % 2 ^ 40 = a + k := Nat.mod_eq_of_lt (by omega)
    simp only [Dev.corePut, this, place_sram d (a + k) (by omega) (by omega), memWrite]
    rfl

end Sys2Proof.Machine
end

