-- ==== Sys2Proof/Laws/Rings.lean ====
section
/-! SUPPORT. What replacing an ingress ring changes (R252, R253): the ring, flow control, and what its sessions send. -/

namespace Sys2Proof.Machine

/-- One port's flow control changes nothing but what it asserts and the frames that say so. -/
theorem fcPort_eq (d : Dev) (p : Nat) :
    d.fcPort p = { d with ses := { d.ses with fcOn := (d.fcPort p).ses.fcOn, fcOut := (d.fcPort p).ses.fcOut } } := by
  simp only [Dev.fcPort]
  split <;> rfl

/-- Flow control changes nothing but what the ports assert and the frames that say so. -/
theorem flow_eq (d : Dev) :
    d.flow = { d with ses := { d.ses with fcOn := d.flow.ses.fcOn, fcOut := d.flow.ses.fcOut } } := by
  have h : ∀ (l : List Nat) (d : Dev), l.foldl Dev.fcPort d = { d with ses := { d.ses with
      fcOn := (l.foldl Dev.fcPort d).ses.fcOn, fcOut := (l.foldl Dev.fcPort d).ses.fcOut } } := by
    intro l
    induction l with
    | nil => intro _; rfl
    | cons p r ih =>
      intro d
      have hp := fcPort_eq d p
      simp only [List.foldl_cons]
      rw [ih (d.fcPort p)]
      generalize (List.foldl Dev.fcPort (d.fcPort p) r).ses.fcOn = a
      generalize (List.foldl Dev.fcPort (d.fcPort p) r).ses.fcOut = b
      rw [hp]
  exact h _ _

/-- Segments that leave change nothing but the segments that have left. -/
theorem emit_eq (d : Dev) (e : Nat) (v : Bool) (l : List Seg) :
    d.emit e v l = { d with ses := { d.ses with segs := (d.emit e v l).ses.segs } } := by
  simp only [Dev.emit]
  split <;> rfl

/-- A session that sends what it may changes its own record and the segments that have left. -/
theorem pump_eq (d : Dev) (n : Nat) :
    d.pump n = { d with ses := { d.ses with ses := (d.pump n).ses.ses, segs := (d.pump n).ses.segs } } := by
  simp only [Dev.pump, Dev.emitOf]
  split
  · rfl
  · rw [emit_eq]; rfl

theorem pumps_eq {α : Type} (l : List (Nat × α)) (d : Dev) : l.foldl (fun d e => d.pump e.1) d = { d with ses := { d.ses with
    ses := (l.foldl (fun d e => d.pump e.1) d).ses.ses, segs := (l.foldl (fun d e => d.pump e.1) d).ses.segs } } := by
  induction l generalizing d with
  | nil => rfl
  | cons e r ih =>
    have hp := pump_eq d e.1
    simp only [List.foldl_cons]
    rw [ih (d.pump e.1)]
    generalize (List.foldl (fun d (e : Nat × α) => d.pump e.1) (d.pump e.1) r).ses.ses = a
    generalize (List.foldl (fun d (e : Nat × α) => d.pump e.1) (d.pump e.1) r).ses.segs = b
    rw [hp]

/-- Replacing an ingress ring changes that ring, flow control, and, where the ring leaves Above, what its sessions send. -/
theorem setIng_eq (d : Dev) (r : Nat) (x : InRing) : d.setIng r x = { d with ses := { d.ses with
    ing := tset d.ses.ing r x, fcOn := (d.setIng r x).ses.fcOn, fcOut := (d.setIng r x).ses.fcOut,
    ses := (d.setIng r x).ses.ses, segs := (d.setIng r x).ses.segs } } := by
  simp only [Dev.setIng]
  split
  · rfl
  · split
    · rw [pumps_eq, flow_eq]
    · rw [flow_eq]

/-- Where the watermark state stays, replacing a ring changes the ring alone. -/
theorem setIng_same {d : Dev} {r : Nat} {x : InRing} (h : x.q.above = (d.ing r).q.above) :
    d.setIng r x = { d with ses := { d.ses with ing := tset d.ses.ing r x } } := by
  simp [Dev.setIng, h]

@[simp] theorem setIng_ing (d : Dev) (r : Nat) (x : InRing) : (d.setIng r x).ing r = x := by
  rw [setIng_eq]; simp [Dev.ing]
theorem setIng_ing_ne (d : Dev) (r m : Nat) (x : InRing) (h : m ≠ r) : (d.setIng r x).ing m = d.ing m := by
  rw [setIng_eq]; simp [Dev.ing, tget_tset_ne _ _ _ h]
@[simp] theorem setIng_part (d : Dev) (r : Nat) (x : InRing) : (d.setIng r x).part = d.part := by rw [setIng_eq]
@[simp] theorem setIng_objs (d : Dev) (r : Nat) (x : InRing) : (d.setIng r x).objs = d.objs := by rw [setIng_eq]
@[simp] theorem setIng_key (d : Dev) (r : Nat) (x : InRing) : (d.setIng r x).key = d.key := by rw [setIng_eq]
@[simp] theorem setIng_fab (d : Dev) (r : Nat) (x : InRing) : (d.setIng r x).fab = d.fab := by rw [setIng_eq]
@[simp] theorem setIng_mem (d : Dev) (r : Nat) (x : InRing) : (d.setIng r x).mem = d.mem := by rw [setIng_eq]
@[simp] theorem setIng_jnl (d : Dev) (r : Nat) (x : InRing) : (d.setIng r x).jnl = d.jnl := by rw [setIng_eq]
@[simp] theorem setIng_tb (d : Dev) (r : Nat) (x : InRing) : (d.setIng r x).tb = d.tb := by rw [setIng_eq]
@[simp] theorem setIng_wrd (d : Dev) (r : Nat) (x : InRing) : (d.setIng r x).wrd = d.wrd := by rw [setIng_eq]
@[simp] theorem setIng_egr (d : Dev) (r n : Nat) (x : InRing) : (d.setIng r x).egr n = d.egr n := by
  rw [setIng_eq]; rfl
@[simp] theorem setIng_tai (d : Dev) (r : Nat) (x : InRing) : (d.setIng r x).tai = d.tai := by rw [setIng_eq]
@[simp] theorem setIng_up (d : Dev) (r : Nat) (x : InRing) : (d.setIng r x).up = d.up := by rw [setIng_eq]

@[simp] theorem setSes_sess (d : Dev) (n : Nat) (x : Ses) : (d.setSes n x).sess n = x := by simp [Dev.sess, Dev.setSes]
theorem setSes_sess_ne (d : Dev) (n m : Nat) (x : Ses) (h : m ≠ n) : (d.setSes n x).sess m = d.sess m := by
  simp [Dev.sess, Dev.setSes, tget_tset_ne _ _ _ h]
@[simp] theorem setEgr_egr (d : Dev) (r : Nat) (x : EgRing) : (d.setEgr r x).egr r = x := by simp [Dev.egr, Dev.setEgr]
theorem setObj_obj (d : Dev) (i k v : Nat) : (d.setObj i k v).obj i k = v := by simp [Dev.obj, Dev.setObj]

end Sys2Proof.Machine
end

