-- ==== Sys2Proof/Laws/Events.lean ====
section
/-! SUPPORT. What a token injected, an event counted and a record released change: one lemma for each shared operation. -/

namespace Sys2Proof.Machine

theorem setObj_obj_ne (d : Dev) {i k a b : Nat} (v : Nat) (h : okey a b ≠ okey i k) : (d.setObj i k v).obj a b = d.obj a b := by
  simp [Dev.obj, Dev.setObj, tget?_tset_ne _ _ h]

theorem bump_obj (d : Dev) (i k : Nat) : (d.bump i k).obj i k = (d.obj i k + 1) % 2 ^ 64 := setObj_obj _ _ _ _

theorem bump_obj_ne (d : Dev) {i k a b : Nat} (h : okey a b ≠ okey i k) : (d.bump i k).obj a b = d.obj a b :=
  setObj_obj_ne _ _ h

@[simp] theorem bump_key (d : Dev) (i k : Nat) : (d.bump i k).key = d.key := rfl
@[simp] theorem bump_ses (d : Dev) (i k : Nat) : (d.bump i k).ses = d.ses := rfl
@[simp] theorem bump_part (d : Dev) (i k : Nat) : (d.bump i k).part = d.part := rfl
@[simp] theorem bumpBy_key (d : Dev) (i k n : Nat) : (d.bumpBy i k n).key = d.key := rfl

/-- A packet handed to a router changes the network, and counts where it is held (R334). -/
theorem inject_eq (d : Dev) (ro vc pr src : Nat) (dst : Nat × Nat × Nat) (pl : W128) :
    d.inject ro vc pr src dst pl = { d with fab := (d.inject ro vc pr src dst pl).fab, objs := (d.inject ro vc pr src dst pl).objs } := by
  simp only [Dev.inject]
  split <;> rfl

theorem inject_obj (d : Dev) (ro vc pr src : Nat) (dst : Nat × Nat × Nat) (pl : W128) {a b : Nat} (h : okey a b ≠ okey 0x8000 7) :
    (d.inject ro vc pr src dst pl).obj a b = d.obj a b := by
  simp only [Dev.inject]
  split
  · exact bump_obj_ne _ h
  · rfl

/-- Occurrences that reach a counter change counters, and what its overflow does: the queue, MSI-X and a token. -/
theorem ctrAdd_eq (d : Dev) (k n : Nat) : d.ctrAdd k n = { d with
    perf := (d.ctrAdd k n).perf, lnk := (d.ctrAdd k n).lnk, fab := (d.ctrAdd k n).fab, objs := (d.ctrAdd k n).objs } := by
  have hi := @inject_eq
  simp only [Dev.ctrAdd, Dev.ctrOverflow, Dev.hubToken, Dev.msix]
  split
  · split
    · rw [hi]; split
      · split
        · split <;> rfl
        · rfl
      · rfl
    · split
      · split
        · split <;> rfl
        · rfl
      · rfl
  · rfl

theorem ctrAdd_obj (d : Dev) (k n : Nat) {a b : Nat} (h : okey a b ≠ okey 0x8000 7) (h2 : okey a b ≠ okey 0xA000 0x0C) :
    (d.ctrAdd k n).obj a b = d.obj a b := by
  simp only [Dev.ctrAdd, Dev.ctrOverflow, Dev.hubToken, Dev.msix]
  split
  · split
    · rw [inject_obj _ _ _ _ _ _ _ h]; split
      · split
        · split <;> rfl
        · exact bump_obj_ne _ h2
      · rfl
    · split
      · split
        · split <;> rfl
        · exact bump_obj_ne _ h2
      · rfl
  · rfl

/-- An event of kind E changes what its counters change. -/
theorem event_eq (d : Dev) (bl co x n : Nat) : d.event bl co x n = { d with
    perf := (d.event bl co x n).perf, lnk := (d.event bl co x n).lnk, fab := (d.event bl co x n).fab,
    objs := (d.event bl co x n).objs } := by
  have h : ∀ (l : List (Nat × Ctr)) (d : Dev), (l.foldl (fun d e => d.ctrAdd e.1 n) d) = { d with
      perf := (l.foldl (fun d e => d.ctrAdd e.1 n) d).perf, lnk := (l.foldl (fun d e => d.ctrAdd e.1 n) d).lnk,
      fab := (l.foldl (fun d e => d.ctrAdd e.1 n) d).fab, objs := (l.foldl (fun d e => d.ctrAdd e.1 n) d).objs } := by
    intro l
    induction l with
    | nil => intro _; rfl
    | cons e r ih =>
      intro d
      have hc := ctrAdd_eq d e.1 n
      simp only [List.foldl_cons]
      rw [ih (d.ctrAdd e.1 n)]
      generalize (List.foldl (fun d (e : Nat × Ctr) => d.ctrAdd e.1 n) (d.ctrAdd e.1 n) r).perf = p
      generalize (List.foldl (fun d (e : Nat × Ctr) => d.ctrAdd e.1 n) (d.ctrAdd e.1 n) r).lnk = q
      generalize (List.foldl (fun d (e : Nat × Ctr) => d.ctrAdd e.1 n) (d.ctrAdd e.1 n) r).fab = u
      generalize (List.foldl (fun d (e : Nat × Ctr) => d.ctrAdd e.1 n) (d.ctrAdd e.1 n) r).objs = v
      rw [hc]
  exact h _ _

theorem event_obj (d : Dev) (bl co x n : Nat) {a b : Nat} (h : okey a b ≠ okey 0x8000 7) (h2 : okey a b ≠ okey 0xA000 0x0C) :
    (d.event bl co x n).obj a b = d.obj a b := by
  have hf : ∀ (l : List (Nat × Ctr)) (d : Dev), (l.foldl (fun d e => d.ctrAdd e.1 n) d).obj a b = d.obj a b := by
    intro l
    induction l with
    | nil => intro _; rfl
    | cons e r ih => intro d; rw [List.foldl_cons, ih, ctrAdd_obj _ _ _ h h2]
  exact hf _ _

@[simp] theorem event_key (d : Dev) (bl co x n : Nat) : (d.event bl co x n).key = d.key := by rw [event_eq]
@[simp] theorem event_ses (d : Dev) (bl co x n : Nat) : (d.event bl co x n).ses = d.ses := by rw [event_eq]
@[simp] theorem hubEvent_key (d : Dev) (co x : Nat) : (d.hubEvent co x).key = d.key := event_key _ _ _ _ _
@[simp] theorem hubEvent_ses (d : Dev) (co x : Nat) : (d.hubEvent co x).ses = d.ses := event_ses _ _ _ _ _
theorem hubEvent_obj (d : Dev) (co x : Nat) {a b : Nat} (h : okey a b ≠ okey 0x8000 7) (h2 : okey a b ≠ okey 0xA000 0x0C) :
    (d.hubEvent co x).obj a b = d.obj a b := event_obj _ _ _ _ _ h h2

/-- A signal raised changes its ring and the signals. -/
theorem raiseSig_key (d : Dev) (r : Nat) : ∃ l, (d.raiseSig r).key = { d.key with signals := d.key.signals ++ l } := by
  simp only [Dev.raiseSig]
  split
  · split
    · exact ⟨[⟨r, d.tai⟩], by simp⟩
    · exact ⟨[], by simp⟩
  · exact ⟨[], by simp⟩

@[simp] theorem raiseSig_objs (d : Dev) (r : Nat) : (d.raiseSig r).objs = d.objs := by
  simp only [Dev.raiseSig]
  split
  · split
    · simp
    · rfl
  · rfl

@[simp] theorem raiseSig_part (d : Dev) (r : Nat) : (d.raiseSig r).part = d.part := by
  simp only [Dev.raiseSig]
  split
  · split
    · simp
    · rfl
  · rfl

theorem obj_congr {d e : Dev} (h : e.objs = d.objs) (hp : e.part = d.part) (a b : Nat) : e.obj a b = d.obj a b := by
  simp only [Dev.obj, h, hp]

/-- The reader's reads change the ring, its count of lost marks and what the ring's sessions send. -/
theorem readRecord_key (d : Dev) (r : Nat) : (d.readRecord r).key = d.key := by
  simp only [Dev.readRecord]
  split <;> simp

theorem readRecord_obj (d : Dev) (r : Nat) {a b : Nat} (h : okey a b ≠ okey (0x4100 + r) 0x0A) :
    (d.readRecord r).obj a b = d.obj a b := by
  simp only [Dev.readRecord]
  split
  · rfl
  · rw [obj_congr (setIng_objs _ _ _) (setIng_part _ _ _)]
    exact setObj_obj_ne _ _ h

/-- A record released: signals may follow, no other part of the keyway changes. -/
theorem takeRecord_key (d : Dev) (r : Nat) : ∃ l, (d.takeRecord r).key = { d.key with signals := d.key.signals ++ l } := by
  simp only [Dev.takeRecord]
  split
  · exact ⟨[], by simp⟩
  · split
    · obtain ⟨l, h⟩ := raiseSig_key _ r
      exact ⟨l, by rw [h]; simp⟩
    · exact ⟨[], by simp⟩

/-- A record released changes no object. -/
theorem takeRecord_obj (d : Dev) (r a b : Nat) : (d.takeRecord r).obj a b = d.obj a b := by
  simp only [Dev.takeRecord]
  split
  · rfl
  · split
    · rw [obj_congr (raiseSig_objs _ _) (raiseSig_part _ _), obj_congr (setIng_objs _ _ _) (setIng_part _ _ _)]
    · rfl

/-! ### No writer waits at a ring (R91) -/

theorem setIng_wait (d : Dev) (r : Nat) (x : InRing) (hx : x.wait = (d.ing r).wait) (n : Nat) :
    ((d.setIng r x).ing n).wait = (d.ing n).wait := by
  by_cases h : n = r
  · subst h; rw [setIng_ing, hx]
  · rw [setIng_ing_ne _ _ _ _ h]

theorem raiseSig_wait (d : Dev) (r n : Nat) : ((d.raiseSig r).ing n).wait = (d.ing n).wait := by
  simp only [Dev.raiseSig]
  split
  · split
    · exact (show ((d.setIng r _).ing n).wait = _ by apply setIng_wait; rfl)
    · rfl
  · rfl

theorem readRecord_wait (d : Dev) (r n : Nat) : ((d.readRecord r).ing n).wait = (d.ing n).wait := by
  simp only [Dev.readRecord]
  split
  · rfl
  · rw [setIng_wait (d.bumpBy _ _ _) r _ (by simp only []; rfl) n]; rfl

theorem takeRecord_wait (d : Dev) (r n : Nat) : ((d.takeRecord r).ing n).wait = (d.ing n).wait := by
  simp only [Dev.takeRecord]
  split
  · rfl
  · split
    · rw [raiseSig_wait]; apply setIng_wait; rfl
    · rfl

/-- With no writer that waits, a ring's writers have nothing to go on with. -/
theorem resume_none {d : Dev} {r : Nat} (h : (d.ing r).wait = none) : d.resume r = d := by
  simp [Dev.resume, h]

/-- What the release of turned-away records keeps, where no writer waits. -/
theorem settle_fold (P : Dev → Prop) (hr : ∀ d r, P d → P (d.readRecord r)) (ht : ∀ d r, P d → P (d.takeRecord r)) (d : Dev)
    (hw : ∀ r, (d.ing r).wait = none) (h : P d) : P d.settle := by
  have hf : ∀ (l : List (Nat × InRing)) (d : Dev), (∀ r, (d.ing r).wait = none) → P d → P (l.foldl (fun d (e : Nat × InRing) =>
      if d.turnedAway e.1 then ((d.readRecord e.1).takeRecord e.1).resume e.1 else d) d) := by
    intro l
    induction l with
    | nil => intro _ _ h; exact h
    | cons e r ih =>
      intro d hw h
      have hw2 : ∀ n, (((d.readRecord e.1).takeRecord e.1).ing n).wait = none := fun n => by
        rw [takeRecord_wait, readRecord_wait, hw]
      simp only [List.foldl_cons]
      split
      · rw [resume_none (hw2 _)]
        exact ih _ hw2 (ht _ _ (hr _ _ h))
      · exact ih _ hw h
  exact hf _ _ hw h

/-- Records released because the keyway turned them away: signals may follow, no other part of the keyway changes. -/
theorem settle_key (d : Dev) (hw : ∀ r, (d.ing r).wait = none) : ∃ l, d.settle.key = { d.key with signals := d.key.signals ++ l } := by
  refine settle_fold (fun e => ∃ l, e.key = { d.key with signals := d.key.signals ++ l }) ?_ ?_ d hw ⟨[], by simp⟩
  · intro e r ⟨l, h⟩
    exact ⟨l, by rw [readRecord_key, h]⟩
  · intro e r ⟨l, h⟩
    obtain ⟨m, hm⟩ := takeRecord_key e r
    exact ⟨l ++ m, by rw [hm, h]; simp⟩

/-- Records released change no object outside the rings' counts of lost marks. -/
theorem settle_obj (d : Dev) (hw : ∀ r, (d.ing r).wait = none) {a b : Nat} (h : ∀ r, okey a b ≠ okey (0x4100 + r) 0x0A) :
    d.settle.obj a b = d.obj a b :=
  settle_fold (fun e => e.obj a b = d.obj a b) (fun e r he => by rw [readRecord_obj _ _ (h r), he])
    (fun e r he => by rw [takeRecord_obj, he]) d hw rfl

theorem event_part (d : Dev) (bl co x n : Nat) : (d.event bl co x n).part = d.part := by rw [event_eq]

theorem readRecord_part (d : Dev) (r : Nat) : (d.readRecord r).part = d.part := by
  simp only [Dev.readRecord]
  split
  · rfl
  · rw [setIng_part]; rfl

theorem takeRecord_part (d : Dev) (r : Nat) : (d.takeRecord r).part = d.part := by
  simp only [Dev.takeRecord]
  split
  · rfl
  · split
    · rw [raiseSig_part, setIng_part]
    · rfl

theorem settle_part (d : Dev) (hw : ∀ r, (d.ing r).wait = none) : d.settle.part = d.part :=
  settle_fold (fun e => e.part = d.part) (fun e r h => by rw [readRecord_part, h]) (fun e r h => by rw [takeRecord_part, h]) d hw rfl

/-! ### A message turned away (R135) -/

@[simp] theorem countReject_key (d : Dev) (code : Nat) (t : Option Nat) : (d.countReject code t).key = d.key := by
  cases t <;> exact hubEvent_key _ _ _
@[simp] theorem countReject_ses (d : Dev) (code : Nat) (t : Option Nat) : (d.countReject code t).ses = d.ses := by
  cases t <;> exact hubEvent_ses _ _ _
@[simp] theorem countReject_part (d : Dev) (code : Nat) (t : Option Nat) : (d.countReject code t).part = d.part := by
  cases t <;> exact event_part _ _ _ _ _

/-- The counts of a message turned away leave every other object as it was. -/
theorem countReject_obj (d : Dev) (code : Nat) (t : Option Nat) {a b : Nat} (h1 : okey a b ≠ okey 0x8000 7)
    (h2 : okey a b ≠ okey 0xA000 0x0C) (h3 : ∀ n, okey a b ≠ okey (0x3100 + n) 7) :
    (d.countReject code t).obj a b = ((d.bump 0x3000 3).bump 0x3010 code).obj a b := by
  cases t with
  | none => exact hubEvent_obj _ _ _ h1 h2
  | some n => exact (bump_obj_ne _ (h3 n)).trans (hubEvent_obj _ _ _ h1 h2)

/-- A message turned away, where no writer waits at a ring: the reject lane takes it, and no other part of the keyway changes
but the signals. -/
theorem rejectMsg_key (d : Dev) (c : Desc) (r code rt : Nat) (t : Option Nat) (hw : ∀ r, (d.ing r).wait = none) :
    ∃ l, (d.rejectMsg c r code rt t).key = { d.key with
      rejects := d.key.rejects ++ [(d.countReject code t).rejectOf c r code rt], signals := d.key.signals ++ l } := by
  obtain ⟨l, h⟩ := settle_key ({ d.countReject code t with key := { (d.countReject code t).key with
    rejects := (d.countReject code t).key.rejects ++ [(d.countReject code t).rejectOf c r code rt] } })
    (by intro n; show ((d.countReject code t).ing n).wait = none; rw [← hw n, Dev.ing, countReject_ses]; rfl)
  refine ⟨l, ?_⟩
  rw [Dev.rejectMsg, h, countReject_key]

/-- It changes no object but the counts of messages turned away, and the rings' counts of lost marks. -/
theorem rejectMsg_obj (d : Dev) (c : Desc) (r code rt : Nat) (t : Option Nat) (hw : ∀ r, (d.ing r).wait = none) {a b : Nat}
    (h : ∀ r, okey a b ≠ okey (0x4100 + r) 0x0A) : (d.rejectMsg c r code rt t).obj a b = (d.countReject code t).obj a b :=
  settle_obj _ (by intro n; show ((d.countReject code t).ing n).wait = none; rw [← hw n, Dev.ing, countReject_ses]; rfl) h

theorem rejectMsg_part (d : Dev) (c : Desc) (r code rt : Nat) (t : Option Nat) (hw : ∀ r, (d.ing r).wait = none) :
    (d.rejectMsg c r code rt t).part = d.part := by
  refine (settle_part _ ?_).trans (countReject_part d code t)
  intro n
  show ((d.countReject code t).ing n).wait = none
  rw [← hw n, Dev.ing, countReject_ses]; rfl

/-- A decision while admission is closed to all turns the message away with code 0x01 (R134). -/
theorem decide_closed (d : Dev) (c : Desc) (r : Nat) (h : (d.noteLate c).keyClosed = true) :
    ∃ rt t, d.decide_ c r = (d.noteLate c).rejectMsg c r 0x01 rt t :=
  ⟨(d.noteLate c).rejectTpl c (d.chosenTpl c), d.chosenTpl c, by unfold Dev.decide_ Dev.decideNow; rw [if_pos h]⟩

/-- What the keyway needs to know whether it is closed to all: two objects, and the journal, faults and power. -/
theorem keyClosed_congr {d e : Dev} (h1 : e.obj 0x3000 1 = d.obj 0x3000 1) (h2 : e.obj 0xB002 1 = d.obj 0xB002 1)
    (h3 : e.part = d.part) (h4 : e.jnl = d.jnl) (h5 : e.flt = d.flt) (h6 : e.pwr = d.pwr) : e.keyClosed = d.keyClosed := by
  simp only [Dev.keyClosed, Dev.flag, Dev.held, Dev.deadbolt, Dev.hbmUp, Dev.stacks, Dev.xs, h1, h2, h3, h4, h5, h6]

/-- A late decision noted changes two objects. -/
theorem noteLate_objs (d : Dev) (c : Desc) : d.noteLate c = { d with objs := (d.noteLate c).objs } := by
  unfold Dev.noteLate Dev.lateBy
  generalize (if (d.chosenTpl c).isSome then d.lateness c else 0) = late
  split
  · rfl
  · unfold Dev.peak
    split <;> rfl

theorem noteLate_obj (d : Dev) (c : Desc) {a b : Nat} (h1 : okey a b ≠ okey 0x3000 5) (h2 : okey a b ≠ okey 0x3000 6) :
    (d.noteLate c).obj a b = d.obj a b := by
  unfold Dev.noteLate Dev.lateBy
  generalize (if (d.chosenTpl c).isSome then d.lateness c else 0) = late
  split
  · rfl
  · unfold Dev.peak
    split
    · rw [setObj_obj_ne _ _ h2, bump_obj_ne _ h1]
    · rw [bump_obj_ne _ h1]

theorem noteLate_keyClosed (d : Dev) (c : Desc) : (d.noteLate c).keyClosed = d.keyClosed := by
  refine keyClosed_congr (noteLate_obj d c (by decide) (by decide)) (noteLate_obj d c (by decide) (by decide)) ?_ ?_ ?_ ?_ <;>
    rw [noteLate_objs]

/-- The head descriptor changed: a ring, and flow control. -/
theorem modHead_ses (d : Dev) (r : Nat) (f : Desc → Desc) : d.modHead r f = { d with ses := (d.modHead r f).ses } := by
  unfold Dev.modHead
  split
  · rw [setIng_eq]
  · rfl

theorem setIng_ses (d : Dev) (r : Nat) (x : InRing) : d.setIng r x = { d with ses := (d.setIng r x).ses } := by
  rw [setIng_eq]

/-- The first cell read: a ring, and flow control. -/
theorem readFirst_eq (d : Dev) (r : Nat) : d.readFirst r = { d with ses := (d.readFirst r).ses } := by
  unfold Dev.readFirst
  dsimp only
  rw [modHead_ses]
  generalize (Dev.ses (Dev.modHead _ _ _)) = y
  rw [setIng_ses]

theorem modHead_wait (d : Dev) (r : Nat) (f : Desc → Desc) (n : Nat) : ((d.modHead r f).ing n).wait = (d.ing n).wait := by
  unfold Dev.modHead
  split
  · apply setIng_wait; rfl
  · rfl

theorem readFirst_wait (d : Dev) (r n : Nat) : ((d.readFirst r).ing n).wait = (d.ing n).wait := by
  unfold Dev.readFirst
  dsimp only
  rw [modHead_wait]
  generalize (match sqReadMarked _ _ with | some (_, q, _) => sqRewind q | none => (d.ing r).q) = q
  apply setIng_wait; rfl

end Sys2Proof.Machine
end

