-- ==== Sys2Proof/Laws/Front.lean ====
section
/-! SUPPORT. What a dictionary request comes to (R374–R376): one lemma for a request that the ward applies, one for a write
that is a row of the command table. -/

namespace Sys2Proof.Machine

/-- What is hard-wired plays no part in an answer. -/
theorem answers_fused {d e : Dev} (h : d.answers e) (w : Dev) : (d.fused w).answers e :=
  congrArg (fun x => Dev.fused x w) h

/-- `reply` changes the ring's outgoing frames and sequence number, or the host frames. -/
theorem reply_eq (d : Dev) (se sq : Nat) (w : WSes) (pl : List Byte) :
    d.reply se sq w pl = { d with rng := { d.rng with seq := (d.reply se sq w pl).rng.seq, out := (d.reply se sq w pl).rng.out },
                                  lnk := { d.lnk with frames := (d.reply se sq w pl).lnk.frames } } := by
  unfold Dev.reply Dev.frameTo
  split <;> rfl

/-- A request that the ward applies: its effect, and an answer that changes nothing more. -/
theorem request_admits {d : Dev} {r : DReq} {ro : Role} {e : Dev} (h : d.admits r = some (ro, e)) (eff : Role → Dev → Acc) :
    (d.request r eff).answers (eff ro e).dev := by
  unfold Dev.admits at h
  split at h
  · cases h
  · rename_i hu
    split at h
    · rename_i hw
      simp only [Option.some.injEq, Prod.mk.injEq] at h
      obtain ⟨rfl, rfl⟩ := h
      unfold Dev.request
      simp only [hu, hw, if_true]
      rfl
    · rename_i hw
      split at h
      · cases h
      · rename_i w hs
        split at h
        · cases h
        · rename_i hc
          simp only [Option.some.injEq, Prod.mk.injEq] at h
          obtain ⟨rfl, rfl⟩ := h
          simp only [Bool.or_eq_true, decide_eq_true_eq, Bool.and_eq_true, Bool.not_eq_true', not_or, not_and,
            Bool.not_eq_false] at hc
          obtain ⟨⟨⟨h1, h2⟩, h3⟩, h4⟩ := hc
          have hf : w.done.find? (fun x => x.1 == r.seq) = none := by
            rw [List.find?_eq_none]
            intro x hx hs
            exact h3 (List.any_eq_true.2 ⟨x, hx, hs⟩)
          unfold Dev.request
          simp only [hu, hw, hs, h1, h2, hf, if_false, decide_false, Bool.not_true, Bool.or_self, Bool.false_eq_true]
          split
          · rename_i h5
            simp only [Bool.and_eq_true, decide_eq_true_eq, Bool.not_eq_true'] at h5
            rw [h4 h5.1] at h5; simp at h5
          · unfold Dev.answers
            rw [reply_eq]

/-- A write of a row that the ward applies: its effect, and an answer that changes nothing more. -/
theorem command_grants {d : Dev} {r : DReq} {row : WRow} {ro : Role} {e : Dev} (h : d.grants r row = some (ro, e))
    (eff : Role → Nat → Dev → Dev) : (d.command r row eff).answers (eff ro (reqValue r) e) := by
  unfold Dev.grants at h
  split at h
  · rename_i hr
    split at h
    · rename_i ro' e' o ha ho
      split at h
      · rename_i hc
        simp only [Option.some.injEq, Prod.mk.injEq] at h
        obtain ⟨rfl, rfl⟩ := h
        simp only [Bool.and_eq_true, beq_iff_eq, Bool.not_eq_true', Bool.and_eq_false_imp, decide_eq_false_iff_not] at hc
        obtain ⟨⟨h1, h2⟩, h3⟩ := hc
        have hp : e'.part = d.part := by
          unfold Dev.admits at ha
          split at ha
          · cases ha
          · split at ha
            · simp only [Option.some.injEq, Prod.mk.injEq] at ha; rw [← ha.2]
            · split at ha
              · cases ha
              · split at ha
                · cases ha
                · simp only [Option.some.injEq, Prod.mk.injEq] at ha; rw [← ha.2]
        have := request_admits ha (fun ro d => d.writeAcc r ro eff)
        unfold Dev.command
        simp only [hr, decide_true, Bool.and_self, if_true]
        have hw : (e'.writeAcc r ro' eff).dev = eff ro' (reqValue r) e' := by
          unfold Dev.writeAcc
          rw [hp, ho]
          simp only [h1, h2, Bool.not_true, Bool.false_eq_true, if_false, ne_eq, not_true_eq_false]
          split
          · rename_i h4
            exfalso
            simp only [Bool.and_eq_true, decide_eq_true_eq] at h4
            exact h3 h4.1 h4.2
          · rfl
        rw [hw] at this
        exact this
      · cases h
    · cases h
  · cases h

/-- A command that is a dictionary write of a row has the effect of that row. -/
theorem writes_of {c : DReq → Instr} {row : WRow} {P : Role → DReq → Dev → Dev → Prop}
    (eff : DReq → Role → Nat → Dev → Dev) (hx : ∀ r s, exec (c r) s = s.act (fun d => d.command r row (eff r)))
    (hp : ∀ ro r d, P ro r d (eff r ro (reqValue r) d)) : Writes c row P := by
  intro s r
  refine ⟨fun ro d h => ⟨_, hx r s, eff r ro (reqValue r) d, hp _ _ _, ?_⟩, fun h => ?_⟩
  · exact answers_fused (command_grants h (eff r)) s.dev
  · rw [hx, act_next]
    have : s.dev.command r row (eff r) = s.dev := by
      unfold Dev.command
      rcases h with h | h <;> simp [h]
    rw [this]; rfl

end Sys2Proof.Machine
end

