-- ==== Sys2Proof/Laws/Requests.lean ====
section
/-! SUPPORT. What a command that carries a dictionary request comes to, and what the ward does with a request that it does not
apply. -/

namespace Sys2Proof.Machine

/-- A command that is a write of a row leaves the block as it was, or is a request that writes. -/
theorem command_or (r : DReq) (s : State) (row : WRow) (eff : Role → Nat → Dev → Dev) :
    s.act (fun d => d.command r row eff) = s.act (fun d => d) ∨ ∃ ef, s.act (fun d => d.command r row eff) = s.act (fun d => d.request r ef)
      ∧ (r.op = 2 → ∃ e2, ef = fun ro d => d.writeAcc r ro e2) := by
  by_cases h : (decide (r.op = 2) && decide (s.dev.rowOf r = row)) = true
  · refine .inr ⟨fun ro d => d.writeAcc r ro eff, ?_, fun _ => ⟨_, rfl⟩⟩
    rw [act_next, act_next]; unfold Dev.command; rw [if_pos h]
  · refine .inl ?_
    rw [act_next, act_next]; unfold Dev.command; rw [if_neg h]

/-- A command that is a request of one `OP` leaves the block as it was, or is that request. -/
theorem onOp_or (r : DReq) (s : State) (op : Nat) (f : Dev → DReq → Role → Acc) (ho : op ≠ 2) :
    s.act (fun d => d.onOp r op f) = s.act (fun d => d) ∨ ∃ ef, s.act (fun d => d.onOp r op f) = s.act (fun d => d.request r ef)
      ∧ (r.op = 2 → ∃ e2, ef = fun ro d => d.writeAcc r ro e2) := by
  by_cases h : r.op = op
  · refine .inr ⟨fun ro d => f d r ro, ?_, fun h2 => absurd (h.symm.trans h2) ho⟩
    rw [act_next, act_next]; unfold Dev.onOp; rw [if_pos h]
  · refine .inl ?_
    rw [act_next, act_next]; unfold Dev.onOp; rw [if_neg h]

/-- A command that carries a request leaves the block as it was, or is that request; one of `OP` 2 writes. -/
theorem exec_asked {c : Instr} {r : DReq} (h : asked c = some r) (hc : c ≠ .transferBegin r) (s : State) :
    exec c s = s.act (fun d => d) ∨ ∃ ef, exec c s = s.act (fun d => d.request r ef)
      ∧ (r.op = 2 → ∃ e2, ef = fun ro d => d.writeAcc r ro e2) := by
  cases c <;> simp only [asked, Option.some.injEq, reduceCtorEq] at h <;> subst h <;> first
    | exact command_or _ s _ _
    | (refine onOp_or _ s _ _ (by decide))
    | (exact absurd rfl hc)
    | skip
  · rename_i r
    rw [exec_dictRead]; rw [act_next, act_next]; unfold Dev.dictRead
    by_cases h1 : r.op = 1
    · have : ¬ r.op = 2 := by omega
      cases h2 : isCtrRead r
      · by_cases h3 : r.idx = 0
        · refine .inr ⟨(fun _ d => ⟨0, [], { d with wrd := d.wrd.closeSession r.sess }⟩), ?_, fun h => absurd h this⟩; simp [h1, h3]; rw [act_next]
        · refine .inr ⟨(fun ro d => d.readAcc r ro), ?_, fun h => absurd h this⟩; simp [h1, h3]; rw [act_next]
      · left; simp
    · left; simp [h1]
  · rename_i r
    rw [exec_cntValueRead]; rw [act_next, act_next]; unfold Dev.cntRead
    cases h2 : isCtrRead r
    · left; simp
    · have h1 : r.op = 1 := by simp [isCtrRead] at h2; exact h2.1.1.1
      have : ¬ r.op = 2 := by omega
      refine .inr ⟨(fun ro d => d.ctrRead r ro), ?_, fun h => absurd h this⟩; simp; rw [act_next]

/-- A request that is not authenticated is discarded. -/
theorem request_unauthenticated {d : Dev} {r : DReq} (h1 : d.wardUp = true) (h2 : r.sess ≠ wardSes)
    (h3 : ∀ w, tget? d.wrd.sessions r.sess = some w → w.stage ≠ .opened ∨ d.macOk w r = false) (ef : Role → Dev → Acc) :
    d.request r ef = d.discardReq r.sess := by
  unfold Dev.request
  simp only [h1, h2, if_false, Bool.not_true, Bool.false_eq_true]
  cases hs : tget? d.wrd.sessions r.sess with
  | none => rfl
  | some w => rcases h3 w hs with h | h <;> simp [h]

/-- The block as a request finds it has the same configuration. -/
theorem admits_part {d : Dev} {r : DReq} {ro : Role} {e : Dev} (h : d.admits r = some (ro, e)) : e.part = d.part := by
  unfold Dev.admits at h
  split at h
  · cases h
  · split at h
    · simp only [Option.some.injEq, Prod.mk.injEq] at h; rw [← h.2]
    · split at h
      · cases h
      · split at h
        · cases h
        · simp only [Option.some.injEq, Prod.mk.injEq] at h; rw [← h.2]

/-- A write without the right counts against the role. -/
theorem request_no_right {d e : Dev} {r : DReq} {ro : Role} {o : ORow} (h : d.admits r = some (ro, e)) (ho : objRow d.part r.idx r.sub = some o)
    (hw : o.mayWrite ro = false) (e2) : (d.request r (fun ro d => d.writeAcc r ro e2)).answers (e.bump 0xC400 (roleNum ro + 1)) := by
  have := request_admits h (fun ro d => d.writeAcc r ro e2)
  have hp := admits_part h
  have h9 : (e.writeAcc r ro e2).dev = e.bump 0xC400 (roleNum ro + 1) := by
    unfold Dev.writeAcc; rw [hp, ho]; simp [hw, Dev.roleViolation]
  simpa [h9] using this

end Sys2Proof.Machine
end

