-- ==== Sys2Proof/Laws/State.lean ====
section
/-! SUPPORT. What an update of one part of the block leaves as it was: one lemma for each operation that sets one part, and each
field of the block that it does not set, true by definition. -/

namespace Sys2Proof.Machine

@[simp] theorem setObj_part (d : Dev) (idx sub v : Nat) :
    (d.setObj idx sub v).part = d.part := rfl
@[simp] theorem setObj_ident (d : Dev) (idx sub v : Nat) :
    (d.setObj idx sub v).ident = d.ident := rfl
@[simp] theorem setObj_up (d : Dev) (idx sub v : Nat) :
    (d.setObj idx sub v).up = d.up := rfl
@[simp] theorem setObj_tai (d : Dev) (idx sub v : Nat) :
    (d.setObj idx sub v).tai = d.tai := rfl
@[simp] theorem setObj_free (d : Dev) (idx sub v : Nat) :
    (d.setObj idx sub v).free = d.free := rfl
@[simp] theorem setObj_fab (d : Dev) (idx sub v : Nat) :
    (d.setObj idx sub v).fab = d.fab := rfl
@[simp] theorem setObj_mem (d : Dev) (idx sub v : Nat) :
    (d.setObj idx sub v).mem = d.mem := rfl
@[simp] theorem setObj_hasp (d : Dev) (idx sub v : Nat) :
    (d.setObj idx sub v).hasp = d.hasp := rfl
@[simp] theorem setObj_key (d : Dev) (idx sub v : Nat) :
    (d.setObj idx sub v).key = d.key := rfl
@[simp] theorem setObj_flt (d : Dev) (idx sub v : Nat) :
    (d.setObj idx sub v).flt = d.flt := rfl
@[simp] theorem setObj_perf (d : Dev) (idx sub v : Nat) :
    (d.setObj idx sub v).perf = d.perf := rfl
@[simp] theorem setObj_ses (d : Dev) (idx sub v : Nat) :
    (d.setObj idx sub v).ses = d.ses := rfl
@[simp] theorem setObj_cry (d : Dev) (idx sub v : Nat) :
    (d.setObj idx sub v).cry = d.cry := rfl
@[simp] theorem setObj_jnl (d : Dev) (idx sub v : Nat) :
    (d.setObj idx sub v).jnl = d.jnl := rfl
@[simp] theorem setObj_tb (d : Dev) (idx sub v : Nat) :
    (d.setObj idx sub v).tb = d.tb := rfl
@[simp] theorem setObj_lnk (d : Dev) (idx sub v : Nat) :
    (d.setObj idx sub v).lnk = d.lnk := rfl
@[simp] theorem setObj_wrd (d : Dev) (idx sub v : Nat) :
    (d.setObj idx sub v).wrd = d.wrd := rfl
@[simp] theorem setObj_rng (d : Dev) (idx sub v : Nat) :
    (d.setObj idx sub v).rng = d.rng := rfl
@[simp] theorem setObj_pwr (d : Dev) (idx sub v : Nat) :
    (d.setObj idx sub v).pwr = d.pwr := rfl
@[simp] theorem report_part (d : Dev) (src loc : Nat) :
    (d.report src loc).part = d.part := rfl
@[simp] theorem report_ident (d : Dev) (src loc : Nat) :
    (d.report src loc).ident = d.ident := rfl
@[simp] theorem report_up (d : Dev) (src loc : Nat) :
    (d.report src loc).up = d.up := rfl
@[simp] theorem report_tai (d : Dev) (src loc : Nat) :
    (d.report src loc).tai = d.tai := rfl
@[simp] theorem report_free (d : Dev) (src loc : Nat) :
    (d.report src loc).free = d.free := rfl
@[simp] theorem report_objs (d : Dev) (src loc : Nat) :
    (d.report src loc).objs = d.objs := rfl
@[simp] theorem report_fab (d : Dev) (src loc : Nat) :
    (d.report src loc).fab = d.fab := rfl
@[simp] theorem report_mem (d : Dev) (src loc : Nat) :
    (d.report src loc).mem = d.mem := rfl
@[simp] theorem report_hasp (d : Dev) (src loc : Nat) :
    (d.report src loc).hasp = d.hasp := rfl
@[simp] theorem report_key (d : Dev) (src loc : Nat) :
    (d.report src loc).key = d.key := rfl
@[simp] theorem report_perf (d : Dev) (src loc : Nat) :
    (d.report src loc).perf = d.perf := rfl
@[simp] theorem report_ses (d : Dev) (src loc : Nat) :
    (d.report src loc).ses = d.ses := rfl
@[simp] theorem report_cry (d : Dev) (src loc : Nat) :
    (d.report src loc).cry = d.cry := rfl
@[simp] theorem report_jnl (d : Dev) (src loc : Nat) :
    (d.report src loc).jnl = d.jnl := rfl
@[simp] theorem report_tb (d : Dev) (src loc : Nat) :
    (d.report src loc).tb = d.tb := rfl
@[simp] theorem report_lnk (d : Dev) (src loc : Nat) :
    (d.report src loc).lnk = d.lnk := rfl
@[simp] theorem report_wrd (d : Dev) (src loc : Nat) :
    (d.report src loc).wrd = d.wrd := rfl
@[simp] theorem report_rng (d : Dev) (src loc : Nat) :
    (d.report src loc).rng = d.rng := rfl
@[simp] theorem report_pwr (d : Dev) (src loc : Nat) :
    (d.report src loc).pwr = d.pwr := rfl
@[simp] theorem setLife_part (d : Dev) (l : Life) :
    (d.setLife l).part = d.part := rfl
@[simp] theorem setLife_ident (d : Dev) (l : Life) :
    (d.setLife l).ident = d.ident := rfl
@[simp] theorem setLife_up (d : Dev) (l : Life) :
    (d.setLife l).up = d.up := rfl
@[simp] theorem setLife_tai (d : Dev) (l : Life) :
    (d.setLife l).tai = d.tai := rfl
@[simp] theorem setLife_free (d : Dev) (l : Life) :
    (d.setLife l).free = d.free := rfl
@[simp] theorem setLife_objs (d : Dev) (l : Life) :
    (d.setLife l).objs = d.objs := rfl
@[simp] theorem setLife_fab (d : Dev) (l : Life) :
    (d.setLife l).fab = d.fab := rfl
@[simp] theorem setLife_mem (d : Dev) (l : Life) :
    (d.setLife l).mem = d.mem := rfl
@[simp] theorem setLife_hasp (d : Dev) (l : Life) :
    (d.setLife l).hasp = d.hasp := rfl
@[simp] theorem setLife_flt (d : Dev) (l : Life) :
    (d.setLife l).flt = d.flt := rfl
@[simp] theorem setLife_perf (d : Dev) (l : Life) :
    (d.setLife l).perf = d.perf := rfl
@[simp] theorem setLife_ses (d : Dev) (l : Life) :
    (d.setLife l).ses = d.ses := rfl
@[simp] theorem setLife_cry (d : Dev) (l : Life) :
    (d.setLife l).cry = d.cry := rfl
@[simp] theorem setLife_jnl (d : Dev) (l : Life) :
    (d.setLife l).jnl = d.jnl := rfl
@[simp] theorem setLife_tb (d : Dev) (l : Life) :
    (d.setLife l).tb = d.tb := rfl
@[simp] theorem setLife_lnk (d : Dev) (l : Life) :
    (d.setLife l).lnk = d.lnk := rfl
@[simp] theorem setLife_wrd (d : Dev) (l : Life) :
    (d.setLife l).wrd = d.wrd := rfl
@[simp] theorem setLife_rng (d : Dev) (l : Life) :
    (d.setLife l).rng = d.rng := rfl
@[simp] theorem setLife_pwr (d : Dev) (l : Life) :
    (d.setLife l).pwr = d.pwr := rfl
@[simp] theorem modPos_part (d : Dev) (p : Nat) (f : Pos → Pos) :
    (d.modPos p f).part = d.part := rfl
@[simp] theorem modPos_ident (d : Dev) (p : Nat) (f : Pos → Pos) :
    (d.modPos p f).ident = d.ident := rfl
@[simp] theorem modPos_up (d : Dev) (p : Nat) (f : Pos → Pos) :
    (d.modPos p f).up = d.up := rfl
@[simp] theorem modPos_tai (d : Dev) (p : Nat) (f : Pos → Pos) :
    (d.modPos p f).tai = d.tai := rfl
@[simp] theorem modPos_free (d : Dev) (p : Nat) (f : Pos → Pos) :
    (d.modPos p f).free = d.free := rfl
@[simp] theorem modPos_objs (d : Dev) (p : Nat) (f : Pos → Pos) :
    (d.modPos p f).objs = d.objs := rfl
@[simp] theorem modPos_mem (d : Dev) (p : Nat) (f : Pos → Pos) :
    (d.modPos p f).mem = d.mem := rfl
@[simp] theorem modPos_hasp (d : Dev) (p : Nat) (f : Pos → Pos) :
    (d.modPos p f).hasp = d.hasp := rfl
@[simp] theorem modPos_key (d : Dev) (p : Nat) (f : Pos → Pos) :
    (d.modPos p f).key = d.key := rfl
@[simp] theorem modPos_flt (d : Dev) (p : Nat) (f : Pos → Pos) :
    (d.modPos p f).flt = d.flt := rfl
@[simp] theorem modPos_perf (d : Dev) (p : Nat) (f : Pos → Pos) :
    (d.modPos p f).perf = d.perf := rfl
@[simp] theorem modPos_ses (d : Dev) (p : Nat) (f : Pos → Pos) :
    (d.modPos p f).ses = d.ses := rfl
@[simp] theorem modPos_cry (d : Dev) (p : Nat) (f : Pos → Pos) :
    (d.modPos p f).cry = d.cry := rfl
@[simp] theorem modPos_jnl (d : Dev) (p : Nat) (f : Pos → Pos) :
    (d.modPos p f).jnl = d.jnl := rfl
@[simp] theorem modPos_tb (d : Dev) (p : Nat) (f : Pos → Pos) :
    (d.modPos p f).tb = d.tb := rfl
@[simp] theorem modPos_lnk (d : Dev) (p : Nat) (f : Pos → Pos) :
    (d.modPos p f).lnk = d.lnk := rfl
@[simp] theorem modPos_wrd (d : Dev) (p : Nat) (f : Pos → Pos) :
    (d.modPos p f).wrd = d.wrd := rfl
@[simp] theorem modPos_rng (d : Dev) (p : Nat) (f : Pos → Pos) :
    (d.modPos p f).rng = d.rng := rfl
@[simp] theorem modPos_pwr (d : Dev) (p : Nat) (f : Pos → Pos) :
    (d.modPos p f).pwr = d.pwr := rfl
@[simp] theorem wardIrq_part (d : Dev) (i : Nat) :
    (d.wardIrq i).part = d.part := rfl
@[simp] theorem wardIrq_ident (d : Dev) (i : Nat) :
    (d.wardIrq i).ident = d.ident := rfl
@[simp] theorem wardIrq_up (d : Dev) (i : Nat) :
    (d.wardIrq i).up = d.up := rfl
@[simp] theorem wardIrq_tai (d : Dev) (i : Nat) :
    (d.wardIrq i).tai = d.tai := rfl
@[simp] theorem wardIrq_free (d : Dev) (i : Nat) :
    (d.wardIrq i).free = d.free := rfl
@[simp] theorem wardIrq_objs (d : Dev) (i : Nat) :
    (d.wardIrq i).objs = d.objs := rfl
@[simp] theorem wardIrq_fab (d : Dev) (i : Nat) :
    (d.wardIrq i).fab = d.fab := rfl
@[simp] theorem wardIrq_mem (d : Dev) (i : Nat) :
    (d.wardIrq i).mem = d.mem := rfl
@[simp] theorem wardIrq_hasp (d : Dev) (i : Nat) :
    (d.wardIrq i).hasp = d.hasp := rfl
@[simp] theorem wardIrq_key (d : Dev) (i : Nat) :
    (d.wardIrq i).key = d.key := rfl
@[simp] theorem wardIrq_flt (d : Dev) (i : Nat) :
    (d.wardIrq i).flt = d.flt := rfl
@[simp] theorem wardIrq_perf (d : Dev) (i : Nat) :
    (d.wardIrq i).perf = d.perf := rfl
@[simp] theorem wardIrq_ses (d : Dev) (i : Nat) :
    (d.wardIrq i).ses = d.ses := rfl
@[simp] theorem wardIrq_cry (d : Dev) (i : Nat) :
    (d.wardIrq i).cry = d.cry := rfl
@[simp] theorem wardIrq_jnl (d : Dev) (i : Nat) :
    (d.wardIrq i).jnl = d.jnl := rfl
@[simp] theorem wardIrq_tb (d : Dev) (i : Nat) :
    (d.wardIrq i).tb = d.tb := rfl
@[simp] theorem wardIrq_lnk (d : Dev) (i : Nat) :
    (d.wardIrq i).lnk = d.lnk := rfl
@[simp] theorem wardIrq_rng (d : Dev) (i : Nat) :
    (d.wardIrq i).rng = d.rng := rfl
@[simp] theorem wardIrq_pwr (d : Dev) (i : Nat) :
    (d.wardIrq i).pwr = d.pwr := rfl
@[simp] theorem slotAdd_part (d : Dev) (pos cat n : Nat) :
    (d.slotAdd pos cat n).part = d.part := rfl
@[simp] theorem slotAdd_ident (d : Dev) (pos cat n : Nat) :
    (d.slotAdd pos cat n).ident = d.ident := rfl
@[simp] theorem slotAdd_up (d : Dev) (pos cat n : Nat) :
    (d.slotAdd pos cat n).up = d.up := rfl
@[simp] theorem slotAdd_tai (d : Dev) (pos cat n : Nat) :
    (d.slotAdd pos cat n).tai = d.tai := rfl
@[simp] theorem slotAdd_free (d : Dev) (pos cat n : Nat) :
    (d.slotAdd pos cat n).free = d.free := rfl
@[simp] theorem slotAdd_objs (d : Dev) (pos cat n : Nat) :
    (d.slotAdd pos cat n).objs = d.objs := rfl
@[simp] theorem slotAdd_fab (d : Dev) (pos cat n : Nat) :
    (d.slotAdd pos cat n).fab = d.fab := rfl
@[simp] theorem slotAdd_mem (d : Dev) (pos cat n : Nat) :
    (d.slotAdd pos cat n).mem = d.mem := rfl
@[simp] theorem slotAdd_hasp (d : Dev) (pos cat n : Nat) :
    (d.slotAdd pos cat n).hasp = d.hasp := rfl
@[simp] theorem slotAdd_key (d : Dev) (pos cat n : Nat) :
    (d.slotAdd pos cat n).key = d.key := rfl
@[simp] theorem slotAdd_flt (d : Dev) (pos cat n : Nat) :
    (d.slotAdd pos cat n).flt = d.flt := rfl
@[simp] theorem slotAdd_ses (d : Dev) (pos cat n : Nat) :
    (d.slotAdd pos cat n).ses = d.ses := rfl
@[simp] theorem slotAdd_cry (d : Dev) (pos cat n : Nat) :
    (d.slotAdd pos cat n).cry = d.cry := rfl
@[simp] theorem slotAdd_jnl (d : Dev) (pos cat n : Nat) :
    (d.slotAdd pos cat n).jnl = d.jnl := rfl
@[simp] theorem slotAdd_tb (d : Dev) (pos cat n : Nat) :
    (d.slotAdd pos cat n).tb = d.tb := rfl
@[simp] theorem slotAdd_lnk (d : Dev) (pos cat n : Nat) :
    (d.slotAdd pos cat n).lnk = d.lnk := rfl
@[simp] theorem slotAdd_wrd (d : Dev) (pos cat n : Nat) :
    (d.slotAdd pos cat n).wrd = d.wrd := rfl
@[simp] theorem slotAdd_rng (d : Dev) (pos cat n : Nat) :
    (d.slotAdd pos cat n).rng = d.rng := rfl
@[simp] theorem slotAdd_pwr (d : Dev) (pos cat n : Nat) :
    (d.slotAdd pos cat n).pwr = d.pwr := rfl
@[simp] theorem dropSlot_part (d : Dev) (i : Nat) :
    (d.dropSlot i).part = d.part := rfl
@[simp] theorem dropSlot_ident (d : Dev) (i : Nat) :
    (d.dropSlot i).ident = d.ident := rfl
@[simp] theorem dropSlot_up (d : Dev) (i : Nat) :
    (d.dropSlot i).up = d.up := rfl
@[simp] theorem dropSlot_tai (d : Dev) (i : Nat) :
    (d.dropSlot i).tai = d.tai := rfl
@[simp] theorem dropSlot_free (d : Dev) (i : Nat) :
    (d.dropSlot i).free = d.free := rfl
@[simp] theorem dropSlot_objs (d : Dev) (i : Nat) :
    (d.dropSlot i).objs = d.objs := rfl
@[simp] theorem dropSlot_fab (d : Dev) (i : Nat) :
    (d.dropSlot i).fab = d.fab := rfl
@[simp] theorem dropSlot_mem (d : Dev) (i : Nat) :
    (d.dropSlot i).mem = d.mem := rfl
@[simp] theorem dropSlot_key (d : Dev) (i : Nat) :
    (d.dropSlot i).key = d.key := rfl
@[simp] theorem dropSlot_flt (d : Dev) (i : Nat) :
    (d.dropSlot i).flt = d.flt := rfl
@[simp] theorem dropSlot_perf (d : Dev) (i : Nat) :
    (d.dropSlot i).perf = d.perf := rfl
@[simp] theorem dropSlot_ses (d : Dev) (i : Nat) :
    (d.dropSlot i).ses = d.ses := rfl
@[simp] theorem dropSlot_cry (d : Dev) (i : Nat) :
    (d.dropSlot i).cry = d.cry := rfl
@[simp] theorem dropSlot_jnl (d : Dev) (i : Nat) :
    (d.dropSlot i).jnl = d.jnl := rfl
@[simp] theorem dropSlot_tb (d : Dev) (i : Nat) :
    (d.dropSlot i).tb = d.tb := rfl
@[simp] theorem dropSlot_lnk (d : Dev) (i : Nat) :
    (d.dropSlot i).lnk = d.lnk := rfl
@[simp] theorem dropSlot_wrd (d : Dev) (i : Nat) :
    (d.dropSlot i).wrd = d.wrd := rfl
@[simp] theorem dropSlot_rng (d : Dev) (i : Nat) :
    (d.dropSlot i).rng = d.rng := rfl
@[simp] theorem dropSlot_pwr (d : Dev) (i : Nat) :
    (d.dropSlot i).pwr = d.pwr := rfl
@[simp] theorem freeIdx_part (d : Dev) (i : Nat) :
    (d.freeIdx i).part = d.part := rfl
@[simp] theorem freeIdx_ident (d : Dev) (i : Nat) :
    (d.freeIdx i).ident = d.ident := rfl
@[simp] theorem freeIdx_up (d : Dev) (i : Nat) :
    (d.freeIdx i).up = d.up := rfl
@[simp] theorem freeIdx_tai (d : Dev) (i : Nat) :
    (d.freeIdx i).tai = d.tai := rfl
@[simp] theorem freeIdx_free (d : Dev) (i : Nat) :
    (d.freeIdx i).free = d.free := rfl
@[simp] theorem freeIdx_objs (d : Dev) (i : Nat) :
    (d.freeIdx i).objs = d.objs := rfl
@[simp] theorem freeIdx_mem (d : Dev) (i : Nat) :
    (d.freeIdx i).mem = d.mem := rfl
@[simp] theorem freeIdx_hasp (d : Dev) (i : Nat) :
    (d.freeIdx i).hasp = d.hasp := rfl
@[simp] theorem freeIdx_key (d : Dev) (i : Nat) :
    (d.freeIdx i).key = d.key := rfl
@[simp] theorem freeIdx_flt (d : Dev) (i : Nat) :
    (d.freeIdx i).flt = d.flt := rfl
@[simp] theorem freeIdx_perf (d : Dev) (i : Nat) :
    (d.freeIdx i).perf = d.perf := rfl
@[simp] theorem freeIdx_ses (d : Dev) (i : Nat) :
    (d.freeIdx i).ses = d.ses := rfl
@[simp] theorem freeIdx_cry (d : Dev) (i : Nat) :
    (d.freeIdx i).cry = d.cry := rfl
@[simp] theorem freeIdx_jnl (d : Dev) (i : Nat) :
    (d.freeIdx i).jnl = d.jnl := rfl
@[simp] theorem freeIdx_tb (d : Dev) (i : Nat) :
    (d.freeIdx i).tb = d.tb := rfl
@[simp] theorem freeIdx_lnk (d : Dev) (i : Nat) :
    (d.freeIdx i).lnk = d.lnk := rfl
@[simp] theorem freeIdx_wrd (d : Dev) (i : Nat) :
    (d.freeIdx i).wrd = d.wrd := rfl
@[simp] theorem freeIdx_rng (d : Dev) (i : Nat) :
    (d.freeIdx i).rng = d.rng := rfl
@[simp] theorem freeIdx_pwr (d : Dev) (i : Nat) :
    (d.freeIdx i).pwr = d.pwr := rfl
@[simp] theorem relevel_part (d : Dev) (v : Nat) :
    (d.relevel v).part = d.part := rfl
@[simp] theorem relevel_ident (d : Dev) (v : Nat) :
    (d.relevel v).ident = d.ident := rfl
@[simp] theorem relevel_up (d : Dev) (v : Nat) :
    (d.relevel v).up = d.up := rfl
@[simp] theorem relevel_tai (d : Dev) (v : Nat) :
    (d.relevel v).tai = d.tai := rfl
@[simp] theorem relevel_free (d : Dev) (v : Nat) :
    (d.relevel v).free = d.free := rfl
@[simp] theorem relevel_objs (d : Dev) (v : Nat) :
    (d.relevel v).objs = d.objs := rfl
@[simp] theorem relevel_mem (d : Dev) (v : Nat) :
    (d.relevel v).mem = d.mem := rfl
@[simp] theorem relevel_hasp (d : Dev) (v : Nat) :
    (d.relevel v).hasp = d.hasp := rfl
@[simp] theorem relevel_key (d : Dev) (v : Nat) :
    (d.relevel v).key = d.key := rfl
@[simp] theorem relevel_flt (d : Dev) (v : Nat) :
    (d.relevel v).flt = d.flt := rfl
@[simp] theorem relevel_perf (d : Dev) (v : Nat) :
    (d.relevel v).perf = d.perf := rfl
@[simp] theorem relevel_ses (d : Dev) (v : Nat) :
    (d.relevel v).ses = d.ses := rfl
@[simp] theorem relevel_cry (d : Dev) (v : Nat) :
    (d.relevel v).cry = d.cry := rfl
@[simp] theorem relevel_jnl (d : Dev) (v : Nat) :
    (d.relevel v).jnl = d.jnl := rfl
@[simp] theorem relevel_tb (d : Dev) (v : Nat) :
    (d.relevel v).tb = d.tb := rfl
@[simp] theorem relevel_lnk (d : Dev) (v : Nat) :
    (d.relevel v).lnk = d.lnk := rfl
@[simp] theorem relevel_wrd (d : Dev) (v : Nat) :
    (d.relevel v).wrd = d.wrd := rfl
@[simp] theorem relevel_rng (d : Dev) (v : Nat) :
    (d.relevel v).rng = d.rng := rfl
@[simp] theorem relevel_pwr (d : Dev) (v : Nat) :
    (d.relevel v).pwr = d.pwr := rfl
@[simp] theorem setEgr_part (d : Dev) (r : Nat) (x : EgRing) :
    (d.setEgr r x).part = d.part := rfl
@[simp] theorem setEgr_ident (d : Dev) (r : Nat) (x : EgRing) :
    (d.setEgr r x).ident = d.ident := rfl
@[simp] theorem setEgr_up (d : Dev) (r : Nat) (x : EgRing) :
    (d.setEgr r x).up = d.up := rfl
@[simp] theorem setEgr_tai (d : Dev) (r : Nat) (x : EgRing) :
    (d.setEgr r x).tai = d.tai := rfl
@[simp] theorem setEgr_free (d : Dev) (r : Nat) (x : EgRing) :
    (d.setEgr r x).free = d.free := rfl
@[simp] theorem setEgr_objs (d : Dev) (r : Nat) (x : EgRing) :
    (d.setEgr r x).objs = d.objs := rfl
@[simp] theorem setEgr_fab (d : Dev) (r : Nat) (x : EgRing) :
    (d.setEgr r x).fab = d.fab := rfl
@[simp] theorem setEgr_mem (d : Dev) (r : Nat) (x : EgRing) :
    (d.setEgr r x).mem = d.mem := rfl
@[simp] theorem setEgr_hasp (d : Dev) (r : Nat) (x : EgRing) :
    (d.setEgr r x).hasp = d.hasp := rfl
@[simp] theorem setEgr_key (d : Dev) (r : Nat) (x : EgRing) :
    (d.setEgr r x).key = d.key := rfl
@[simp] theorem setEgr_flt (d : Dev) (r : Nat) (x : EgRing) :
    (d.setEgr r x).flt = d.flt := rfl
@[simp] theorem setEgr_perf (d : Dev) (r : Nat) (x : EgRing) :
    (d.setEgr r x).perf = d.perf := rfl
@[simp] theorem setEgr_cry (d : Dev) (r : Nat) (x : EgRing) :
    (d.setEgr r x).cry = d.cry := rfl
@[simp] theorem setEgr_jnl (d : Dev) (r : Nat) (x : EgRing) :
    (d.setEgr r x).jnl = d.jnl := rfl
@[simp] theorem setEgr_tb (d : Dev) (r : Nat) (x : EgRing) :
    (d.setEgr r x).tb = d.tb := rfl
@[simp] theorem setEgr_lnk (d : Dev) (r : Nat) (x : EgRing) :
    (d.setEgr r x).lnk = d.lnk := rfl
@[simp] theorem setEgr_wrd (d : Dev) (r : Nat) (x : EgRing) :
    (d.setEgr r x).wrd = d.wrd := rfl
@[simp] theorem setEgr_rng (d : Dev) (r : Nat) (x : EgRing) :
    (d.setEgr r x).rng = d.rng := rfl
@[simp] theorem setEgr_pwr (d : Dev) (r : Nat) (x : EgRing) :
    (d.setEgr r x).pwr = d.pwr := rfl
@[simp] theorem alert_part (d : Dev) (s : Nat) (a : Alert) :
    (d.alert s a).part = d.part := rfl
@[simp] theorem alert_ident (d : Dev) (s : Nat) (a : Alert) :
    (d.alert s a).ident = d.ident := rfl
@[simp] theorem alert_up (d : Dev) (s : Nat) (a : Alert) :
    (d.alert s a).up = d.up := rfl
@[simp] theorem alert_tai (d : Dev) (s : Nat) (a : Alert) :
    (d.alert s a).tai = d.tai := rfl
@[simp] theorem alert_free (d : Dev) (s : Nat) (a : Alert) :
    (d.alert s a).free = d.free := rfl
@[simp] theorem alert_objs (d : Dev) (s : Nat) (a : Alert) :
    (d.alert s a).objs = d.objs := rfl
@[simp] theorem alert_fab (d : Dev) (s : Nat) (a : Alert) :
    (d.alert s a).fab = d.fab := rfl
@[simp] theorem alert_mem (d : Dev) (s : Nat) (a : Alert) :
    (d.alert s a).mem = d.mem := rfl
@[simp] theorem alert_hasp (d : Dev) (s : Nat) (a : Alert) :
    (d.alert s a).hasp = d.hasp := rfl
@[simp] theorem alert_key (d : Dev) (s : Nat) (a : Alert) :
    (d.alert s a).key = d.key := rfl
@[simp] theorem alert_flt (d : Dev) (s : Nat) (a : Alert) :
    (d.alert s a).flt = d.flt := rfl
@[simp] theorem alert_perf (d : Dev) (s : Nat) (a : Alert) :
    (d.alert s a).perf = d.perf := rfl
@[simp] theorem alert_cry (d : Dev) (s : Nat) (a : Alert) :
    (d.alert s a).cry = d.cry := rfl
@[simp] theorem alert_jnl (d : Dev) (s : Nat) (a : Alert) :
    (d.alert s a).jnl = d.jnl := rfl
@[simp] theorem alert_tb (d : Dev) (s : Nat) (a : Alert) :
    (d.alert s a).tb = d.tb := rfl
@[simp] theorem alert_lnk (d : Dev) (s : Nat) (a : Alert) :
    (d.alert s a).lnk = d.lnk := rfl
@[simp] theorem alert_wrd (d : Dev) (s : Nat) (a : Alert) :
    (d.alert s a).wrd = d.wrd := rfl
@[simp] theorem alert_rng (d : Dev) (s : Nat) (a : Alert) :
    (d.alert s a).rng = d.rng := rfl
@[simp] theorem alert_pwr (d : Dev) (s : Nat) (a : Alert) :
    (d.alert s a).pwr = d.pwr := rfl
@[simp] theorem dropJob_part (d : Dev) (j : Job) :
    (d.dropJob j).part = d.part := rfl
@[simp] theorem dropJob_ident (d : Dev) (j : Job) :
    (d.dropJob j).ident = d.ident := rfl
@[simp] theorem dropJob_up (d : Dev) (j : Job) :
    (d.dropJob j).up = d.up := rfl
@[simp] theorem dropJob_tai (d : Dev) (j : Job) :
    (d.dropJob j).tai = d.tai := rfl
@[simp] theorem dropJob_free (d : Dev) (j : Job) :
    (d.dropJob j).free = d.free := rfl
@[simp] theorem dropJob_objs (d : Dev) (j : Job) :
    (d.dropJob j).objs = d.objs := rfl
@[simp] theorem dropJob_fab (d : Dev) (j : Job) :
    (d.dropJob j).fab = d.fab := rfl
@[simp] theorem dropJob_mem (d : Dev) (j : Job) :
    (d.dropJob j).mem = d.mem := rfl
@[simp] theorem dropJob_hasp (d : Dev) (j : Job) :
    (d.dropJob j).hasp = d.hasp := rfl
@[simp] theorem dropJob_key (d : Dev) (j : Job) :
    (d.dropJob j).key = d.key := rfl
@[simp] theorem dropJob_flt (d : Dev) (j : Job) :
    (d.dropJob j).flt = d.flt := rfl
@[simp] theorem dropJob_perf (d : Dev) (j : Job) :
    (d.dropJob j).perf = d.perf := rfl
@[simp] theorem dropJob_ses (d : Dev) (j : Job) :
    (d.dropJob j).ses = d.ses := rfl
@[simp] theorem dropJob_jnl (d : Dev) (j : Job) :
    (d.dropJob j).jnl = d.jnl := rfl
@[simp] theorem dropJob_tb (d : Dev) (j : Job) :
    (d.dropJob j).tb = d.tb := rfl
@[simp] theorem dropJob_lnk (d : Dev) (j : Job) :
    (d.dropJob j).lnk = d.lnk := rfl
@[simp] theorem dropJob_wrd (d : Dev) (j : Job) :
    (d.dropJob j).wrd = d.wrd := rfl
@[simp] theorem dropJob_rng (d : Dev) (j : Job) :
    (d.dropJob j).rng = d.rng := rfl
@[simp] theorem dropJob_pwr (d : Dev) (j : Job) :
    (d.dropJob j).pwr = d.pwr := rfl
@[simp] theorem pfcRenew_part (d : Dev) (port : Nat) :
    (d.pfcRenew port).part = d.part := rfl
@[simp] theorem pfcRenew_ident (d : Dev) (port : Nat) :
    (d.pfcRenew port).ident = d.ident := rfl
@[simp] theorem pfcRenew_up (d : Dev) (port : Nat) :
    (d.pfcRenew port).up = d.up := rfl
@[simp] theorem pfcRenew_tai (d : Dev) (port : Nat) :
    (d.pfcRenew port).tai = d.tai := rfl
@[simp] theorem pfcRenew_free (d : Dev) (port : Nat) :
    (d.pfcRenew port).free = d.free := rfl
@[simp] theorem pfcRenew_objs (d : Dev) (port : Nat) :
    (d.pfcRenew port).objs = d.objs := rfl
@[simp] theorem pfcRenew_fab (d : Dev) (port : Nat) :
    (d.pfcRenew port).fab = d.fab := rfl
@[simp] theorem pfcRenew_mem (d : Dev) (port : Nat) :
    (d.pfcRenew port).mem = d.mem := rfl
@[simp] theorem pfcRenew_hasp (d : Dev) (port : Nat) :
    (d.pfcRenew port).hasp = d.hasp := rfl
@[simp] theorem pfcRenew_key (d : Dev) (port : Nat) :
    (d.pfcRenew port).key = d.key := rfl
@[simp] theorem pfcRenew_flt (d : Dev) (port : Nat) :
    (d.pfcRenew port).flt = d.flt := rfl
@[simp] theorem pfcRenew_perf (d : Dev) (port : Nat) :
    (d.pfcRenew port).perf = d.perf := rfl
@[simp] theorem pfcRenew_cry (d : Dev) (port : Nat) :
    (d.pfcRenew port).cry = d.cry := rfl
@[simp] theorem pfcRenew_jnl (d : Dev) (port : Nat) :
    (d.pfcRenew port).jnl = d.jnl := rfl
@[simp] theorem pfcRenew_tb (d : Dev) (port : Nat) :
    (d.pfcRenew port).tb = d.tb := rfl
@[simp] theorem pfcRenew_lnk (d : Dev) (port : Nat) :
    (d.pfcRenew port).lnk = d.lnk := rfl
@[simp] theorem pfcRenew_wrd (d : Dev) (port : Nat) :
    (d.pfcRenew port).wrd = d.wrd := rfl
@[simp] theorem pfcRenew_rng (d : Dev) (port : Nat) :
    (d.pfcRenew port).rng = d.rng := rfl
@[simp] theorem pfcRenew_pwr (d : Dev) (port : Nat) :
    (d.pfcRenew port).pwr = d.pwr := rfl
@[simp] theorem modNoc_part (d : Dev) (f : Noc → Noc) :
    (d.modNoc f).part = d.part := rfl
@[simp] theorem modNoc_ident (d : Dev) (f : Noc → Noc) :
    (d.modNoc f).ident = d.ident := rfl
@[simp] theorem modNoc_up (d : Dev) (f : Noc → Noc) :
    (d.modNoc f).up = d.up := rfl
@[simp] theorem modNoc_tai (d : Dev) (f : Noc → Noc) :
    (d.modNoc f).tai = d.tai := rfl
@[simp] theorem modNoc_free (d : Dev) (f : Noc → Noc) :
    (d.modNoc f).free = d.free := rfl
@[simp] theorem modNoc_objs (d : Dev) (f : Noc → Noc) :
    (d.modNoc f).objs = d.objs := rfl
@[simp] theorem modNoc_mem (d : Dev) (f : Noc → Noc) :
    (d.modNoc f).mem = d.mem := rfl
@[simp] theorem modNoc_hasp (d : Dev) (f : Noc → Noc) :
    (d.modNoc f).hasp = d.hasp := rfl
@[simp] theorem modNoc_key (d : Dev) (f : Noc → Noc) :
    (d.modNoc f).key = d.key := rfl
@[simp] theorem modNoc_flt (d : Dev) (f : Noc → Noc) :
    (d.modNoc f).flt = d.flt := rfl
@[simp] theorem modNoc_perf (d : Dev) (f : Noc → Noc) :
    (d.modNoc f).perf = d.perf := rfl
@[simp] theorem modNoc_ses (d : Dev) (f : Noc → Noc) :
    (d.modNoc f).ses = d.ses := rfl
@[simp] theorem modNoc_cry (d : Dev) (f : Noc → Noc) :
    (d.modNoc f).cry = d.cry := rfl
@[simp] theorem modNoc_jnl (d : Dev) (f : Noc → Noc) :
    (d.modNoc f).jnl = d.jnl := rfl
@[simp] theorem modNoc_tb (d : Dev) (f : Noc → Noc) :
    (d.modNoc f).tb = d.tb := rfl
@[simp] theorem modNoc_lnk (d : Dev) (f : Noc → Noc) :
    (d.modNoc f).lnk = d.lnk := rfl
@[simp] theorem modNoc_wrd (d : Dev) (f : Noc → Noc) :
    (d.modNoc f).wrd = d.wrd := rfl
@[simp] theorem modNoc_rng (d : Dev) (f : Noc → Noc) :
    (d.modNoc f).rng = d.rng := rfl
@[simp] theorem modNoc_pwr (d : Dev) (f : Noc → Noc) :
    (d.modNoc f).pwr = d.pwr := rfl
@[simp] theorem modCore_part (d : Dev) (f : Glolet → Glolet) :
    (d.modCore f).part = d.part := rfl
@[simp] theorem modCore_ident (d : Dev) (f : Glolet → Glolet) :
    (d.modCore f).ident = d.ident := rfl
@[simp] theorem modCore_up (d : Dev) (f : Glolet → Glolet) :
    (d.modCore f).up = d.up := rfl
@[simp] theorem modCore_tai (d : Dev) (f : Glolet → Glolet) :
    (d.modCore f).tai = d.tai := rfl
@[simp] theorem modCore_free (d : Dev) (f : Glolet → Glolet) :
    (d.modCore f).free = d.free := rfl
@[simp] theorem modCore_objs (d : Dev) (f : Glolet → Glolet) :
    (d.modCore f).objs = d.objs := rfl
@[simp] theorem modCore_fab (d : Dev) (f : Glolet → Glolet) :
    (d.modCore f).fab = d.fab := rfl
@[simp] theorem modCore_mem (d : Dev) (f : Glolet → Glolet) :
    (d.modCore f).mem = d.mem := rfl
@[simp] theorem modCore_hasp (d : Dev) (f : Glolet → Glolet) :
    (d.modCore f).hasp = d.hasp := rfl
@[simp] theorem modCore_key (d : Dev) (f : Glolet → Glolet) :
    (d.modCore f).key = d.key := rfl
@[simp] theorem modCore_flt (d : Dev) (f : Glolet → Glolet) :
    (d.modCore f).flt = d.flt := rfl
@[simp] theorem modCore_perf (d : Dev) (f : Glolet → Glolet) :
    (d.modCore f).perf = d.perf := rfl
@[simp] theorem modCore_ses (d : Dev) (f : Glolet → Glolet) :
    (d.modCore f).ses = d.ses := rfl
@[simp] theorem modCore_cry (d : Dev) (f : Glolet → Glolet) :
    (d.modCore f).cry = d.cry := rfl
@[simp] theorem modCore_jnl (d : Dev) (f : Glolet → Glolet) :
    (d.modCore f).jnl = d.jnl := rfl
@[simp] theorem modCore_tb (d : Dev) (f : Glolet → Glolet) :
    (d.modCore f).tb = d.tb := rfl
@[simp] theorem modCore_lnk (d : Dev) (f : Glolet → Glolet) :
    (d.modCore f).lnk = d.lnk := rfl
@[simp] theorem modCore_rng (d : Dev) (f : Glolet → Glolet) :
    (d.modCore f).rng = d.rng := rfl
@[simp] theorem modCore_pwr (d : Dev) (f : Glolet → Glolet) :
    (d.modCore f).pwr = d.pwr := rfl
@[simp] theorem modQp_part (d : Dev) (q : Nat) (f : Qp → Qp) :
    (d.modQp q f).part = d.part := rfl
@[simp] theorem modQp_ident (d : Dev) (q : Nat) (f : Qp → Qp) :
    (d.modQp q f).ident = d.ident := rfl
@[simp] theorem modQp_up (d : Dev) (q : Nat) (f : Qp → Qp) :
    (d.modQp q f).up = d.up := rfl
@[simp] theorem modQp_tai (d : Dev) (q : Nat) (f : Qp → Qp) :
    (d.modQp q f).tai = d.tai := rfl
@[simp] theorem modQp_free (d : Dev) (q : Nat) (f : Qp → Qp) :
    (d.modQp q f).free = d.free := rfl
@[simp] theorem modQp_objs (d : Dev) (q : Nat) (f : Qp → Qp) :
    (d.modQp q f).objs = d.objs := rfl
@[simp] theorem modQp_fab (d : Dev) (q : Nat) (f : Qp → Qp) :
    (d.modQp q f).fab = d.fab := rfl
@[simp] theorem modQp_mem (d : Dev) (q : Nat) (f : Qp → Qp) :
    (d.modQp q f).mem = d.mem := rfl
@[simp] theorem modQp_hasp (d : Dev) (q : Nat) (f : Qp → Qp) :
    (d.modQp q f).hasp = d.hasp := rfl
@[simp] theorem modQp_key (d : Dev) (q : Nat) (f : Qp → Qp) :
    (d.modQp q f).key = d.key := rfl
@[simp] theorem modQp_flt (d : Dev) (q : Nat) (f : Qp → Qp) :
    (d.modQp q f).flt = d.flt := rfl
@[simp] theorem modQp_perf (d : Dev) (q : Nat) (f : Qp → Qp) :
    (d.modQp q f).perf = d.perf := rfl
@[simp] theorem modQp_ses (d : Dev) (q : Nat) (f : Qp → Qp) :
    (d.modQp q f).ses = d.ses := rfl
@[simp] theorem modQp_cry (d : Dev) (q : Nat) (f : Qp → Qp) :
    (d.modQp q f).cry = d.cry := rfl
@[simp] theorem modQp_jnl (d : Dev) (q : Nat) (f : Qp → Qp) :
    (d.modQp q f).jnl = d.jnl := rfl
@[simp] theorem modQp_tb (d : Dev) (q : Nat) (f : Qp → Qp) :
    (d.modQp q f).tb = d.tb := rfl
@[simp] theorem modQp_wrd (d : Dev) (q : Nat) (f : Qp → Qp) :
    (d.modQp q f).wrd = d.wrd := rfl
@[simp] theorem modQp_rng (d : Dev) (q : Nat) (f : Qp → Qp) :
    (d.modQp q f).rng = d.rng := rfl
@[simp] theorem modQp_pwr (d : Dev) (q : Nat) (f : Qp → Qp) :
    (d.modQp q f).pwr = d.pwr := rfl
@[simp] theorem modSrc_part (d : Dev) (s : Nat) (f : FSrc → FSrc) :
    (d.modSrc s f).part = d.part := rfl
@[simp] theorem modSrc_ident (d : Dev) (s : Nat) (f : FSrc → FSrc) :
    (d.modSrc s f).ident = d.ident := rfl
@[simp] theorem modSrc_up (d : Dev) (s : Nat) (f : FSrc → FSrc) :
    (d.modSrc s f).up = d.up := rfl
@[simp] theorem modSrc_tai (d : Dev) (s : Nat) (f : FSrc → FSrc) :
    (d.modSrc s f).tai = d.tai := rfl
@[simp] theorem modSrc_free (d : Dev) (s : Nat) (f : FSrc → FSrc) :
    (d.modSrc s f).free = d.free := rfl
@[simp] theorem modSrc_objs (d : Dev) (s : Nat) (f : FSrc → FSrc) :
    (d.modSrc s f).objs = d.objs := rfl
@[simp] theorem modSrc_fab (d : Dev) (s : Nat) (f : FSrc → FSrc) :
    (d.modSrc s f).fab = d.fab := rfl
@[simp] theorem modSrc_mem (d : Dev) (s : Nat) (f : FSrc → FSrc) :
    (d.modSrc s f).mem = d.mem := rfl
@[simp] theorem modSrc_hasp (d : Dev) (s : Nat) (f : FSrc → FSrc) :
    (d.modSrc s f).hasp = d.hasp := rfl
@[simp] theorem modSrc_key (d : Dev) (s : Nat) (f : FSrc → FSrc) :
    (d.modSrc s f).key = d.key := rfl
@[simp] theorem modSrc_perf (d : Dev) (s : Nat) (f : FSrc → FSrc) :
    (d.modSrc s f).perf = d.perf := rfl
@[simp] theorem modSrc_ses (d : Dev) (s : Nat) (f : FSrc → FSrc) :
    (d.modSrc s f).ses = d.ses := rfl
@[simp] theorem modSrc_cry (d : Dev) (s : Nat) (f : FSrc → FSrc) :
    (d.modSrc s f).cry = d.cry := rfl
@[simp] theorem modSrc_jnl (d : Dev) (s : Nat) (f : FSrc → FSrc) :
    (d.modSrc s f).jnl = d.jnl := rfl
@[simp] theorem modSrc_tb (d : Dev) (s : Nat) (f : FSrc → FSrc) :
    (d.modSrc s f).tb = d.tb := rfl
@[simp] theorem modSrc_lnk (d : Dev) (s : Nat) (f : FSrc → FSrc) :
    (d.modSrc s f).lnk = d.lnk := rfl
@[simp] theorem modSrc_wrd (d : Dev) (s : Nat) (f : FSrc → FSrc) :
    (d.modSrc s f).wrd = d.wrd := rfl
@[simp] theorem modSrc_rng (d : Dev) (s : Nat) (f : FSrc → FSrc) :
    (d.modSrc s f).rng = d.rng := rfl
@[simp] theorem modSrc_pwr (d : Dev) (s : Nat) (f : FSrc → FSrc) :
    (d.modSrc s f).pwr = d.pwr := rfl
@[simp] theorem modHist_part (d : Dev) (p : HEnt → Bool) (f : HEnt → HEnt) :
    (d.modHist p f).part = d.part := rfl
@[simp] theorem modHist_ident (d : Dev) (p : HEnt → Bool) (f : HEnt → HEnt) :
    (d.modHist p f).ident = d.ident := rfl
@[simp] theorem modHist_up (d : Dev) (p : HEnt → Bool) (f : HEnt → HEnt) :
    (d.modHist p f).up = d.up := rfl
@[simp] theorem modHist_tai (d : Dev) (p : HEnt → Bool) (f : HEnt → HEnt) :
    (d.modHist p f).tai = d.tai := rfl
@[simp] theorem modHist_free (d : Dev) (p : HEnt → Bool) (f : HEnt → HEnt) :
    (d.modHist p f).free = d.free := rfl
@[simp] theorem modHist_objs (d : Dev) (p : HEnt → Bool) (f : HEnt → HEnt) :
    (d.modHist p f).objs = d.objs := rfl
@[simp] theorem modHist_fab (d : Dev) (p : HEnt → Bool) (f : HEnt → HEnt) :
    (d.modHist p f).fab = d.fab := rfl
@[simp] theorem modHist_mem (d : Dev) (p : HEnt → Bool) (f : HEnt → HEnt) :
    (d.modHist p f).mem = d.mem := rfl
@[simp] theorem modHist_hasp (d : Dev) (p : HEnt → Bool) (f : HEnt → HEnt) :
    (d.modHist p f).hasp = d.hasp := rfl
@[simp] theorem modHist_key (d : Dev) (p : HEnt → Bool) (f : HEnt → HEnt) :
    (d.modHist p f).key = d.key := rfl
@[simp] theorem modHist_perf (d : Dev) (p : HEnt → Bool) (f : HEnt → HEnt) :
    (d.modHist p f).perf = d.perf := rfl
@[simp] theorem modHist_ses (d : Dev) (p : HEnt → Bool) (f : HEnt → HEnt) :
    (d.modHist p f).ses = d.ses := rfl
@[simp] theorem modHist_cry (d : Dev) (p : HEnt → Bool) (f : HEnt → HEnt) :
    (d.modHist p f).cry = d.cry := rfl
@[simp] theorem modHist_jnl (d : Dev) (p : HEnt → Bool) (f : HEnt → HEnt) :
    (d.modHist p f).jnl = d.jnl := rfl
@[simp] theorem modHist_tb (d : Dev) (p : HEnt → Bool) (f : HEnt → HEnt) :
    (d.modHist p f).tb = d.tb := rfl
@[simp] theorem modHist_lnk (d : Dev) (p : HEnt → Bool) (f : HEnt → HEnt) :
    (d.modHist p f).lnk = d.lnk := rfl
@[simp] theorem modHist_wrd (d : Dev) (p : HEnt → Bool) (f : HEnt → HEnt) :
    (d.modHist p f).wrd = d.wrd := rfl
@[simp] theorem modHist_rng (d : Dev) (p : HEnt → Bool) (f : HEnt → HEnt) :
    (d.modHist p f).rng = d.rng := rfl
@[simp] theorem modHist_pwr (d : Dev) (p : HEnt → Bool) (f : HEnt → HEnt) :
    (d.modHist p f).pwr = d.pwr := rfl
@[simp] theorem zeroCredit_part (d : Dev) :
    (d.zeroCredit).part = d.part := rfl
@[simp] theorem zeroCredit_ident (d : Dev) :
    (d.zeroCredit).ident = d.ident := rfl
@[simp] theorem zeroCredit_up (d : Dev) :
    (d.zeroCredit).up = d.up := rfl
@[simp] theorem zeroCredit_tai (d : Dev) :
    (d.zeroCredit).tai = d.tai := rfl
@[simp] theorem zeroCredit_free (d : Dev) :
    (d.zeroCredit).free = d.free := rfl
@[simp] theorem zeroCredit_objs (d : Dev) :
    (d.zeroCredit).objs = d.objs := rfl
@[simp] theorem zeroCredit_mem (d : Dev) :
    (d.zeroCredit).mem = d.mem := rfl
@[simp] theorem zeroCredit_hasp (d : Dev) :
    (d.zeroCredit).hasp = d.hasp := rfl
@[simp] theorem zeroCredit_key (d : Dev) :
    (d.zeroCredit).key = d.key := rfl
@[simp] theorem zeroCredit_flt (d : Dev) :
    (d.zeroCredit).flt = d.flt := rfl
@[simp] theorem zeroCredit_perf (d : Dev) :
    (d.zeroCredit).perf = d.perf := rfl
@[simp] theorem zeroCredit_ses (d : Dev) :
    (d.zeroCredit).ses = d.ses := rfl
@[simp] theorem zeroCredit_cry (d : Dev) :
    (d.zeroCredit).cry = d.cry := rfl
@[simp] theorem zeroCredit_jnl (d : Dev) :
    (d.zeroCredit).jnl = d.jnl := rfl
@[simp] theorem zeroCredit_tb (d : Dev) :
    (d.zeroCredit).tb = d.tb := rfl
@[simp] theorem zeroCredit_lnk (d : Dev) :
    (d.zeroCredit).lnk = d.lnk := rfl
@[simp] theorem zeroCredit_wrd (d : Dev) :
    (d.zeroCredit).wrd = d.wrd := rfl
@[simp] theorem zeroCredit_rng (d : Dev) :
    (d.zeroCredit).rng = d.rng := rfl
@[simp] theorem zeroCredit_pwr (d : Dev) :
    (d.zeroCredit).pwr = d.pwr := rfl
@[simp] theorem mapRepair_part (d : Dev) (p : Nat) :
    (d.mapRepair p).part = d.part := rfl
@[simp] theorem mapRepair_ident (d : Dev) (p : Nat) :
    (d.mapRepair p).ident = d.ident := rfl
@[simp] theorem mapRepair_up (d : Dev) (p : Nat) :
    (d.mapRepair p).up = d.up := rfl
@[simp] theorem mapRepair_tai (d : Dev) (p : Nat) :
    (d.mapRepair p).tai = d.tai := rfl
@[simp] theorem mapRepair_free (d : Dev) (p : Nat) :
    (d.mapRepair p).free = d.free := rfl
@[simp] theorem mapRepair_objs (d : Dev) (p : Nat) :
    (d.mapRepair p).objs = d.objs := rfl
@[simp] theorem mapRepair_fab (d : Dev) (p : Nat) :
    (d.mapRepair p).fab = d.fab := rfl
@[simp] theorem mapRepair_mem (d : Dev) (p : Nat) :
    (d.mapRepair p).mem = d.mem := rfl
@[simp] theorem mapRepair_hasp (d : Dev) (p : Nat) :
    (d.mapRepair p).hasp = d.hasp := rfl
@[simp] theorem mapRepair_key (d : Dev) (p : Nat) :
    (d.mapRepair p).key = d.key := rfl
@[simp] theorem mapRepair_flt (d : Dev) (p : Nat) :
    (d.mapRepair p).flt = d.flt := rfl
@[simp] theorem mapRepair_perf (d : Dev) (p : Nat) :
    (d.mapRepair p).perf = d.perf := rfl
@[simp] theorem mapRepair_ses (d : Dev) (p : Nat) :
    (d.mapRepair p).ses = d.ses := rfl
@[simp] theorem mapRepair_cry (d : Dev) (p : Nat) :
    (d.mapRepair p).cry = d.cry := rfl
@[simp] theorem mapRepair_jnl (d : Dev) (p : Nat) :
    (d.mapRepair p).jnl = d.jnl := rfl
@[simp] theorem mapRepair_tb (d : Dev) (p : Nat) :
    (d.mapRepair p).tb = d.tb := rfl
@[simp] theorem mapRepair_lnk (d : Dev) (p : Nat) :
    (d.mapRepair p).lnk = d.lnk := rfl
@[simp] theorem mapRepair_wrd (d : Dev) (p : Nat) :
    (d.mapRepair p).wrd = d.wrd := rfl
@[simp] theorem mapRepair_rng (d : Dev) (p : Nat) :
    (d.mapRepair p).rng = d.rng := rfl
@[simp] theorem setFcRx_part (d : Dev) (e i q : Nat) :
    (d.setFcRx e i q).part = d.part := rfl
@[simp] theorem setFcRx_ident (d : Dev) (e i q : Nat) :
    (d.setFcRx e i q).ident = d.ident := rfl
@[simp] theorem setFcRx_up (d : Dev) (e i q : Nat) :
    (d.setFcRx e i q).up = d.up := rfl
@[simp] theorem setFcRx_tai (d : Dev) (e i q : Nat) :
    (d.setFcRx e i q).tai = d.tai := rfl
@[simp] theorem setFcRx_free (d : Dev) (e i q : Nat) :
    (d.setFcRx e i q).free = d.free := rfl
@[simp] theorem setFcRx_objs (d : Dev) (e i q : Nat) :
    (d.setFcRx e i q).objs = d.objs := rfl
@[simp] theorem setFcRx_fab (d : Dev) (e i q : Nat) :
    (d.setFcRx e i q).fab = d.fab := rfl
@[simp] theorem setFcRx_mem (d : Dev) (e i q : Nat) :
    (d.setFcRx e i q).mem = d.mem := rfl
@[simp] theorem setFcRx_hasp (d : Dev) (e i q : Nat) :
    (d.setFcRx e i q).hasp = d.hasp := rfl
@[simp] theorem setFcRx_key (d : Dev) (e i q : Nat) :
    (d.setFcRx e i q).key = d.key := rfl
@[simp] theorem setFcRx_flt (d : Dev) (e i q : Nat) :
    (d.setFcRx e i q).flt = d.flt := rfl
@[simp] theorem setFcRx_perf (d : Dev) (e i q : Nat) :
    (d.setFcRx e i q).perf = d.perf := rfl
@[simp] theorem setFcRx_cry (d : Dev) (e i q : Nat) :
    (d.setFcRx e i q).cry = d.cry := rfl
@[simp] theorem setFcRx_jnl (d : Dev) (e i q : Nat) :
    (d.setFcRx e i q).jnl = d.jnl := rfl
@[simp] theorem setFcRx_tb (d : Dev) (e i q : Nat) :
    (d.setFcRx e i q).tb = d.tb := rfl
@[simp] theorem setFcRx_lnk (d : Dev) (e i q : Nat) :
    (d.setFcRx e i q).lnk = d.lnk := rfl
@[simp] theorem setFcRx_wrd (d : Dev) (e i q : Nat) :
    (d.setFcRx e i q).wrd = d.wrd := rfl
@[simp] theorem setFcRx_rng (d : Dev) (e i q : Nat) :
    (d.setFcRx e i q).rng = d.rng := rfl
@[simp] theorem setFcRx_pwr (d : Dev) (e i q : Nat) :
    (d.setFcRx e i q).pwr = d.pwr := rfl
@[simp] theorem setCtr_part (d : Dev) (b k : Nat) (c : Ctr) :
    (d.setCtr b k c).part = d.part := rfl
@[simp] theorem setCtr_ident (d : Dev) (b k : Nat) (c : Ctr) :
    (d.setCtr b k c).ident = d.ident := rfl
@[simp] theorem setCtr_up (d : Dev) (b k : Nat) (c : Ctr) :
    (d.setCtr b k c).up = d.up := rfl
@[simp] theorem setCtr_tai (d : Dev) (b k : Nat) (c : Ctr) :
    (d.setCtr b k c).tai = d.tai := rfl
@[simp] theorem setCtr_free (d : Dev) (b k : Nat) (c : Ctr) :
    (d.setCtr b k c).free = d.free := rfl
@[simp] theorem setCtr_objs (d : Dev) (b k : Nat) (c : Ctr) :
    (d.setCtr b k c).objs = d.objs := rfl
@[simp] theorem setCtr_fab (d : Dev) (b k : Nat) (c : Ctr) :
    (d.setCtr b k c).fab = d.fab := rfl
@[simp] theorem setCtr_mem (d : Dev) (b k : Nat) (c : Ctr) :
    (d.setCtr b k c).mem = d.mem := rfl
@[simp] theorem setCtr_hasp (d : Dev) (b k : Nat) (c : Ctr) :
    (d.setCtr b k c).hasp = d.hasp := rfl
@[simp] theorem setCtr_key (d : Dev) (b k : Nat) (c : Ctr) :
    (d.setCtr b k c).key = d.key := rfl
@[simp] theorem setCtr_flt (d : Dev) (b k : Nat) (c : Ctr) :
    (d.setCtr b k c).flt = d.flt := rfl
@[simp] theorem setCtr_ses (d : Dev) (b k : Nat) (c : Ctr) :
    (d.setCtr b k c).ses = d.ses := rfl
@[simp] theorem setCtr_cry (d : Dev) (b k : Nat) (c : Ctr) :
    (d.setCtr b k c).cry = d.cry := rfl
@[simp] theorem setCtr_jnl (d : Dev) (b k : Nat) (c : Ctr) :
    (d.setCtr b k c).jnl = d.jnl := rfl
@[simp] theorem setCtr_tb (d : Dev) (b k : Nat) (c : Ctr) :
    (d.setCtr b k c).tb = d.tb := rfl
@[simp] theorem setCtr_lnk (d : Dev) (b k : Nat) (c : Ctr) :
    (d.setCtr b k c).lnk = d.lnk := rfl
@[simp] theorem setCtr_wrd (d : Dev) (b k : Nat) (c : Ctr) :
    (d.setCtr b k c).wrd = d.wrd := rfl
@[simp] theorem setCtr_rng (d : Dev) (b k : Nat) (c : Ctr) :
    (d.setCtr b k c).rng = d.rng := rfl
@[simp] theorem setCtr_pwr (d : Dev) (b k : Nat) (c : Ctr) :
    (d.setCtr b k c).pwr = d.pwr := rfl
@[simp] theorem modWrd_part (d : Dev) (f : Wrd → Wrd) :
    (d.modWrd f).part = d.part := rfl
@[simp] theorem modWrd_ident (d : Dev) (f : Wrd → Wrd) :
    (d.modWrd f).ident = d.ident := rfl
@[simp] theorem modWrd_up (d : Dev) (f : Wrd → Wrd) :
    (d.modWrd f).up = d.up := rfl
@[simp] theorem modWrd_tai (d : Dev) (f : Wrd → Wrd) :
    (d.modWrd f).tai = d.tai := rfl
@[simp] theorem modWrd_free (d : Dev) (f : Wrd → Wrd) :
    (d.modWrd f).free = d.free := rfl
@[simp] theorem modWrd_objs (d : Dev) (f : Wrd → Wrd) :
    (d.modWrd f).objs = d.objs := rfl
@[simp] theorem modWrd_fab (d : Dev) (f : Wrd → Wrd) :
    (d.modWrd f).fab = d.fab := rfl
@[simp] theorem modWrd_mem (d : Dev) (f : Wrd → Wrd) :
    (d.modWrd f).mem = d.mem := rfl
@[simp] theorem modWrd_hasp (d : Dev) (f : Wrd → Wrd) :
    (d.modWrd f).hasp = d.hasp := rfl
@[simp] theorem modWrd_key (d : Dev) (f : Wrd → Wrd) :
    (d.modWrd f).key = d.key := rfl
@[simp] theorem modWrd_flt (d : Dev) (f : Wrd → Wrd) :
    (d.modWrd f).flt = d.flt := rfl
@[simp] theorem modWrd_perf (d : Dev) (f : Wrd → Wrd) :
    (d.modWrd f).perf = d.perf := rfl
@[simp] theorem modWrd_ses (d : Dev) (f : Wrd → Wrd) :
    (d.modWrd f).ses = d.ses := rfl
@[simp] theorem modWrd_cry (d : Dev) (f : Wrd → Wrd) :
    (d.modWrd f).cry = d.cry := rfl
@[simp] theorem modWrd_jnl (d : Dev) (f : Wrd → Wrd) :
    (d.modWrd f).jnl = d.jnl := rfl
@[simp] theorem modWrd_tb (d : Dev) (f : Wrd → Wrd) :
    (d.modWrd f).tb = d.tb := rfl
@[simp] theorem modWrd_lnk (d : Dev) (f : Wrd → Wrd) :
    (d.modWrd f).lnk = d.lnk := rfl
@[simp] theorem modWrd_rng (d : Dev) (f : Wrd → Wrd) :
    (d.modWrd f).rng = d.rng := rfl
@[simp] theorem modWrd_pwr (d : Dev) (f : Wrd → Wrd) :
    (d.modWrd f).pwr = d.pwr := rfl
@[simp] theorem modPwr_part (d : Dev) (f : Pwr → Pwr) :
    (d.modPwr f).part = d.part := rfl
@[simp] theorem modPwr_ident (d : Dev) (f : Pwr → Pwr) :
    (d.modPwr f).ident = d.ident := rfl
@[simp] theorem modPwr_up (d : Dev) (f : Pwr → Pwr) :
    (d.modPwr f).up = d.up := rfl
@[simp] theorem modPwr_tai (d : Dev) (f : Pwr → Pwr) :
    (d.modPwr f).tai = d.tai := rfl
@[simp] theorem modPwr_free (d : Dev) (f : Pwr → Pwr) :
    (d.modPwr f).free = d.free := rfl
@[simp] theorem modPwr_objs (d : Dev) (f : Pwr → Pwr) :
    (d.modPwr f).objs = d.objs := rfl
@[simp] theorem modPwr_fab (d : Dev) (f : Pwr → Pwr) :
    (d.modPwr f).fab = d.fab := rfl
@[simp] theorem modPwr_mem (d : Dev) (f : Pwr → Pwr) :
    (d.modPwr f).mem = d.mem := rfl
@[simp] theorem modPwr_hasp (d : Dev) (f : Pwr → Pwr) :
    (d.modPwr f).hasp = d.hasp := rfl
@[simp] theorem modPwr_key (d : Dev) (f : Pwr → Pwr) :
    (d.modPwr f).key = d.key := rfl
@[simp] theorem modPwr_flt (d : Dev) (f : Pwr → Pwr) :
    (d.modPwr f).flt = d.flt := rfl
@[simp] theorem modPwr_perf (d : Dev) (f : Pwr → Pwr) :
    (d.modPwr f).perf = d.perf := rfl
@[simp] theorem modPwr_ses (d : Dev) (f : Pwr → Pwr) :
    (d.modPwr f).ses = d.ses := rfl
@[simp] theorem modPwr_cry (d : Dev) (f : Pwr → Pwr) :
    (d.modPwr f).cry = d.cry := rfl
@[simp] theorem modPwr_jnl (d : Dev) (f : Pwr → Pwr) :
    (d.modPwr f).jnl = d.jnl := rfl
@[simp] theorem modPwr_tb (d : Dev) (f : Pwr → Pwr) :
    (d.modPwr f).tb = d.tb := rfl
@[simp] theorem modPwr_lnk (d : Dev) (f : Pwr → Pwr) :
    (d.modPwr f).lnk = d.lnk := rfl
@[simp] theorem modPwr_wrd (d : Dev) (f : Pwr → Pwr) :
    (d.modPwr f).wrd = d.wrd := rfl
@[simp] theorem modPwr_rng (d : Dev) (f : Pwr → Pwr) :
    (d.modPwr f).rng = d.rng := rfl
@[simp] theorem tbMove_part (d : Dev) (st : TbState) (src : Nat) :
    (d.tbMove st src).part = d.part := rfl
@[simp] theorem tbMove_ident (d : Dev) (st : TbState) (src : Nat) :
    (d.tbMove st src).ident = d.ident := rfl
@[simp] theorem tbMove_up (d : Dev) (st : TbState) (src : Nat) :
    (d.tbMove st src).up = d.up := rfl
@[simp] theorem tbMove_tai (d : Dev) (st : TbState) (src : Nat) :
    (d.tbMove st src).tai = d.tai := rfl
@[simp] theorem tbMove_free (d : Dev) (st : TbState) (src : Nat) :
    (d.tbMove st src).free = d.free := rfl
@[simp] theorem tbMove_objs (d : Dev) (st : TbState) (src : Nat) :
    (d.tbMove st src).objs = d.objs := rfl
@[simp] theorem tbMove_fab (d : Dev) (st : TbState) (src : Nat) :
    (d.tbMove st src).fab = d.fab := rfl
@[simp] theorem tbMove_mem (d : Dev) (st : TbState) (src : Nat) :
    (d.tbMove st src).mem = d.mem := rfl
@[simp] theorem tbMove_hasp (d : Dev) (st : TbState) (src : Nat) :
    (d.tbMove st src).hasp = d.hasp := rfl
@[simp] theorem tbMove_key (d : Dev) (st : TbState) (src : Nat) :
    (d.tbMove st src).key = d.key := rfl
@[simp] theorem tbMove_flt (d : Dev) (st : TbState) (src : Nat) :
    (d.tbMove st src).flt = d.flt := rfl
@[simp] theorem tbMove_perf (d : Dev) (st : TbState) (src : Nat) :
    (d.tbMove st src).perf = d.perf := rfl
@[simp] theorem tbMove_ses (d : Dev) (st : TbState) (src : Nat) :
    (d.tbMove st src).ses = d.ses := rfl
@[simp] theorem tbMove_cry (d : Dev) (st : TbState) (src : Nat) :
    (d.tbMove st src).cry = d.cry := rfl
@[simp] theorem tbMove_jnl (d : Dev) (st : TbState) (src : Nat) :
    (d.tbMove st src).jnl = d.jnl := rfl
@[simp] theorem tbMove_lnk (d : Dev) (st : TbState) (src : Nat) :
    (d.tbMove st src).lnk = d.lnk := rfl
@[simp] theorem tbMove_wrd (d : Dev) (st : TbState) (src : Nat) :
    (d.tbMove st src).wrd = d.wrd := rfl
@[simp] theorem tbMove_rng (d : Dev) (st : TbState) (src : Nat) :
    (d.tbMove st src).rng = d.rng := rfl
@[simp] theorem tbMove_pwr (d : Dev) (st : TbState) (src : Nat) :
    (d.tbMove st src).pwr = d.pwr := rfl
@[simp] theorem slewOut_part (d : Dev) (e : Int) :
    (d.slewOut e).part = d.part := rfl
@[simp] theorem slewOut_ident (d : Dev) (e : Int) :
    (d.slewOut e).ident = d.ident := rfl
@[simp] theorem slewOut_up (d : Dev) (e : Int) :
    (d.slewOut e).up = d.up := rfl
@[simp] theorem slewOut_tai (d : Dev) (e : Int) :
    (d.slewOut e).tai = d.tai := rfl
@[simp] theorem slewOut_free (d : Dev) (e : Int) :
    (d.slewOut e).free = d.free := rfl
@[simp] theorem slewOut_objs (d : Dev) (e : Int) :
    (d.slewOut e).objs = d.objs := rfl
@[simp] theorem slewOut_fab (d : Dev) (e : Int) :
    (d.slewOut e).fab = d.fab := rfl
@[simp] theorem slewOut_mem (d : Dev) (e : Int) :
    (d.slewOut e).mem = d.mem := rfl
@[simp] theorem slewOut_hasp (d : Dev) (e : Int) :
    (d.slewOut e).hasp = d.hasp := rfl
@[simp] theorem slewOut_key (d : Dev) (e : Int) :
    (d.slewOut e).key = d.key := rfl
@[simp] theorem slewOut_flt (d : Dev) (e : Int) :
    (d.slewOut e).flt = d.flt := rfl
@[simp] theorem slewOut_perf (d : Dev) (e : Int) :
    (d.slewOut e).perf = d.perf := rfl
@[simp] theorem slewOut_ses (d : Dev) (e : Int) :
    (d.slewOut e).ses = d.ses := rfl
@[simp] theorem slewOut_cry (d : Dev) (e : Int) :
    (d.slewOut e).cry = d.cry := rfl
@[simp] theorem slewOut_jnl (d : Dev) (e : Int) :
    (d.slewOut e).jnl = d.jnl := rfl
@[simp] theorem slewOut_lnk (d : Dev) (e : Int) :
    (d.slewOut e).lnk = d.lnk := rfl
@[simp] theorem slewOut_wrd (d : Dev) (e : Int) :
    (d.slewOut e).wrd = d.wrd := rfl
@[simp] theorem slewOut_rng (d : Dev) (e : Int) :
    (d.slewOut e).rng = d.rng := rfl
@[simp] theorem slewOut_pwr (d : Dev) (e : Int) :
    (d.slewOut e).pwr = d.pwr := rfl
@[simp] theorem ppsHold_part (d : Dev) :
    (d.ppsHold).part = d.part := rfl
@[simp] theorem ppsHold_ident (d : Dev) :
    (d.ppsHold).ident = d.ident := rfl
@[simp] theorem ppsHold_up (d : Dev) :
    (d.ppsHold).up = d.up := rfl
@[simp] theorem ppsHold_tai (d : Dev) :
    (d.ppsHold).tai = d.tai := rfl
@[simp] theorem ppsHold_free (d : Dev) :
    (d.ppsHold).free = d.free := rfl
@[simp] theorem ppsHold_objs (d : Dev) :
    (d.ppsHold).objs = d.objs := rfl
@[simp] theorem ppsHold_fab (d : Dev) :
    (d.ppsHold).fab = d.fab := rfl
@[simp] theorem ppsHold_mem (d : Dev) :
    (d.ppsHold).mem = d.mem := rfl
@[simp] theorem ppsHold_hasp (d : Dev) :
    (d.ppsHold).hasp = d.hasp := rfl
@[simp] theorem ppsHold_key (d : Dev) :
    (d.ppsHold).key = d.key := rfl
@[simp] theorem ppsHold_flt (d : Dev) :
    (d.ppsHold).flt = d.flt := rfl
@[simp] theorem ppsHold_perf (d : Dev) :
    (d.ppsHold).perf = d.perf := rfl
@[simp] theorem ppsHold_ses (d : Dev) :
    (d.ppsHold).ses = d.ses := rfl
@[simp] theorem ppsHold_cry (d : Dev) :
    (d.ppsHold).cry = d.cry := rfl
@[simp] theorem ppsHold_jnl (d : Dev) :
    (d.ppsHold).jnl = d.jnl := rfl
@[simp] theorem ppsHold_lnk (d : Dev) :
    (d.ppsHold).lnk = d.lnk := rfl
@[simp] theorem ppsHold_wrd (d : Dev) :
    (d.ppsHold).wrd = d.wrd := rfl
@[simp] theorem ppsHold_rng (d : Dev) :
    (d.ppsHold).rng = d.rng := rfl
@[simp] theorem ppsHold_pwr (d : Dev) :
    (d.ppsHold).pwr = d.pwr := rfl
@[simp] theorem ptpSend_part (d : Dev) (p : Nat) (m : PtpMsg) :
    (d.ptpSend p m).part = d.part := rfl
@[simp] theorem ptpSend_ident (d : Dev) (p : Nat) (m : PtpMsg) :
    (d.ptpSend p m).ident = d.ident := rfl
@[simp] theorem ptpSend_up (d : Dev) (p : Nat) (m : PtpMsg) :
    (d.ptpSend p m).up = d.up := rfl
@[simp] theorem ptpSend_tai (d : Dev) (p : Nat) (m : PtpMsg) :
    (d.ptpSend p m).tai = d.tai := rfl
@[simp] theorem ptpSend_free (d : Dev) (p : Nat) (m : PtpMsg) :
    (d.ptpSend p m).free = d.free := rfl
@[simp] theorem ptpSend_objs (d : Dev) (p : Nat) (m : PtpMsg) :
    (d.ptpSend p m).objs = d.objs := rfl
@[simp] theorem ptpSend_fab (d : Dev) (p : Nat) (m : PtpMsg) :
    (d.ptpSend p m).fab = d.fab := rfl
@[simp] theorem ptpSend_mem (d : Dev) (p : Nat) (m : PtpMsg) :
    (d.ptpSend p m).mem = d.mem := rfl
@[simp] theorem ptpSend_hasp (d : Dev) (p : Nat) (m : PtpMsg) :
    (d.ptpSend p m).hasp = d.hasp := rfl
@[simp] theorem ptpSend_key (d : Dev) (p : Nat) (m : PtpMsg) :
    (d.ptpSend p m).key = d.key := rfl
@[simp] theorem ptpSend_flt (d : Dev) (p : Nat) (m : PtpMsg) :
    (d.ptpSend p m).flt = d.flt := rfl
@[simp] theorem ptpSend_perf (d : Dev) (p : Nat) (m : PtpMsg) :
    (d.ptpSend p m).perf = d.perf := rfl
@[simp] theorem ptpSend_ses (d : Dev) (p : Nat) (m : PtpMsg) :
    (d.ptpSend p m).ses = d.ses := rfl
@[simp] theorem ptpSend_cry (d : Dev) (p : Nat) (m : PtpMsg) :
    (d.ptpSend p m).cry = d.cry := rfl
@[simp] theorem ptpSend_jnl (d : Dev) (p : Nat) (m : PtpMsg) :
    (d.ptpSend p m).jnl = d.jnl := rfl
@[simp] theorem ptpSend_lnk (d : Dev) (p : Nat) (m : PtpMsg) :
    (d.ptpSend p m).lnk = d.lnk := rfl
@[simp] theorem ptpSend_wrd (d : Dev) (p : Nat) (m : PtpMsg) :
    (d.ptpSend p m).wrd = d.wrd := rfl
@[simp] theorem ptpSend_rng (d : Dev) (p : Nat) (m : PtpMsg) :
    (d.ptpSend p m).rng = d.rng := rfl
@[simp] theorem ptpSend_pwr (d : Dev) (p : Nat) (m : PtpMsg) :
    (d.ptpSend p m).pwr = d.pwr := rfl
@[simp] theorem setDelay_part (d : Dev) (p : Nat) (v : Int) :
    (d.setDelay p v).part = d.part := rfl
@[simp] theorem setDelay_ident (d : Dev) (p : Nat) (v : Int) :
    (d.setDelay p v).ident = d.ident := rfl
@[simp] theorem setDelay_up (d : Dev) (p : Nat) (v : Int) :
    (d.setDelay p v).up = d.up := rfl
@[simp] theorem setDelay_tai (d : Dev) (p : Nat) (v : Int) :
    (d.setDelay p v).tai = d.tai := rfl
@[simp] theorem setDelay_free (d : Dev) (p : Nat) (v : Int) :
    (d.setDelay p v).free = d.free := rfl
@[simp] theorem setDelay_objs (d : Dev) (p : Nat) (v : Int) :
    (d.setDelay p v).objs = d.objs := rfl
@[simp] theorem setDelay_fab (d : Dev) (p : Nat) (v : Int) :
    (d.setDelay p v).fab = d.fab := rfl
@[simp] theorem setDelay_mem (d : Dev) (p : Nat) (v : Int) :
    (d.setDelay p v).mem = d.mem := rfl
@[simp] theorem setDelay_hasp (d : Dev) (p : Nat) (v : Int) :
    (d.setDelay p v).hasp = d.hasp := rfl
@[simp] theorem setDelay_key (d : Dev) (p : Nat) (v : Int) :
    (d.setDelay p v).key = d.key := rfl
@[simp] theorem setDelay_flt (d : Dev) (p : Nat) (v : Int) :
    (d.setDelay p v).flt = d.flt := rfl
@[simp] theorem setDelay_perf (d : Dev) (p : Nat) (v : Int) :
    (d.setDelay p v).perf = d.perf := rfl
@[simp] theorem setDelay_ses (d : Dev) (p : Nat) (v : Int) :
    (d.setDelay p v).ses = d.ses := rfl
@[simp] theorem setDelay_cry (d : Dev) (p : Nat) (v : Int) :
    (d.setDelay p v).cry = d.cry := rfl
@[simp] theorem setDelay_jnl (d : Dev) (p : Nat) (v : Int) :
    (d.setDelay p v).jnl = d.jnl := rfl
@[simp] theorem setDelay_lnk (d : Dev) (p : Nat) (v : Int) :
    (d.setDelay p v).lnk = d.lnk := rfl
@[simp] theorem setDelay_wrd (d : Dev) (p : Nat) (v : Int) :
    (d.setDelay p v).wrd = d.wrd := rfl
@[simp] theorem setDelay_rng (d : Dev) (p : Nat) (v : Int) :
    (d.setDelay p v).rng = d.rng := rfl
@[simp] theorem setDelay_pwr (d : Dev) (p : Nat) (v : Int) :
    (d.setDelay p v).pwr = d.pwr := rfl
@[simp] theorem modRng_part (d : Dev) (f : Rng → Rng) :
    (d.modRng f).part = d.part := rfl
@[simp] theorem modRng_ident (d : Dev) (f : Rng → Rng) :
    (d.modRng f).ident = d.ident := rfl
@[simp] theorem modRng_up (d : Dev) (f : Rng → Rng) :
    (d.modRng f).up = d.up := rfl
@[simp] theorem modRng_tai (d : Dev) (f : Rng → Rng) :
    (d.modRng f).tai = d.tai := rfl
@[simp] theorem modRng_free (d : Dev) (f : Rng → Rng) :
    (d.modRng f).free = d.free := rfl
@[simp] theorem modRng_objs (d : Dev) (f : Rng → Rng) :
    (d.modRng f).objs = d.objs := rfl
@[simp] theorem modRng_fab (d : Dev) (f : Rng → Rng) :
    (d.modRng f).fab = d.fab := rfl
@[simp] theorem modRng_mem (d : Dev) (f : Rng → Rng) :
    (d.modRng f).mem = d.mem := rfl
@[simp] theorem modRng_hasp (d : Dev) (f : Rng → Rng) :
    (d.modRng f).hasp = d.hasp := rfl
@[simp] theorem modRng_key (d : Dev) (f : Rng → Rng) :
    (d.modRng f).key = d.key := rfl
@[simp] theorem modRng_flt (d : Dev) (f : Rng → Rng) :
    (d.modRng f).flt = d.flt := rfl
@[simp] theorem modRng_perf (d : Dev) (f : Rng → Rng) :
    (d.modRng f).perf = d.perf := rfl
@[simp] theorem modRng_ses (d : Dev) (f : Rng → Rng) :
    (d.modRng f).ses = d.ses := rfl
@[simp] theorem modRng_cry (d : Dev) (f : Rng → Rng) :
    (d.modRng f).cry = d.cry := rfl
@[simp] theorem modRng_jnl (d : Dev) (f : Rng → Rng) :
    (d.modRng f).jnl = d.jnl := rfl
@[simp] theorem modRng_tb (d : Dev) (f : Rng → Rng) :
    (d.modRng f).tb = d.tb := rfl
@[simp] theorem modRng_lnk (d : Dev) (f : Rng → Rng) :
    (d.modRng f).lnk = d.lnk := rfl
@[simp] theorem modRng_wrd (d : Dev) (f : Rng → Rng) :
    (d.modRng f).wrd = d.wrd := rfl
@[simp] theorem modRng_pwr (d : Dev) (f : Rng → Rng) :
    (d.modRng f).pwr = d.pwr := rfl
@[simp] theorem keepObjs_part (d : Dev) (p : Nat → Bool) :
    (d.keepObjs p).part = d.part := rfl
@[simp] theorem keepObjs_ident (d : Dev) (p : Nat → Bool) :
    (d.keepObjs p).ident = d.ident := rfl
@[simp] theorem keepObjs_up (d : Dev) (p : Nat → Bool) :
    (d.keepObjs p).up = d.up := rfl
@[simp] theorem keepObjs_tai (d : Dev) (p : Nat → Bool) :
    (d.keepObjs p).tai = d.tai := rfl
@[simp] theorem keepObjs_free (d : Dev) (p : Nat → Bool) :
    (d.keepObjs p).free = d.free := rfl
@[simp] theorem keepObjs_fab (d : Dev) (p : Nat → Bool) :
    (d.keepObjs p).fab = d.fab := rfl
@[simp] theorem keepObjs_mem (d : Dev) (p : Nat → Bool) :
    (d.keepObjs p).mem = d.mem := rfl
@[simp] theorem keepObjs_hasp (d : Dev) (p : Nat → Bool) :
    (d.keepObjs p).hasp = d.hasp := rfl
@[simp] theorem keepObjs_key (d : Dev) (p : Nat → Bool) :
    (d.keepObjs p).key = d.key := rfl
@[simp] theorem keepObjs_flt (d : Dev) (p : Nat → Bool) :
    (d.keepObjs p).flt = d.flt := rfl
@[simp] theorem keepObjs_perf (d : Dev) (p : Nat → Bool) :
    (d.keepObjs p).perf = d.perf := rfl
@[simp] theorem keepObjs_ses (d : Dev) (p : Nat → Bool) :
    (d.keepObjs p).ses = d.ses := rfl
@[simp] theorem keepObjs_cry (d : Dev) (p : Nat → Bool) :
    (d.keepObjs p).cry = d.cry := rfl
@[simp] theorem keepObjs_jnl (d : Dev) (p : Nat → Bool) :
    (d.keepObjs p).jnl = d.jnl := rfl
@[simp] theorem keepObjs_tb (d : Dev) (p : Nat → Bool) :
    (d.keepObjs p).tb = d.tb := rfl
@[simp] theorem keepObjs_lnk (d : Dev) (p : Nat → Bool) :
    (d.keepObjs p).lnk = d.lnk := rfl
@[simp] theorem keepObjs_wrd (d : Dev) (p : Nat → Bool) :
    (d.keepObjs p).wrd = d.wrd := rfl
@[simp] theorem keepObjs_rng (d : Dev) (p : Nat → Bool) :
    (d.keepObjs p).rng = d.rng := rfl
@[simp] theorem keepObjs_pwr (d : Dev) (p : Nat → Bool) :
    (d.keepObjs p).pwr = d.pwr := rfl
@[simp] theorem clearDieCounters_part (d : Dev) :
    (d.clearDieCounters).part = d.part := rfl
@[simp] theorem clearDieCounters_ident (d : Dev) :
    (d.clearDieCounters).ident = d.ident := rfl
@[simp] theorem clearDieCounters_up (d : Dev) :
    (d.clearDieCounters).up = d.up := rfl
@[simp] theorem clearDieCounters_tai (d : Dev) :
    (d.clearDieCounters).tai = d.tai := rfl
@[simp] theorem clearDieCounters_free (d : Dev) :
    (d.clearDieCounters).free = d.free := rfl
@[simp] theorem clearDieCounters_objs (d : Dev) :
    (d.clearDieCounters).objs = d.objs := rfl
@[simp] theorem clearDieCounters_fab (d : Dev) :
    (d.clearDieCounters).fab = d.fab := rfl
@[simp] theorem clearDieCounters_mem (d : Dev) :
    (d.clearDieCounters).mem = d.mem := rfl
@[simp] theorem clearDieCounters_hasp (d : Dev) :
    (d.clearDieCounters).hasp = d.hasp := rfl
@[simp] theorem clearDieCounters_key (d : Dev) :
    (d.clearDieCounters).key = d.key := rfl
@[simp] theorem clearDieCounters_flt (d : Dev) :
    (d.clearDieCounters).flt = d.flt := rfl
@[simp] theorem clearDieCounters_ses (d : Dev) :
    (d.clearDieCounters).ses = d.ses := rfl
@[simp] theorem clearDieCounters_cry (d : Dev) :
    (d.clearDieCounters).cry = d.cry := rfl
@[simp] theorem clearDieCounters_jnl (d : Dev) :
    (d.clearDieCounters).jnl = d.jnl := rfl
@[simp] theorem clearDieCounters_tb (d : Dev) :
    (d.clearDieCounters).tb = d.tb := rfl
@[simp] theorem clearDieCounters_lnk (d : Dev) :
    (d.clearDieCounters).lnk = d.lnk := rfl
@[simp] theorem clearDieCounters_wrd (d : Dev) :
    (d.clearDieCounters).wrd = d.wrd := rfl
@[simp] theorem clearDieCounters_rng (d : Dev) :
    (d.clearDieCounters).rng = d.rng := rfl
@[simp] theorem clearDieCounters_pwr (d : Dev) :
    (d.clearDieCounters).pwr = d.pwr := rfl

end Sys2Proof.Machine
end

