-- ==== Sys2Proof/Tests/Slice0.lean ====
section
/-! SUPPORT. Small tests: terms that the checks of well-formedness refuse, words of nodes written out from the encoding, and
for every statement with hypotheses a state and operands that meet them. -/

namespace Sys2Proof.Tests
open Sys2Proof Sys2Proof.Machine

/-! ### States and requests -/

/-- A ward that answers, with session 0 open for a role. -/
def wsOf (ro : Role) : WSes := ⟨.opened, ro, [1, 2, 3, 4, 5, 6, 7, 9], [], [], [1, 2, 3], 0, none, [(9, [])]⟩
def sesDev (p : Part) (ro : Role) : Dev :=
  { Dev.powerOn p with wrd := { wrdInit with up := true, state := 0, sessions := [(0, wsOf ro)] } }
def sesState (p : Part) (ro : Role) : State := ⟨sesDev p ro, []⟩

/-- A write in session 0, of `k` octets. -/
def wreq (idx sub k v : Nat) : DReq := ⟨0, 0, 2, idx, sub, 0, leOctets k v, []⟩

/-- A request with the `MAC` that a session's key gives it. -/
def DReq.signedBy (r : DReq) (d : Dev) (w : WSes) : DReq :=
  { r with mac := (hmac256 w.key (macOver 1 r.seq w.station d.nodeId (reqPayload r))).take 16 }

/-- A request signed for session 0. -/
def signed (p : Part) (ro : Role) (r : DReq) : DReq := DReq.signedBy r (sesDev p ro) (wsOf ro)

/-- What makes a write of session 0 one that is applied, but for its `MAC`. -/
def wants (p : Part) (ro : Role) (r : DReq) (row : WRow) : Bool :=
  r.sess == 0 && r.seq == 0 && r.op == 2 && (sesDev p ro).rowOf r == row && (match objRow p r.idx r.sub with
    | some o => o.mayWrite ro && r.data.length == o.octets && !(o.kind == 7 && decide (1 < reqValue r))
    | none => false)

theorem mac_of {r : DReq} {d : Dev} {w : WSes} {m : List Byte}
    (h : m = (hmac256 w.key (macOver 1 r.seq w.station d.nodeId (reqPayload r))).take 16) :
    d.macOk w { r with mac := m } = true := by
  have hp : reqPayload { r with mac := m } = reqPayload r := rfl
  unfold Dev.macOk
  rw [hp, ← h]
  exact beq_self_eq_true m

theorem mac_signed (p : Part) (ro : Role) (r : DReq) : (sesDev p ro).macOk (wsOf ro) (signed p ro r) = true := by
  unfold signed DReq.signedBy
  generalize h : List.take 16 _ = m
  exact mac_of h.symm

theorem admits_of {p : Part} {ro : Role} {q : DReq} (hs : q.sess = 0) (hq : q.seq = 0)
    (hm : (sesDev p ro).macOk (wsOf ro) q = true) : ∃ e, (sesDev p ro).admits q = some (ro, e) ∧ e.part = p := by
  have hg : tget? (sesDev p ro).wrd.sessions 0 = some (wsOf ro) := rfl
  have hu : (sesDev p ro).wardUp = true := rfl
  have hw : ¬ (0 = wardSes) := by decide
  have hd : (wsOf ro).done.any (fun x => x.1 == 0) = false := rfl
  have hst : (wsOf ro).stage = .opened := rfl
  have h2 : decide ((sesDev p ro).wrd.state = 2) = false := rfl
  refine ⟨{ sesDev p ro with wrd := { (sesDev p ro).wrd with
    sessions := tset (sesDev p ro).wrd.sessions 0 { wsOf ro with last := (sesDev p ro).up } } }, ?_, rfl⟩
  · unfold Dev.admits
    rw [hs, hg, hq]
    simp only [hu, hw, hm, hd, hst, h2, Bool.not_true, Bool.false_eq_true, if_false, ne_eq, not_true_eq_false, decide_false,
      Bool.or_self, Bool.false_and]
    rfl

theorem grants_signed {p : Part} {ro : Role} {r : DReq} {row : WRow} (h : wants p ro r row = true) :
    ∃ x, (sesDev p ro).grants (signed p ro r) row = some x := by
  simp only [wants, Bool.and_eq_true, beq_iff_eq] at h
  obtain ⟨⟨⟨⟨h0, h1⟩, h2⟩, h3⟩, h4⟩ := h
  have hs : (signed p ro r).sess = 0 := by simp only [signed, DReq.signedBy, h0]
  have hq : (signed p ro r).seq = 0 := by simp only [signed, DReq.signedBy, h1]
  have hm : (sesDev p ro).macOk (wsOf ro) (signed p ro r) = true := mac_signed p ro r
  have hx : (signed p ro r).op = 2 ∧ (sesDev p ro).rowOf (signed p ro r) = row := by
    simp only [signed, DReq.signedBy, Dev.rowOf, reqValue] at h3 ⊢; exact ⟨h2, h3⟩
  have hr : objRow (sesDev p ro).part (signed p ro r).idx (signed p ro r).sub = objRow p r.idx r.sub := by
    simp only [signed, DReq.signedBy]; rfl
  have hl : (signed p ro r).data = r.data := by simp only [signed, DReq.signedBy]
  have hv : reqValue (signed p ro r) = reqValue r := by simp only [signed, DReq.signedBy, reqValue]
  generalize signed p ro r = q at *
  obtain ⟨e, he, -⟩ := admits_of hs hq hm
  refine ⟨(ro, e), ?_⟩
  unfold Dev.grants
  rw [if_pos hx, he, hr]
  cases ho : objRow p r.idx r.sub with
  | none => rw [ho] at h4; exact absurd h4 (by simp)
  | some o => rw [ho, ← hl, ← hv] at h4; exact if_pos h4

/-! ### Dictionary writes that are applied -/

/-- Witnesses of SessionOpening: for each of its writes a request that the ward applies. -/
theorem test_grants_SessionOpening :
    (∃ x, (sesDev .x .P).grants (signed .x .P (wreq 0x4001 5 1 1)) .sesEnable = some x)
    ∧ (∃ x, (sesDev .x .P).grants (signed .x .P (wreq 0x4001 5 1 2)) .sesClose = some x)
    ∧ (∃ x, (sesDev .x .P).grants (signed .x .P (wreq 0x4001 5 1 3)) .sesDisable = some x) :=
  ⟨grants_signed (by decide +kernel), grants_signed (by decide +kernel), grants_signed (by decide +kernel)⟩

/-- Witnesses of RingWrites: for each of its writes a request that the ward applies. -/
theorem test_grants_RingWrites :
    (∃ x, (sesDev .x .P).grants (signed .x .P (wreq 0x4020 1 1 1)) .ingressEnable = some x)
    ∧ (∃ x, (sesDev .x .P).grants (signed .x .P (wreq 0x4100 1 1 1)) .ringEnable = some x)
    ∧ (∃ x, (sesDev .x .P).grants (signed .x .P (wreq 0x42ff 1 1 0)) .ringDisable = some x)
    ∧ (∃ x, (sesDev .x .P).grants (signed .x .P (wreq 0x4100 9 1 4)) .overrunClear = some x)
    ∧ (∃ x, (sesDev .x .P).grants (signed .x .P (wreq 0x2301 1 4 5)) .watermark = some x) :=
  ⟨grants_signed (by decide +kernel), grants_signed (by decide +kernel), grants_signed (by decide +kernel), grants_signed (by decide +kernel), grants_signed (by decide +kernel)⟩

/-- Witnesses of ContextTimes: for each of its writes a request that the ward applies. -/
theorem test_grants_ContextTimes :
    (∃ x, (sesDev .x .P).grants (signed .x .P (wreq 0x2120 1 4 64)) .forceStandin = some x) := grants_signed (by decide +kernel)

/-- Witnesses of SpillCommands: for each of its writes a request that the ward applies. -/
theorem test_grants_SpillCommands :
    (∃ x, (sesDev .x .K).grants (signed .x .K (wreq 0x6310 1 5 8)) .orphanBreak = some x) := grants_signed (by decide +kernel)

/-- Witnesses of SwapAndDomainCommands: for each of its writes a request that the ward applies. -/
theorem test_grants_SwapAndDomainCommands :
    (∃ x, (sesDev .x .P).grants (signed .x .P (wreq 0x8000 2 1 1)) .routeSwap = some x)
    ∧ (∃ x, (sesDev .x .P).grants (signed .x .P (wreq 0x8020 1 2 3)) .domainDown = some x)
    ∧ (∃ x, (sesDev .x .P).grants (signed .x .P (wreq 0x8020 1 2 32771)) .domainUp = some x) :=
  ⟨grants_signed (by decide +kernel), grants_signed (by decide +kernel), grants_signed (by decide +kernel)⟩

/-- Witnesses of CryptoUnitCommands: for each of its writes a request that the ward applies. -/
theorem test_grants_CryptoUnitCommands :
    (∃ x, (sesDev .x .W).grants (signed .x .W (wreq 0x5020 3 1 1)) .drbgRestart = some x)
    ∧ (∃ x, (sesDev .x .K).grants (signed .x .K (wreq 0x5010 2 1 1)) .zeroize = some x) :=
  ⟨grants_signed (by decide +kernel), grants_signed (by decide +kernel)⟩

/-- Witnesses of KeyringCommands: for each of its writes a request that the ward applies. -/
theorem test_grants_KeyringCommands :
    (∃ x, (sesDev .x .K).grants (signed .x .K (wreq 0x5000 4 1 1)) .masterKey = some x)
    ∧ (∃ x, (sesDev .x .K).grants (signed .x .K (wreq 0x5001 5 1 1)) .keyDelete = some x)
    ∧ (∃ x, (sesDev .x .K).grants (signed .x .K (wreq 0x5002 4 1 1)) .importCmd = some x)
    ∧ (∃ x, (sesDev .x .K).grants (signed .x .K (wreq 0x5003 3 1 1)) .exportCmd = some x)
    ∧ (∃ x, (sesDev .x .K).grants (signed .x .K (wreq 0x5004 1 32 1)) .component = some x)
    ∧ (∃ x, (sesDev .x .K).grants (signed .x .K (wreq 0x5005 3 1 1)) .genCmd = some x) :=
  ⟨grants_signed (by decide +kernel), grants_signed (by decide +kernel), grants_signed (by decide +kernel), grants_signed (by decide +kernel), grants_signed (by decide +kernel), grants_signed (by decide +kernel)⟩

/-- Witnesses of JournalCommands: for each of its writes a request that the ward applies. -/
theorem test_grants_JournalCommands :
    (∃ x, (sesDev .x .P).grants (signed .x .P (wreq 0x7010 3 1 1)) .ckptRequest = some x) := grants_signed (by decide +kernel)

/-- Witnesses of TimebaseCommands: for each of its writes a request that the ward applies. -/
theorem test_grants_TimebaseCommands :
    (∃ x, (sesDev .x .P).grants (signed .x .P (wreq 0x7100 5 8 1)) .taiSet = some x)
    ∧ (∃ x, (sesDev .x .P).grants (signed .x .P (wreq 0x7100 6 5 1)) .taiSlew = some x)
    ∧ (∃ x, (sesDev .x .P).grants (signed .x .P (wreq 0x7100 2 1 1)) .tbSource = some x) :=
  ⟨grants_signed (by decide +kernel), grants_signed (by decide +kernel), grants_signed (by decide +kernel)⟩

/-- Witnesses of WardCommands: for each of its writes a request that the ward applies. -/
theorem test_grants_WardCommands :
    (∃ x, (sesDev .x .K).grants (signed .x .K (wreq 0xc000 4 1 1)) .wardRestart = some x)
    ∧ (∃ x, (sesDev .x .K).grants (signed .x .K (wreq 0xc200 4 1 1)) .fwCommand = some x) :=
  ⟨grants_signed (by decide +kernel), grants_signed (by decide +kernel)⟩

/-- Witnesses of StoreAndImageCommands: for each of its writes a request that the ward applies. -/
theorem test_grants_StoreAndImageCommands :
    (∃ x, (sesDev .x .P).grants (signed .x .P (wreq 0x1010 1 1 1)) .store = some x)
    ∧ (∃ x, (sesDev .x .P).grants (signed .x .P (wreq 0x1010 1 1 2)) .restore = some x)
    ∧ (∃ x, (sesDev .x .P).grants (signed .x .P (wreq 0x1010 1 1 3)) .storeErase = some x)
    ∧ (∃ x, (sesDev .x .P).grants (signed .x .P (wreq 0xd000 3 1 1)) .imgActivate = some x)
    ∧ (∃ x, (sesDev .x .P).grants (signed .x .P (wreq 0xd000 3 1 2)) .imgDeactivate = some x)
    ∧ (∃ x, (sesDev .x .P).grants (signed .x .P (wreq 0xd000 3 1 3)) .imgErase = some x) :=
  ⟨grants_signed (by decide +kernel), grants_signed (by decide +kernel), grants_signed (by decide +kernel), grants_signed (by decide +kernel), grants_signed (by decide +kernel), grants_signed (by decide +kernel)⟩

/-- Witnesses of LinkStateCommands: for each of its writes a request that the ward applies. -/
theorem test_grants_LinkStateCommands :
    (∃ x, (sesDev .x .P).grants (signed .x .P (wreq 0x8101 1 1 1)) .linkSet = some x)
    ∧ (∃ x, (sesDev .x .P).grants (signed .x .P (wreq 0x8111 1 1 0)) .linkClear = some x)
    ∧ (∃ x, (sesDev .x .P).grants (signed .x .P (wreq 0x8100 1 2 5)) .deviceId = some x) :=
  ⟨grants_signed (by decide +kernel), grants_signed (by decide +kernel), grants_signed (by decide +kernel)⟩

/-- Witnesses of LinkWordCommands: for each of its writes a request that the ward applies. -/
theorem test_grants_LinkWordCommands :
    (∃ x, (sesDev .x .P).grants (signed .x .P (wreq 0x8200 1 1 1)) .ethSplit = some x) := grants_signed (by decide +kernel)

/-- Witnesses of CounterCommands: for each of its writes a request that the ward applies. -/
theorem test_grants_CounterCommands :
    (∃ x, (sesDev .x .P).grants (signed .x .P (wreq 0xa100 10 8 1)) .cntConfig = some x)
    ∧ (∃ x, (sesDev .x .P).grants (signed .x .P (wreq 0xa104 9 8 1)) .cntValue = some x)
    ∧ (∃ x, (sesDev .x .P).grants (signed .x .P (wreq 0xa000 11 1 1)) .ovfPop = some x) :=
  ⟨grants_signed (by decide +kernel), grants_signed (by decide +kernel), grants_signed (by decide +kernel)⟩

/-- Witnesses of FaultCommands: for each of its writes a request that the ward applies. -/
theorem test_grants_FaultCommands :
    (∃ x, (sesDev .x .P).grants (signed .x .P (wreq 0x9000 4 1 3)) .faultAck = some x)
    ∧ (∃ x, (sesDev .x .P).grants (signed .x .P (wreq 0x9000 5 1 3)) .faultClear = some x) :=
  ⟨grants_signed (by decide +kernel), grants_signed (by decide +kernel)⟩

/-- Witnesses of TestCommands: for each of its writes a request that the ward applies. -/
theorem test_grants_TestCommands :
    (∃ x, (sesDev .x .P).grants (signed .x .P (wreq 0x9220 1 1 1)) .bistCmd = some x)
    ∧ (∃ x, (sesDev .x .K).grants (signed .x .K (wreq 0x9300 6 1 1)) .injArm = some x) :=
  ⟨grants_signed (by decide +kernel), grants_signed (by decide +kernel)⟩

/-- Witnesses of ResetCommands: for each of its writes a request that the ward applies. -/
theorem test_grants_ResetCommands :
    (∃ x, (sesDev .x .K).grants (signed .x .K (wreq 0xb001 2 1 1)) .sysReset = some x)
    ∧ (∃ x, (sesDev .x .P).grants (signed .x .P (wreq 0xb001 1 1 1)) .coreReset = some x) :=
  ⟨grants_signed (by decide +kernel), grants_signed (by decide +kernel)⟩

/-- Witnesses of SoftResetCommands: for each of its writes a request that the ward applies. -/
theorem test_grants_SoftResetCommands :
    (∃ x, (sesDev .s .P).grants (signed .s .P (wreq 0xb002 1 1 1)) (.sr 0) = some x)
    ∧ (∃ x, (sesDev .s .P).grants (signed .s .P (wreq 0xb002 1 1 2)) (.sr 1) = some x)
    ∧ (∃ x, (sesDev .s .P).grants (signed .s .P (wreq 0xb002 1 1 4)) (.sr 2) = some x)
    ∧ (∃ x, (sesDev .s .P).grants (signed .s .P (wreq 0xb002 1 1 8)) (.sr 3) = some x)
    ∧ (∃ x, (sesDev .s .P).grants (signed .s .P (wreq 0xb002 1 1 16)) (.sr 4) = some x)
    ∧ (∃ x, (sesDev .s .P).grants (signed .s .P (wreq 0xb002 1 1 32)) (.sr 5) = some x)
    ∧ (∃ x, (sesDev .s .P).grants (signed .s .P (wreq 0xb002 1 1 64)) (.sr 6) = some x)
    ∧ (∃ x, (sesDev .s .P).grants (signed .s .P (wreq 0xb002 1 1 128)) (.sr 7) = some x)
    ∧ (∃ x, (sesDev .s .P).grants (signed .s .P (wreq 0xb002 1 1 255)) .fullSoft = some x) :=
  ⟨grants_signed (by decide +kernel), grants_signed (by decide +kernel), grants_signed (by decide +kernel), grants_signed (by decide +kernel), grants_signed (by decide +kernel), grants_signed (by decide +kernel), grants_signed (by decide +kernel), grants_signed (by decide +kernel), grants_signed (by decide +kernel)⟩

/-- Witnesses of GovernorCommands: for each of its writes a request that the ward applies. -/
theorem test_grants_GovernorCommands :
    (∃ x, (sesDev .x .P).grants (signed .x .P (wreq 0xb011 1 1 1)) .boost = some x) := grants_signed (by decide +kernel)
/-! ### Ill-formed terms, refused -/

def okReq : DReq := ⟨0, 0, 2, 0x4020, 1, 0, [1], List.replicate 16 0⟩
def okFrame : RFrame := ⟨1, 0, 0, 0, List.replicate 8 0, List.replicate 8 0, []⟩
def okSeg : SegIn := ⟨false, 0, 0, 0, 0, 0, true, false, false, false, 0, none, none, false, [], []⟩
def okHs : HsIn := ⟨true, 1, 1, 1, none, none, true⟩
def okRegs : QpRegs := ⟨64, 64, []⟩
def okWord : WordIn := ⟨0, 0, 0, 0, 0, 0, 0, true⟩

theorem test_wf_request : okReq.wf = true ∧ { okReq with sess := 16 }.wf = false ∧ { okReq with seq := 65536 }.wf = false
    ∧ { okReq with op := 256 }.wf = false ∧ { okReq with idx := 65536 }.wf = false ∧ { okReq with sub := 256 }.wf = false
    ∧ { okReq with off := 2 ^ 32 }.wf = false ∧ { okReq with mac := [] }.wf = false
    ∧ (Instr.ingressEnableWrite { okReq with sess := 16 }).wf = false := by decide
theorem test_wf_frame : okFrame.wf = true ∧ { okFrame with typ := 256 }.wf = false ∧ { okFrame with flags := 256 }.wf = false
    ∧ { okFrame with hops := 65536 }.wf = false ∧ { okFrame with seq := 65536 }.wf = false ∧ { okFrame with src := [] }.wf = false
    ∧ { okFrame with dst := [] }.wf = false ∧ (Instr.ringFaultFrameReceive { okFrame with typ := 256 }).wf = false
    ∧ (Instr.ringFrameForward 2 okFrame ⟨0, true⟩).wf = false
    ∧ (Instr.ringFrameForward 0 okFrame ⟨2 ^ 32, true⟩).wf = false := by decide
theorem test_wf_segment : okSeg.wf = true ∧ { okSeg with addr := 2 ^ 128 }.wf = false ∧ { okSeg with sport := 65536 }.wf = false
    ∧ { okSeg with dport := 65536 }.wf = false ∧ { okSeg with seq := 2 ^ 32 }.wf = false ∧ { okSeg with ack := 2 ^ 32 }.wf = false
    ∧ { okSeg with wnd := 65536 }.wf = false ∧ (Instr.tcpSegmentReceive 8 okSeg).wf = false := by decide
theorem test_wf_word : okWord.wf = true ∧ { okWord with ddev := 4096 }.wf = false ∧ { okWord with odev := 4096 }.wf = false
    ∧ { okWord with hops := 256 }.wf = false ∧ { okWord with seq := 4096 }.wf = false ∧ { okWord with crc := 2 ^ 32 }.wf = false
    ∧ (Instr.linkWordReceive 6 okWord).wf = false := by
  decide
theorem test_wf_numbers : (Instr.tlsRecordReceive 65536 1 .bad).wf = false ∧ (Instr.tlsRecordReceive 0 (2 ^ 20) .bad).wf = false
    ∧ (Instr.connectTimeout 65536).wf = false ∧ (Instr.lexRecord 256).wf = false ∧ (Instr.pfcRenew 8).wf = false
    ∧ (Instr.dueTimeExpiry (2 ^ 24)).wf = false ∧ (Instr.paceWindowEnd [(136, 0)]).wf = false ∧ (Instr.journalAppend 16).wf = false
    ∧ (Instr.routerHop 149 0 0).wf = false ∧ (Instr.routerHop 0 10 0).wf = false ∧ (Instr.routerHop 0 0 4).wf = false
    ∧ (Instr.matchArrival 136 0).wf = false ∧ (Instr.matchArrival 0 4).wf = false ∧ (Instr.dispatch 136).wf = false
    ∧ (Instr.frameFetchDone 0 (2 ^ 24)).wf = false ∧ (Instr.fabricStallDetect 4).wf = false := by decide
theorem test_wf_queues : (Instr.spillBurstDone (.ready 136 0)).wf = false ∧ (Instr.spillBurstDone (.ready 0 8)).wf = false
    ∧ (Instr.spillBurstDone (.ingress 256)).wf = false ∧ (Instr.spillRefillDone (.egress 256)).wf = false
    ∧ (Instr.spillRefillDone (.park 256)).wf = false ∧ (Instr.cryptoSlotStart 0x20000).wf = false ∧ (Instr.drbgReseed 4).wf = false
    ∧ (Instr.ptpSyncSend 8).wf = false ∧ (Instr.hingeClose 2).wf = false ∧ (Instr.imgVerifyDone 0xCFFF).wf = false
    ∧ (Instr.swapVcDrained 4).wf = false ∧ (Instr.linkTrained 0 4096 0).wf = false ∧ (Instr.linkCreditWord 0 [] 0).wf = false
    ∧ (Instr.linkRetryRequest 0 4096).wf = false ∧ (Instr.graceExpiry 256).wf = false ∧ (Instr.historyCloseExpiry 16).wf = false := by
  decide
theorem test_wf_sites : (Instr.add (.cell 136 0)).wf = false ∧ (Instr.add (.cell 0 16)).wf = false ∧ (Instr.add .glolet).wf = true
    ∧ (Instr.bistDone [136]).wf = false ∧ (Instr.pllLock 20).wf = false ∧ (Instr.hbmPeriodicCalibration 8).wf = false
    ∧ (Instr.ppsOutWidthEnd 2).wf = false ∧ (Instr.sessionIdleTimeout 16).wf = false
    ∧ (Instr.handshakeComplete 0 { okHs with suites := 4 }).wf = false ∧ (Instr.handshakeComplete 0 { okHs with groups := 4 }).wf = false
    ∧ (Instr.handshakeComplete 0 { okHs with sigs := 16 }).wf = false ∧ (Instr.handshakeComplete 0 okHs).wf = true
    ∧ (Instr.pcieDoorbell 64 okRegs 0 0 true okFrame).wf = false ∧ (Instr.pcieDoorbell 0 { okRegs with subLen := 2 ^ 32 } 0 0 true okFrame).wf = false
    ∧ (Instr.pcieDoorbell 63 { okRegs with cplLen := 2 ^ 32 } 0 0 true okFrame).wf = false ∧ (Instr.pcieDoorbell 63 okRegs 0 0 true okFrame).wf = true := by
  decide

/-! ### Words of nodes, written out from R147–R159 (mode byte TIN CTL DST SRC SW, destinations bank 1, offset 0x0010, port 2) -/

/-- What a decoded word names: opcode, class, input ports, destinations, length. -/
def names (l : List Byte) : Option (Op × Cls × Nat × List Dst × Nat) :=
  match decodeNode l with
  | .ok n => some (n.op, n.cls, n.ports, n.dsts, n.len)
  | .error _ => none
def dst : Dst := ⟨1, 0x0010, 2, 0⟩

theorem test_decode_d : names [0x01, 0x50, 0x08, 0x01, 0x10, 0x08, 0x01, 0x10] = some (.steer, .D, 2, [dst, dst], 8) := by decide
theorem test_decode_a : names [0x10, 0x48, 0x08, 0x01, 0x10] = some (.add, .A, 2, [dst], 5) := by decide
theorem test_decode_l : names [0x23, 0x08, 0x08, 0x01, 0x10] = some (.not, .L, 1, [dst], 5) := by decide
theorem test_decode_s : names [0xF9, 0x10, 0x48, 0x08, 0x01, 0x10] = some (.hash, .S, 2, [dst], 6) := by decide
theorem test_decode_c : names [0x50, 0x48, 0x08, 0x01, 0x10] = some (.ceqb, .C, 2, [dst], 5) := by decide
theorem test_decode_q : names [0x90, 0x0A, 0x20, 0x05, 0x08, 0x01, 0x10] = some (.flgr, .Q, 1, [dst], 7) := by decide
theorem test_decode_m : (match decodeNode [0x60, 0x0A, 0x40, 0x34, 0x12, 0x08, 0x01, 0x10] with
    | .ok n => some (n.op, n.srcs, n.moff, n.dsts, n.len) | .error _ => none)
    = some (.ld, [], 0x1234, [dst], 8) := by decide
theorem test_decode_y : names [0x70, 0x48, 0x08, 0x01, 0x10] = some (.aadd, .Y, 2, [dst], 5) := by decide
theorem test_decode_k : names [0x78, 0x08, 0x08, 0x01, 0x10] = some (.lock, .K, 1, [dst], 5) := by decide
theorem test_decode_b : names [0x80, 0x08, 0x08, 0x01, 0x10] = some (.bld, .B, 1, [dst], 5) := by decide
theorem test_decode_v : names [0xC6, 0x08, 0x08, 0x01, 0x10] = some (.bswap, .V, 1, [dst], 5) := by decide
theorem test_decode_f : names [0xB0, 0x48, 0x08, 0x01, 0x10] = some (.fadd, .F, 2, [dst], 5) := by decide
theorem test_decode_t : (match decodeNode [0xE1, 0x0A, 0x20, 0x07, 0x08, 0x01, 0x10] with
    | .ok n => some (n.op, n.cls, n.att, n.fn, n.len) | .error _ => none) = some (.att, .T, 1, 7, 7) := by decide
theorem test_decode_att : (match decodeNode [0xFA, 0x03, 0x08, 0x02, 0x08, 0x01, 0x10] with
    | .ok n => some (n.op, n.att, n.fn, n.len) | .error _ => none) = some (.att, 2, 3, 7) := by decide
theorem test_decode_g : (match decodeGlolet [0xF9, 0x00, 0x02, 0x40, 0xFE, 0xFF] with
    | .ok n => some (n.op, n.cls, n.srcs.map (·.imm), n.len) | .error _ => none) = some (.jmp, .G, [0xFFFFFFFFFE], 6) := by decide
theorem test_decode_refused : (match decodeNode [0x0C, 0x08, 0x08, 0x01, 0x10] with | .ok _ => 0 | .error e => e) = 0x001
    ∧ (match decodeNode [0xF2, 0xF2, 0x10, 0x48, 0x08, 0x01, 0x10] with | .ok _ => 0 | .error e => e) = 0x002
    ∧ (match decodeNode [0x10, 0xC8, 0x08, 0x01, 0x10] with | .ok _ => 0 | .error e => e) = 0x005
    ∧ (match decodeNode [0x10, 0x08, 0x08, 0x01, 0x10] with | .ok _ => 0 | .error e => e) = 0x006
    ∧ (match decodeNode [0xF3, 0x20, 0x48, 0x08, 0x01, 0x10] with | .ok _ => 0 | .error e => e) = 0x007
    ∧ (match decodeNode [0xD8] with | .ok _ => 0 | .error e => e) = 0x00D := by decide

/-! ### Statements with hypotheses: states and operands that meet them -/

/-- A block whose cell 0 of position 0 holds one firing, of the node made of `l`; the same firing is ready in queue 0, and the
node stands at bank 1, offset 16, in a line that is loaded. -/
def fireTok : W128 := mkTok (mkTag 5 0 0 0x10010 0) 7 0 0
def fireOne : Firing := ⟨[fireTok], 0⟩
def fireDev (l : List Byte) : Dev :=
  { Dev.powerOn .x with
    fab := { fabInit with pos := [(0, { posInit with
      st := .inService, code := [lineKey 0x10010], rq := { sqEnable sqOff with head := [fireOne], wr := 1 } :: List.replicate 7 sqOff,
      cells := [(0, { cellInit with pipe := [⟨fireOne, some l⟩] })] })] }
    wrd := { wrdInit with graphs := [(0, { graphInit with banks := 2, code := [(1, List.replicate 16 0 ++ l)] })] } }
def nodeAt (l : List Byte) : Node := match decodeNode l with | .ok n => n | .error _ => illegalNode

def fires (l : List Byte) : Bool :=
  (fireDev l).cellReady 0 0 (nodeAt l) && (match decodeNode l with | .ok _ => true | .error _ => false)

theorem ready_of {l : List Byte} (h : fires l = true) : (fireDev l).headReady 0 0 fireOne fireTok (nodeAt l) := by
  simp only [fires, Bool.and_eq_true] at h
  obtain ⟨h1, h2⟩ := h
  refine ⟨l, rfl, rfl, ?_, h1⟩
  unfold nodeAt
  cases hd : decodeNode l with
  | ok n => rfl
  | error e => rw [hd] at h2; exact absurd h2 (by simp)

def passWord : List Byte := [0x00, 0x08, 0x08, 0x01, 0x10]
def flagWord : List Byte := [0x90, 0x0A, 0x20, 0x05, 0x08, 0x01, 0x10]
def loadWord : List Byte := [0x60, 0x0A, 0x40, 0x34, 0x12, 0x08, 0x01, 0x10]
def xchgWord : List Byte := [0x74, 0x0A, 0x20, 0x01, 0x08, 0x01, 0x10]
def lockWord : List Byte := [0x78, 0x08, 0x08, 0x01, 0x10]
def bitWord : List Byte := [0x80, 0x08, 0x08, 0x01, 0x10]
def callWord : List Byte := [0xE1, 0x0A, 0x20, 0x07, 0x08, 0x01, 0x10]
def negWord : List Byte := [0x14, 0x08, 0x08, 0x01, 0x10]

theorem test_ready_DataflowRows :
    (fireDev passWord).headReady 0 0 fireOne fireTok (nodeAt passWord) ∧ (nodeAt passWord).cls = .D ∧ (nodeAt passWord).op = .pass
    ∧ (fireDev flagWord).headReady 0 0 fireOne fireTok (nodeAt flagWord) ∧ (nodeAt flagWord).cls = .Q
    ∧ (nodeAt flagWord).op = .flgr :=
  ⟨ready_of (by decide +kernel), by decide +kernel, by decide +kernel, ready_of (by decide +kernel), by decide +kernel,
    by decide +kernel⟩
theorem test_ready_SplitPhaseRows : [loadWord, xchgWord, lockWord, bitWord, callWord].all fires = true
    ∧ [loadWord, xchgWord, lockWord, bitWord, callWord].map (fun l => ((nodeAt l).cls, (nodeAt l).op))
      = [(.M, .ld), (.Y, .axchg), (.K, .lock), (.B, .bld), (.T, .att)] ∧ attIs 1 7 (nodeAt callWord) = true := by
  decide +kernel
theorem test_ready_ComputeRows :
    (fireDev negWord).headReady 0 0 fireOne fireTok (nodeAt negWord) ∧ (nodeAt negWord).cls = .A
    ∧ (nodeAt negWord).op = .neg ∧ (nodeAt negWord).op ≠ .pass ∧ ((fireDev negWord).cell 0 1).pipe = [] :=
  ⟨ready_of (by decide +kernel), by decide +kernel, by decide +kernel, by decide +kernel, rfl⟩
def badWord : List Byte := [0x0C, 0x08, 0x08, 0x01, 0x10]
theorem test_dispatched_IllegalNode : let d := fireDev badWord
    (d.pos 0).st = .inService ∧ d.pick 0 8 = some (.give 0 fireOne) ∧ fireOne.toks.head? = some fireTok
    ∧ (let e := d.popReady 0 0
      (e.pos 0).idleCell e.up = some 0 ∧ (e.pos 0).code.contains (lineKey (tNode fireTok)) = true ∧ (e.pos 0).badCode = []
      ∧ e.flt.injLeft = 0 ∧ checkWord fireTok = .clean ∧ tokMalformed fireTok (e.shapeOf (tNode fireTok)) = false
      ∧ tGen fireTok = e.gen (tCtx fireTok) ∧ (match decodeNode (e.codeAt (tNode fireTok)) with | .ok _ => 0 | .error n => n) = 1) := by
  decide +kernel

/-- A block whose core runs at the start of the ward's memory, where `l` stands. -/
def coreDev (l : List Byte) : Dev :=
  { Dev.powerOn .x with wrd := { wrdInit with
      up := true, core := { gloletInit with pc := 0x100000 }, sram := memWrite [] 0x100000 l } }
def coreNode (l : List Byte) : Node := match decodeGlolet (coreDev l).coreFetch with | .ok n => n | .error _ => illegalNode
def coreRunsAt (l : List Byte) : Bool :=
  (coreDev l).coreRuns && coreExec (coreDev l).wrd.core.pc && (match decodeGlolet (coreDev l).coreFetch with | .ok _ => true | .error _ => false)
theorem core_ready {l : List Byte} (h : coreRunsAt l = true) : (coreDev l).coreReady (coreNode l) := by
  simp only [coreRunsAt, Bool.and_eq_true] at h
  obtain ⟨⟨h1, h2⟩, h3⟩ := h
  refine ⟨h1, h2, ?_⟩
  unfold coreNode
  cases hd : decodeGlolet (coreDev l).coreFetch with
  | ok n => rfl
  | error e => rw [hd] at h3; exact absurd h3 (by simp)

theorem test_ready_GloletRows : (coreDev [0x10, 0x05, 0x01, 0x02, 0x03]).coreReady (coreNode [0x10, 0x05, 0x01, 0x02, 0x03])
    ∧ (coreNode [0x10, 0x05, 0x01, 0x02, 0x03]).op = .add ∧ (coreDev [0xD8]).coreReady (coreNode [0xD8])
    ∧ (coreNode [0xD8]).op = .nop := ⟨core_ready (by decide +kernel), by decide +kernel, core_ready (by decide +kernel), by decide +kernel⟩
theorem test_ready_GloletControl :
    ([[0xF9, 0x00, 0x02, 0x40, 0xFE, 0xFF], [0xF9, 0x01, 0x04, 0x01, 0x40, 2, 0], [0xF9, 0x02, 0x04, 0x01, 0x40, 2, 0],
      [0xF9, 0x03, 0x03, 0x40, 2, 0, 0x01], [0xF9, 0x04, 0x02, 0x01], [0xDA], [0xF9, 0x05, 0x00], [0xD9], [0xDB], [0xD8]]
        : List (List Byte)).all coreRunsAt = true
    ∧ ([[0xF9, 0x00, 0x02, 0x40, 0xFE, 0xFF], [0xF9, 0x01, 0x04, 0x01, 0x40, 2, 0], [0xF9, 0x02, 0x04, 0x01, 0x40, 2, 0],
      [0xF9, 0x03, 0x03, 0x40, 2, 0, 0x01], [0xF9, 0x04, 0x02, 0x01], [0xDA], [0xF9, 0x05, 0x00], [0xD9], [0xDB], [0xD8]]
        : List (List Byte)).map (fun l => (coreNode l).op)
      = [.jmp, .bz, .bnz, .jal, .jr, .ret, .trapret, .halt, .wfi, .nop] := by decide +kernel
theorem test_traps_GloletControl :
    (match decodeGlolet (coreDev [0x0C]).coreFetch with | .ok _ => 0 | .error e => e) = 1 ∧ (coreDev [0x0C]).coreRuns = true
    ∧ coreExec 0x20000 = false
    ∧ (let c := { gloletInit with irqEn := 6, irqPend := 4 }; bit (c.irqEn &&& c.irqPend) 2 = true
      ∧ ∀ j, j < 2 → bit (c.irqEn &&& c.irqPend) j = false) := by decide +kernel

/-- A message waits at the keyway, which is closed to all: no reset has ended. -/
def waitingDesc : Desc := ⟨0, 3, 0, 4, 0, false, true, false, 0, 1, 4, true, true, false, none, 0, 0, [], 0, false⟩
def closedDev : Dev :=
  { Dev.powerOn .x with key := { keyInit with signals := [⟨0, 0⟩] }
                        ses := { sesUInit with ing := [(0, { inRingInit with descs := [waitingDesc] })] } }
theorem test_waits_ClosedKeywayRejects : closedDev.key.signals = [⟨0, 0⟩] ∧ closedDev.signalNext = true ∧ closedDev.paceDue = false
    ∧ (closedDev.ing 0).descs = [waitingDesc] ∧ closedDev.isReply waitingDesc = false ∧ closedDev.keyClosed = true
    ∧ (∀ e ∈ closedDev.ses.ing, e.2.wait = none) ∧ inRingInit.wait = none := by decide +kernel
theorem test_limits_SpillQueueOrder : ∀ x ∈ ([(⟨5, 64, 9, 3, 0⟩, .write 1), (⟨5, 0, 9, 3, 0⟩, .burst)] : List (SqCfg × QStep Nat)),
    x.1.limit = 5 := by
  intro x h
  fin_cases h <;> rfl

def aluEnv40 : AluEnv := ⟨40, false, false, 0, false, [], []⟩
theorem test_env_arithmetic : aluEnv40.w = 40 ∧ aluEnv40.sat = false ∧ aluEnv40.fix = false
    ∧ { aluEnv40 with w := 80 }.w = 80 ∧ { aluEnv40 with sat := true }.sat = true
    ∧ (let a : BitVec 40 := 0x4000000000; decide (2 ^ 39 ≤ a.toInt * 2 ^ 1) = true ∧ 0 < 1) := by decide

def wellFormedQueue : State := ⟨Dev.powerOn .x, [.drainTick, .piSignal]⟩
theorem test_StepRunsFront : wellFormedQueue.pending.head? = some .drainTick ∧ State.reset.pending = [] := ⟨rfl, rfl⟩
theorem test_QueueDrains : 1 ≤ wellFormedQueue.pending.length ∧ wellFormedQueue.pending[1]? = some .piSignal := ⟨by decide, rfl⟩
theorem test_StepKeepsInv : wellFormedQueue.Inv .x Ident.factory :=
  ⟨rfl, rfl, by decide, by intro c h; fin_cases h <;> rfl⟩
theorem test_TokenFields : (5 : Nat) < 2 ^ 24 ∧ (63 : Nat) < 64 ∧ (1023 : Nat) < 1024 ∧ (2 ^ 20 - 1 : Nat) < 2 ^ 20 ∧ (3 : Nat) < 4
    ∧ (2 ^ 40 - 1 : Nat) < 2 ^ 40 ∧ (7 : Nat) < 8 ∧ (31 : Nat) < 32 ∧ (2 ^ 112 - 1 : Nat) < 2 ^ 112 := by decide
theorem test_UnauthenticatedRequests : asked (.dictRead (wreq 0 0 0 0)) = some (wreq 0 0 0 0)
    ∧ (sesDev .x .O).wardUp = true ∧ (wreq 0 0 0 0).sess ≠ wardSes
    ∧ tget? (sesDev .x .O).wrd.sessions 1 = none ∧ tget? (sesDev .x .O).wrd.sessions 0 = some (wsOf .O)
    ∧ { wsOf .O with stage := .challenged }.stage ≠ .opened := by decide +kernel
theorem test_GuardedWrites_rights : (∃ e, (sesDev .x .O).admits (signed .x .O (wreq 0x4020 1 1 1)) = some (.O, e) ∧ e.part = .x)
    ∧ (match objRow .x 0x4020 1 with | some o => o.mayWrite .O | none => true) = false
    ∧ (sesDev .x .O).rowOf (wreq 0x4000 7 4 0) = .plain
    ∧ (match objRow .x 0x4000 7 with | some o => o.mayWrite .O | none => true) = false :=
  ⟨admits_of (by simp only [signed, DReq.signedBy, wreq]) (by simp only [signed, DReq.signedBy, wreq]) (mac_signed _ _ _),
    by decide +kernel, by decide +kernel, by decide +kernel⟩
theorem test_GuardedWrites_repeated : tget? (sesDev .x .P).wrd.sessions 0 = some (wsOf .P) ∧ (wsOf .P).stage = .opened
    ∧ (sesDev .x .P).macOk (wsOf .P) (signed .x .P { wreq 0x4020 1 1 1 with seq := 9 }) = true ∧ (9, []) ∈ (wsOf .P).done :=
  ⟨rfl, rfl, mac_signed _ _ _, List.mem_cons_self⟩
theorem test_WardMemoryStores : (0x100000 : Nat) ≤ 0x17FFFE ∧ 0x17FFFE + ([1, 2] : List Byte).length ≤ 0x180000
    ∧ memWf (coreDev [0xD8]).wrd.sram = true := by decide +kernel

/-! ### The model's own lists -/

theorem test_reset_memory : memWf State.reset.dev.wrd.sram = true ∧ memWf State.reset.dev.mem.cells = true
    ∧ memWf State.reset.dev.mem.bitOct = true := ⟨rfl, rfl, rfl⟩

end Sys2Proof.Tests
end

section
/-! SUPPORT. Requests that the ward answers and does not apply (R8, R374): a write without the right, a request that repeats. -/

namespace Sys2Proof.Machine

/-- What holds of the block as it stands, and of the block after the request that a command carries, holds after the command. -/
theorem does_asked {c : Instr} {r : DReq} {s : State} {P : Dev → Prop} (h : asked c = some r) (hc : c ≠ .transferBegin r)
    (hid : P s.dev)
    (hreq : ∀ ef : Role → Dev → Acc, (r.op = 2 → ∃ e2, ef = fun ro d => d.writeAcc r ro e2) →
      P ((s.dev.request r ef).fused s.dev)) : Does c s P := by
  obtain hx | ⟨ef, hx, hef⟩ := exec_asked h hc s
  · exact does_act hx hid
  · exact does_act hx (hreq ef hef)

/-- An OBJECT_WRITE of an object without a row of its own is the request that writes it. -/
theorem objectWrite_of_plain {d : Dev} {r : DReq} (hop : r.op = 2) (hrow : d.rowOf r = .plain) :
    d.objectWrite r = d.request r (fun ro d => d.writeAcc r ro (fun ro v d => d.plainWrite r.idx r.sub v r.sess (actorRole ro))) := by
  simp [Dev.objectWrite, Dev.command, hop, hrow]

/-- A request of an open session whose `SEQ` was answered before gets its stored response and changes nothing more. -/
theorem request_repeated {d : Dev} {r : DReq} {w : WSes} (hup : d.wardUp = true) (hses : r.sess ≠ wardSes)
    (hw : tget? d.wrd.sessions r.sess = some w) (hopen : w.stage = .opened) (hmac : d.macOk w r = true)
    (hdone : ∃ x ∈ w.done, x.1 = r.seq) (ef : Role → Dev → Acc) : (d.request r ef).answers d := by
  have hfind : (w.done.find? (fun x => x.1 == r.seq)).isSome := by
    simpa only [List.find?_isSome, beq_iff_eq] using hdone
  obtain ⟨x, hx⟩ := Option.isSome_iff_exists.1 hfind
  simp only [Dev.request, hup, hses, hw, hopen, hmac, hx, Bool.not_true, Bool.false_eq_true, if_false, ne_eq,
    not_true_eq_false, decide_false, Bool.or_self]
  unfold Dev.answers
  rw [reply_eq]

end Sys2Proof.Machine
end

section
/-! PROOF. The statements of the scope: guarded writes and repeated requests; the object store and images. -/

namespace Sys2Proof.Machine

/-- Settles O11: a command that carries a request is that request or changes nothing; the ward counts a write without the
right, and answers a repeated request from what it stored. -/
theorem guardedWrites : Obligations.GuardedWrites := by
  unfold Obligations.GuardedWrites
  refine ⟨?_, ?_, ?_⟩
  · intro c r s ro e o hask hc hop hadm ho hright
    refine does_asked hask hc (.inl rfl) fun ef hef => .inr ?_
    obtain ⟨e2, rfl⟩ := hef hop
    exact answers_fused (request_no_right hadm ho hright e2) s.dev
  · intro r s ro e o hop hrow hadm ho hright
    refine does_act (exec_objectWrite r s) (answers_fused ?_ s.dev)
    rw [objectWrite_of_plain hop hrow]
    exact request_no_right hadm ho hright _
  · intro c r s w hask hc hup hses hw hopen hmac hdone
    exact does_asked hask hc rfl fun ef _ => answers_fused (request_repeated hup hses hw hopen hmac hdone ef) s.dev

/-- Settles O50: each row of the store and of the images runs its effect, which is the one that R378 to R384 give. -/
theorem storeAndImageCommands : Obligations.StoreAndImageCommands := by
  unfold Obligations.StoreAndImageCommands
  refine ⟨?store, ?restore, ?storeErase, ?verify, ?activate, ?install, ?deactivate, ?drained, ?erase⟩
  case store => exact writes_of (fun r ro _ d => d.storeAsk r.sess (actorRole ro)) exec_store fun _ _ _ => rfl
  case restore => exact writes_of (fun r ro _ d => d.restoreAsk r.sess (actorRole ro)) exec_restore fun _ _ _ => rfl
  case storeErase => exact writes_of (fun _ _ _ d => d.storeErase) exec_storeErase fun _ _ _ => rfl
  case verify => exact fun idx s => gives_act (exec_imgVerifyDone idx s) rfl
  case activate => exact writes_of (fun r ro _ d => d.imgStart r.idx r.sess (actorRole ro)) exec_imgActivate fun _ _ _ => rfl
  case install => exact fun idx s => gives_act (exec_imgInstallDone idx s) rfl
  case deactivate =>
    exact writes_of (fun r ro _ d => d.imgDrain r.idx r.sess (actorRole ro)) exec_imgDeactivate fun _ _ _ => rfl
  case drained => exact fun idx s => gives_act (exec_imgDrainDone idx s) rfl
  case erase =>
    exact writes_of (fun r ro _ d => (d.imgClear r.idx r.sess (actorRole ro)).storeDue) exec_imgErase fun _ _ _ => rfl

end Sys2Proof.Machine
end

section
/-! PROOF. The statements of the scope: the times of a context. -/

namespace Sys2Proof.Machine

/-- Settles O33: each expiry runs the effect that R20, R21, R23, R140 and R266 give, and the write of the forced stand-in (R125)
runs its own under the ward's grant. -/
theorem contextTimes : Obligations.ContextTimes := by
  unfold Obligations.ContextTimes
  refine ⟨?due, ?standin, ?fallback, ?purge, ?lastByte⟩
  case due => exact fun ctx s => gives_act (exec_dueTimeExpiry ctx s) rfl
  case standin => exact writes_of (fun _ _ v d => d.forceStandin v) exec_forceStandin fun _ _ _ => rfl
  case fallback => exact fun ctx s => gives_act (exec_fallbackPointExpiry ctx s) rfl
  case purge => exact fun ctx s => gives_act (exec_deadlinePurgeExpiry ctx s) rfl
  case lastByte => exact fun ctx s => gives_act (exec_responseLastByte ctx s) rfl

end Sys2Proof.Machine
end

section
/-! SUPPORT. The division of the check code (R31): what the remainder is, and that it is a remainder. -/

namespace Sys2Proof.Machine

/-- The product over GF(2) of the polynomials `q`, of which the low `n` bits count, and `g`. -/
def clMul (g : Nat) : Nat → Nat → Nat
  | 0, _ => 0
  | n + 1, q => if q.testBit n then clMul g n q ^^^ (g <<< n) else clMul g n q

/-- The product as a sum over the bits of the first factor, lowest first. -/
theorem foldl_range_eq_clMul (g q : Nat) : ∀ n : Nat,
    (List.range n).foldl (fun a i => if q.testBit i then a ^^^ (g <<< i) else a) 0 = clMul g n q
  | 0 => rfl
  | n + 1 => by
    rw [List.range_succ, List.foldl_append, foldl_range_eq_clMul g q n]
    rfl

/-- The product distributes over the sum of first factors. -/
theorem clMul_xor (g p q : Nat) : ∀ n : Nat, clMul g n (p ^^^ q) = clMul g n p ^^^ clMul g n q
  | 0 => by simp [clMul]
  | n + 1 => by
    simp only [clMul, Nat.testBit_xor, clMul_xor g p q n]
    cases p.testBit n <;> cases q.testBit n <;> simp [Nat.xor_assoc, Nat.xor_comm, Nat.xor_left_comm]

theorem clMul_zero (g : Nat) : ∀ n : Nat, clMul g n 0 = 0
  | 0 => rfl
  | n + 1 => by simp [clMul, clMul_zero g n]

/-- The product with a power of x is a shift. -/
theorem clMul_two_pow (g k : Nat) : ∀ n : Nat, clMul g n (2 ^ k) = if k < n then g <<< k else 0
  | 0 => rfl
  | n + 1 => by
    rw [clMul, clMul_two_pow g k n, Nat.testBit_two_pow]
    obtain h | rfl | h := lt_trichotomy k n
    · simp [h, h.ne, Nat.lt_succ_of_lt h]
    · simp
    · simp [h.ne', not_lt_of_gt h, Nat.not_lt.2 (Nat.succ_le_of_lt h)]

/-- The remainder is one: it differs from what was divided by a multiple of the divisor. -/
theorem polyMod_quotient (g deg k : Nat) : ∀ n r : Nat, n ≤ k →
    ∃ q, q < 2 ^ n ∧ clMul g k q = r ^^^ polyMod g deg n r
  | 0, r, _ => ⟨0, by simp, by simp [clMul_zero, polyMod]⟩
  | n + 1, r, hn => by
    rw [polyMod]
    split
    case isTrue =>
      obtain ⟨q, hq, hmul⟩ := polyMod_quotient g deg k n (r ^^^ (g <<< n)) (by omega)
      refine ⟨2 ^ n ^^^ q, Nat.xor_lt_two_pow (by omega) (by omega), ?_⟩
      rw [clMul_xor, clMul_two_pow, if_pos (by omega), hmul, Nat.xor_comm r, Nat.xor_assoc, ← Nat.xor_assoc,
        Nat.xor_self, Nat.zero_xor]
    case isFalse =>
      obtain ⟨q, hq, hmul⟩ := polyMod_quotient g deg k n r (by omega)
      exact ⟨q, by omega, hmul⟩

/-- A remainder lies below its divisor. -/
theorem polyMod_lt {g deg : Nat} (hg : g < 2 ^ (deg + 1)) (htop : g.testBit deg = true) :
    ∀ n r : Nat, r < 2 ^ (n + deg) → polyMod g deg n r < 2 ^ deg
  | 0, r, hr => by simpa [polyMod] using hr
  | n + 1, r, hr => by
    refine polyMod_lt hg htop n _ (Nat.lt_pow_two_of_testBit _ fun i hi => ?_)
    have above : ∀ j, n + deg < j → r.testBit j = false ∧ (g <<< n).testBit j = false := fun j hj =>
      ⟨Nat.testBit_lt_two_pow (hr.trans_le (Nat.pow_le_pow_right two_pos (by omega))), by
        rw [Nat.testBit_shiftLeft, Nat.testBit_lt_two_pow (hg.trans_le (Nat.pow_le_pow_right two_pos (by omega))),
          Bool.and_false]⟩
    obtain hi | rfl := hi.lt_or_eq
    · split <;> simp [above i hi]
    · split <;> simp_all [Nat.testBit_shiftLeft]

/-- What is additive and vanishes on the shifts of the divisor has the same value on a remainder. -/
theorem polyMod_additive {K : Type} [AddCommGroup K] {F : Nat → K} (hF : ∀ u v, F (u ^^^ v) = F u + F v) (g deg : Nat) :
    ∀ n r : Nat, (∀ i < n, F (g <<< i) = 0) → F (polyMod g deg n r) = F r
  | 0, _, _ => rfl
  | n + 1, r, hg => by
    rw [polyMod, polyMod_additive hF g deg n _ fun i hi => hg i (by omega)]
    split
    · rw [hF, hg n (by omega), add_zero]
    · rfl

/-- The remainder has 14 bits. -/
theorem bch_lt {m : Nat} (hm : m < 2 ^ 112) : bch m < 2 ^ 14 :=
  polyMod_lt (by decide) (by decide) 112 _ (by rw [Nat.shiftLeft_eq]; omega)

end Sys2Proof.Machine
end

section
/-! SUPPORT. The parts of a checked word (R31). -/

namespace Sys2Proof.Machine

theorem parity_xor (u v : Nat) : ∀ n : Nat, parity n (u ^^^ v) = (parity n u ^^ parity n v)
  | 0 => rfl
  | n + 1 => by simp [parity, parity_xor u v n, Bool.xor_left_comm]

/-- The parity is that of the number of ones. -/
theorem length_filter_testBit_mod_two (v : Nat) : ∀ n : Nat,
    ((List.range n).filter v.testBit).length % 2 = b2n (parity n v)
  | 0 => rfl
  | n + 1 => by
    have ih := length_filter_testBit_mod_two v n
    rw [List.range_succ, List.filter_append, List.length_append, Nat.add_mod, ih, parity]
    cases h : v.testBit n <;> cases parity n v <;> simp [b2n, h]

/-- Parts of a number that share no bit: their sum over GF(2) is their sum. -/
theorem shiftLeft_xor_eq_add {b n : Nat} (hb : b < 2 ^ n) (a : Nat) : (a <<< n) ^^^ b = a * 2 ^ n + b := by
  refine Nat.eq_of_testBit_eq fun i => ?_
  rw [Nat.mul_comm, Nat.testBit_two_pow_mul_add _ hb, Nat.testBit_xor, Nat.testBit_shiftLeft]
  split
  · simp [Nat.not_le.2 ‹_›]
  · rw [Nat.testBit_lt_two_pow (hb.trans_le (Nat.pow_le_pow_right two_pos (by omega)))]
    simp [Nat.le_of_not_lt ‹_›]

/-- The multiple of the generator that a message makes: the message followed by its remainder. -/
def codePoly (m : Nat) : Nat := (m <<< 14) ^^^ bch m

/-- The parity bit of a message. -/
def parityBit (m : Nat) : Bool := parity 128 (codePoly m <<< 2)

theorem codePoly_shiftLeft {m : Nat} (hm : m < 2 ^ 112) : codePoly m <<< 2 = m * 65536 + bch m * 4 := by
  rw [codePoly, shiftLeft_xor_eq_add (bch_lt hm), Nat.shiftLeft_eq]
  omega

theorem b2n_lt_two (b : Bool) : b2n b < 2 := by cases b <;> decide

/-- A checked word as a number: message, remainder and parity bit at their places. -/
theorem withCheck_toNat {m : Nat} (hm : m < 2 ^ 112) :
    (withCheck m).toNat = m * 65536 + bch m * 4 + 2 * b2n (parityBit m) := by
  have hb := bch_lt hm
  have hp := b2n_lt_two (parityBit m)
  rw [parityBit, codePoly_shiftLeft hm] at *
  rw [withCheck, BitVec.toNat_ofNat, Nat.mod_eq_of_lt (by omega)]

/-- A checked word as a sum over GF(2). -/
theorem withCheck_toNat_eq_xor {m : Nat} (hm : m < 2 ^ 112) :
    (withCheck m).toNat = (codePoly m <<< 2) ^^^ (2 * b2n (parityBit m)) := by
  have hp := b2n_lt_two (parityBit m)
  rw [withCheck_toNat hm, ← codePoly_shiftLeft hm, shiftLeft_xor_eq_add (by omega), Nat.shiftLeft_eq]

theorem withCheck_message {m : Nat} (hm : m < 2 ^ 112) : (withCheck m).toNat / 65536 = m := by
  have hb := bch_lt hm
  have hp := b2n_lt_two (parityBit m)
  rw [withCheck_toNat hm]
  omega

theorem withCheck_remainder {m : Nat} (hm : m < 2 ^ 112) : bits (withCheck m).toNat 15 2 = bch m := by
  have hb := bch_lt hm
  have hp := b2n_lt_two (parityBit m)
  rw [bits, withCheck_toNat hm]
  omega

theorem withCheck_getLsbD_zero {m : Nat} (hm : m < 2 ^ 112) : (withCheck m).getLsbD 0 = false := by
  rw [← BitVec.testBit_toNat, withCheck_toNat hm, Nat.testBit_zero, decide_eq_false_iff_not]
  omega

theorem withCheck_parity {m : Nat} (hm : m < 2 ^ 112) : parity 128 (withCheck m).toNat = false := by
  have hbit : ∀ b, parity 128 (2 * b2n b) = b := fun b => by cases b <;> decide +kernel
  rw [withCheck_toNat_eq_xor hm, parity_xor, hbit, parityBit, Bool.xor_self]

theorem checkOk_withCheck {m : Nat} (hm : m < 2 ^ 112) : checkOk (withCheck m) = true := by
  rw [checkOk, withCheck_message hm, beq_self_eq_true]

/-- The valid words are those that messages make. -/
theorem exists_withCheck {w : W128} (hw : checkOk w = true) : ∃ m < 2 ^ 112, w = withCheck m :=
  ⟨w.toNat / 65536, by have := w.isLt; omega, beq_iff_eq.1 hw⟩

end Sys2Proof.Machine
end

section
/-! SUPPORT. The minimum distance of the check code (R31). Its words have a zero at a root of each factor of the generator, and
an even number of ones; no five positions or fewer have both. -/

namespace Sys2Proof.Machine
open Finset

/-- The positions at which two words differ. -/
def diffs (w v : W128) : Finset (Fin 128) := univ.filter fun i => w.getLsbD i ≠ v.getLsbD i

theorem diffs_eq_empty {w v : W128} : diffs w v = ∅ ↔ w = v := by
  constructor
  · intro h
    refine BitVec.eq_of_getLsbD_eq fun i hi => ?_
    simpa [diffs] using (filter_eq_empty_iff.1 h) (mem_univ (⟨i, hi⟩ : Fin 128))
  · rintro rfl
    simp [diffs]

/-- The sum of what the positions of the ones of a word stand for. -/
def bitSum {K : Type} [AddCommMonoid K] (f : ℕ → K) (v : ℕ) : K := ∑ i : Fin 128, if v.testBit i then f i else 0

theorem bitSum_two_pow {K : Type} [AddCommMonoid K] (f : ℕ → K) {j : ℕ} (hj : j < 128) : bitSum f (2 ^ j) = f j := by
  rw [bitSum, sum_eq_single ⟨j, hj⟩]
  · simp
  · intro i _ hi
    have : j ≠ i := fun h => hi (Fin.ext h.symm)
    simp [this]
  · simp

/-- What a bit of a checked word stands for at `α`: the powers of x, from bit 2 on, are the powers of `α`; the parity bit, which
is in no power, is 0. So the locators of all bits but bit 0 differ where `α` has order 127. -/
def locator {K : Type} [Field K] (α : K) (i : ℕ) : K := if 2 ≤ i then α ^ (i - 2) else 0

theorem locator_cube {K : Type} [Field K] (α : K) (i : ℕ) : locator (α ^ 3) i = locator α i ^ 3 := by
  unfold locator
  split
  · rw [← pow_mul, ← pow_mul, Nat.mul_comm]
  · simp

section CharTwo
variable {K : Type} [Field K] [CharP K 2] {α : K}

theorem bitSum_xor (f : ℕ → K) (u v : ℕ) : bitSum f (u ^^^ v) = bitSum f u + bitSum f v := by
  have bit_xor (a b : Bool) (y : K) : (if a ^^ b then y else 0) = (if a then y else 0) + (if b then y else 0) := by
    cases a <;> cases b <;> simp [CharTwo.add_self_eq_zero]
  simp only [bitSum, Nat.testBit_xor, bit_xor, sum_add_distrib]

/-- The sums of two words differ by what stands for the bits in which the words differ. -/
theorem bitSum_add (f : ℕ → K) (w v : W128) :
    bitSum f w.toNat + bitSum f v.toNat = ∑ i ∈ diffs w v, f i := by
  rw [← bitSum_xor, bitSum, diffs, sum_filter]
  simp only [Nat.testBit_xor, bne_iff_ne, BitVec.testBit_toNat]

/-- The ones of a word, counted in characteristic two, are its parity. -/
theorem bitSum_one (v : ℕ) : bitSum (fun _ => (1 : K)) v = b2n (parity 128 v) := by
  have upTo : ∀ n, ∑ i ∈ range n, (if v.testBit i then (1 : K) else 0) = b2n (parity n v) := by
    intro n
    induction n with
    | zero => simp [parity, b2n]
    | succ n ih =>
      rw [sum_range_succ, ih, parity]
      cases v.testBit n <;> cases parity n v <;> simp [b2n, CharTwo.add_self_eq_zero]
  rw [← upTo, ← Fin.sum_univ_eq_sum_range (fun i => if v.testBit i then (1 : K) else 0)]
  rfl

/-- A root of the generator `x^14 + x^9 + x^8 + x^6 + x^5 + x^4 + x^2 + x + 1`. -/
def IsGeneratorRoot (a : K) : Prop := a ^ 14 + a ^ 9 + a ^ 8 + a ^ 6 + a ^ 5 + a ^ 4 + a ^ 2 + a + 1 = 0

/-- Every shift of the generator within a word has a zero at a root of it. -/
theorem bitSum_generator {a : K} (ha : IsGeneratorRoot a) {i : ℕ} (hi : i < 112) :
    bitSum (locator a) ((0x4377 <<< i) <<< 2) = 0 := by
  have hsplit : 0x4377 = 2 ^ 14 ^^^ 2 ^ 9 ^^^ 2 ^ 8 ^^^ 2 ^ 6 ^^^ 2 ^ 5 ^^^ 2 ^ 4 ^^^ 2 ^ 2 ^^^ 2 ^ 1 ^^^ 2 ^ 0 := by decide
  have hterm : ∀ j < 15, bitSum (locator a) (2 ^ j <<< (i + 2)) = a ^ i * a ^ j := fun j hj => by
    rw [Nat.shiftLeft_eq, ← pow_add, bitSum_two_pow _ (by omega), locator, if_pos (by omega), ← pow_add]
    congr 1
    omega
  rw [← Nat.shiftLeft_add, hsplit]
  unfold IsGeneratorRoot at ha
  simp only [Nat.shiftLeft_xor_distrib, bitSum_xor, hterm, Nat.reduceLT]
  linear_combination a ^ i * ha

/-- A valid word, without its parity bit, has a zero at every root of the generator. -/
theorem bitSum_locator_withCheck {a : K} (ha : IsGeneratorRoot a) {m : ℕ} (hm : m < 2 ^ 112) :
    bitSum (locator a) (withCheck m).toNat = 0 := by
  have hparity : bitSum (locator a) (2 * b2n (parityBit m)) = 0 := by
    cases parityBit m
    · simp [bitSum, b2n]
    · exact bitSum_two_pow (locator a) (j := 1) (by decide)
  have hrem : bitSum (locator a) (bch m <<< 2) = bitSum (locator a) ((m <<< 14) <<< 2) :=
    polyMod_additive (F := fun v => bitSum (locator a) (v <<< 2))
      (fun u v => by rw [Nat.shiftLeft_xor_distrib, bitSum_xor]) 0x4377 14 112 _ fun i hi => bitSum_generator ha hi
  rw [withCheck_toNat_eq_xor hm, bitSum_xor, hparity, codePoly, Nat.shiftLeft_xor_distrib, bitSum_xor, hrem,
    CharTwo.add_self_eq_zero, add_zero]

/-- A root of the first factor, x^7 + x^3 + 1, is one of the generator. -/
theorem isGeneratorRoot_of_root (hα : α ^ 7 + α ^ 3 + 1 = 0) : IsGeneratorRoot α := by
  have h2 : (2 : K) = 0 := CharTwo.two_eq_zero
  unfold IsGeneratorRoot
  linear_combination (α ^ 7 + α ^ 3 + α ^ 2 + α + 1) * hα - (α ^ 10 + α ^ 7 + α ^ 3) * h2

/-- The cube of such a root is one of the second factor, x^7 + x^3 + x^2 + x + 1, and so of the generator. -/
theorem isGeneratorRoot_cube (hα : α ^ 7 + α ^ 3 + 1 = 0) : IsGeneratorRoot (α ^ 3) := by
  have h2 : (2 : K) = 0 := CharTwo.two_eq_zero
  have hcube : (α ^ 3) ^ 7 + (α ^ 3) ^ 3 + (α ^ 3) ^ 2 + α ^ 3 + 1 = 0 := by
    linear_combination (α ^ 14 + α ^ 10 + α ^ 7 + α ^ 6 + 1) * hα - (α ^ 17 + α ^ 14 + α ^ 13 + α ^ 10 + α ^ 7) * h2
  unfold IsGeneratorRoot
  linear_combination ((α ^ 3) ^ 7 + (α ^ 3) ^ 3 + 1) * hcube - ((α ^ 3) ^ 10 + (α ^ 3) ^ 7 + (α ^ 3) ^ 3) * h2

/-- The first factor is primitive: squaring seven times leads back to the root, and 127 is prime. -/
theorem orderOf_root (hα : α ^ 7 + α ^ 3 + 1 = 0) : orderOf α = 127 := by
  have h2 : (2 : K) = 0 := CharTwo.two_eq_zero
  have h0 : α ≠ 0 := by rintro rfl; simp at hα
  have h8 : α ^ 8 = α ^ 4 + α := by linear_combination α * hα - (α ^ 4 + α) * h2
  have h16 : α ^ 16 = α ^ 4 + α ^ 2 + α := by
    linear_combination (α ^ 8 + α ^ 4 + α) * h8 + h8 + α ^ 5 * h2
  have h32 : α ^ 32 = α ^ 2 + α := by
    linear_combination (α ^ 16 + α ^ 4 + α ^ 2 + α) * h16 + h8 + (α ^ 6 + α ^ 5 + α ^ 4 + α ^ 3) * h2
  have h64 : α ^ 64 = α ^ 4 + α ^ 2 := by linear_combination (α ^ 32 + α ^ 2 + α) * h32 + α ^ 3 * h2
  have h128 : α ^ 128 = α := by linear_combination (α ^ 64 + α ^ 4 + α ^ 2) * h64 + h8 + (α ^ 6 + α ^ 4) * h2
  have : Fact (Nat.Prime 127) := ⟨by norm_num⟩
  refine orderOf_eq_prime (mul_left_cancel₀ h0 (by rw [← pow_succ', h128, mul_one])) ?_
  rintro rfl
  exact one_ne_zero (by linear_combination hα - h2 : (1 : K) = 0)

theorem locator_injOn (hα : α ^ 7 + α ^ 3 + 1 = 0) : Set.InjOn (locator α) (Set.Ico 1 128) := by
  rintro i ⟨hi1, hi2⟩ j ⟨hj1, hj2⟩ h
  have h0 : α ≠ 0 := by rintro rfl; simp at hα
  unfold locator at h
  split_ifs at h with hi hj hj
  · have := pow_injOn_Iio_orderOf (x := α) (by rw [orderOf_root hα, Set.mem_Iio]; omega)
      (by rw [orderOf_root hα, Set.mem_Iio]; omega) h
    omega
  · exact absurd h (pow_ne_zero _ h0)
  · exact absurd h.symm (pow_ne_zero _ h0)
  · omega

/-- Of four elements whose sum is 0, and that of whose cubes is 0, the first is one of the others. -/
theorem eq_of_sum_of_cubes {a b c d : K} (h1 : a + b + c + d = 0) (h3 : a ^ 3 + b ^ 3 + c ^ 3 + d ^ 3 = 0) :
    a = b ∨ a = c ∨ a = d := by
  have h2 : (2 : K) = 0 := CharTwo.two_eq_zero
  have hprod : (a + b) * ((a + c) * (a + d)) = 0 := by
    linear_combination (a ^ 2 - (a + b + c + d) ^ 2 + 3 * (a * b + a * c + a * d + b * c + b * d + c * d)) * h1 + h3
      - (a * b * c + a * b * d + a * c * d + b * c * d) * h2
  simpa only [mul_eq_zero, CharTwo.add_eq_zero] using hprod

/-- No one to five positions have an even number and locators that sum to 0 and whose cubes do. -/
theorem eq_empty_of_locators (hα : α ^ 7 + α ^ 3 + 1 = 0) {D : Finset (Fin 128)} (h0 : 0 ∉ D) (hcard : D.card ≤ 5)
    (heven : 2 ∣ D.card) (h1 : ∑ i ∈ D, locator α i = 0) (h3 : ∑ i ∈ D, locator α i ^ 3 = 0) : D = ∅ := by
  have hinj : ∀ i ∈ D, ∀ j ∈ D, locator α i = locator α j → i = j := fun i hi j hj h => by
    have pos : ∀ k ∈ D, (k : ℕ) ∈ Set.Ico 1 128 := fun k hk =>
      ⟨Nat.one_le_iff_ne_zero.2 fun h => h0 (by rwa [← Fin.ext h (b := 0)]), k.isLt⟩
    exact Fin.ext (locator_injOn hα (pos i hi) (pos j hj) h)
  obtain hc | hc | hc : D.card = 0 ∨ D.card = 2 ∨ D.card = 4 := by omega
  · exact card_eq_zero.1 hc
  · obtain ⟨i, j, hij, rfl⟩ := card_eq_two.1 hc
    rw [sum_pair hij, CharTwo.add_eq_zero] at h1
    exact absurd (hinj i (by simp) j (by simp) h1) hij
  · obtain ⟨i, T, hi, rfl, hT⟩ := card_eq_succ.1 hc
    obtain ⟨j, k, l, hjk, hjl, hkl, rfl⟩ := card_eq_three.1 hT
    simp only [mem_insert, mem_singleton, not_or] at hi
    obtain ⟨hij, hik, hil⟩ := hi
    simp only [sum_insert, sum_singleton, mem_insert, mem_singleton, not_or, not_false_eq_true, and_self, ← add_assoc, hij, hik,
      hil, hjk, hjl, hkl] at h1 h3
    obtain h | h | h := eq_of_sum_of_cubes h1 h3
    · exact absurd (hinj i (by simp) j (by simp) h) hij
    · exact absurd (hinj i (by simp) k (by simp) h) hik
    · exact absurd (hinj i (by simp) l (by simp) h) hil

end CharTwo

/-- A field of characteristic two that has a root of the first factor. -/
theorem exists_root_factor : ∃ α : AlgebraicClosure (ZMod 2), α ^ 7 + α ^ 3 + 1 = 0 := by
  open Polynomial in
  have hdeg : (X ^ 7 + X ^ 3 + 1 : (AlgebraicClosure (ZMod 2))[X]).degree ≠ 0 := by
    have : (X ^ 7 + X ^ 3 + 1 : (AlgebraicClosure (ZMod 2))[X]).degree = 7 := by compute_degree!
    rw [this]; decide
  obtain ⟨α, hα⟩ := IsAlgClosed.exists_root _ hdeg
  exact ⟨α, by simpa [Polynomial.IsRoot] using hα⟩

/-- The minimum distance of the code: valid words that differ in five bits or fewer are the same. -/
theorem eq_of_card_diffs_le {w v : W128} (hw : checkOk w = true) (hv : checkOk v = true) (h : (diffs w v).card ≤ 5) :
    w = v := by
  obtain ⟨m, hm, rfl⟩ := exists_withCheck hw
  obtain ⟨n, hn, rfl⟩ := exists_withCheck hv
  obtain ⟨α, hα⟩ := exists_root_factor
  have hsum : ∀ f : ℕ → AlgebraicClosure (ZMod 2), (∀ k < 2 ^ 112, bitSum f (withCheck k).toNat = 0) →
      ∑ i ∈ diffs (withCheck m) (withCheck n), f i = 0 := fun f hf => by
    rw [← bitSum_add, hf m hm, hf n hn, add_zero]
  have hzero : 0 ∉ diffs (withCheck m) (withCheck n) := fun h0 =>
    (mem_filter.1 h0).2 ((withCheck_getLsbD_zero hm).trans (withCheck_getLsbD_zero hn).symm)
  have heven : ((diffs (withCheck m) (withCheck n)).card : AlgebraicClosure (ZMod 2)) = 0 := by
    simpa using hsum (fun _ => 1) fun k hk => by simp [bitSum_one, withCheck_parity hk, b2n]
  have hempty : diffs (withCheck m) (withCheck n) = ∅ :=
    eq_empty_of_locators hα hzero h ((CharP.cast_eq_zero_iff _ 2 _).1 heven)
      (hsum _ fun _ => bitSum_locator_withCheck (isGeneratorRoot_of_root hα))
      (by simpa only [locator_cube] using hsum _ fun _ => bitSum_locator_withCheck (isGeneratorRoot_cube hα))
  exact diffs_eq_empty.1 hempty

end Sys2Proof.Machine
end

section
/-! SUPPORT. What the check of a word finds (R31). -/

namespace Sys2Proof.Machine
open Finset

theorem getLsbD_flipBit (w : W128) {i p : ℕ} (hp : p < 128) : (flipBit w i).getLsbD p = (w.getLsbD p ^^ decide (i = p)) := by
  simp only [flipBit, BitVec.getLsbD_xor, BitVec.getLsbD_ofNat, hp, decide_true, Bool.true_and, Nat.one_shiftLeft,
    Nat.testBit_two_pow]

theorem flipBit_flipBit (w : W128) (i : ℕ) : flipBit (flipBit w i) i = w := by
  simp only [flipBit, BitVec.xor_assoc, BitVec.xor_self, BitVec.xor_zero]

theorem flipBit_comm (w : W128) (i j : ℕ) : flipBit (flipBit w i) j = flipBit (flipBit w j) i := by
  simp only [flipBit, BitVec.xor_assoc, BitVec.xor_comm (BitVec.ofNat 128 (1 <<< i))]

theorem diffs_comm (w v : W128) : diffs w v = diffs v w := by simp only [diffs, ne_comm]

theorem card_diffs_triangle (u v w : W128) : (diffs u w).card ≤ (diffs u v).card + (diffs v w).card :=
  hammingDist_triangle (fun i : Fin 128 => u.getLsbD i) (fun i => v.getLsbD i) (fun i => w.getLsbD i)

theorem diffs_flipBit (w : W128) {i : ℕ} (hi : i < 128) : diffs w (flipBit w i) = {⟨i, hi⟩} := by
  ext p
  rw [diffs, mem_filter, getLsbD_flipBit w p.isLt]
  by_cases h : i = p <;> simp [h, Fin.ext_iff, eq_comm]

theorem card_diffs_flipBit (w : W128) {i : ℕ} (hi : i < 128) : (diffs w (flipBit w i)).card = 1 := by
  rw [diffs_flipBit w hi, card_singleton]

/-- Word `v` is `w` with one bit flipped, or two: what the check tries. -/
def Fixes (w v : W128) : Prop :=
  (∃ i < 128, v = flipBit w i) ∨ ∃ i < 128, ∃ j < i, v = flipBit (flipBit w i) j

theorem Fixes.card_diffs_le {w v : W128} (h : Fixes w v) : (diffs w v).card ≤ 2 := by
  obtain ⟨i, hi, rfl⟩ | ⟨i, hi, j, hj, rfl⟩ := h
  · rw [card_diffs_flipBit w hi]
    decide
  · have := card_diffs_triangle w (flipBit w i) (flipBit (flipBit w i) j)
    rwa [card_diffs_flipBit w hi, card_diffs_flipBit _ (hj.trans hi)] at this

theorem Fixes.ne {w v : W128} (h : Fixes w v) : w ≠ v := by
  intro heq
  obtain ⟨i, hi, hv⟩ | ⟨i, hi, j, hj, hv⟩ := h
  · have hone := card_diffs_flipBit w hi
    rw [← hv, ← heq, diffs_eq_empty.2 rfl] at hone
    contradiction
  · have hflip : flipBit w j = flipBit w i := by
      nth_rw 1 [heq, hv, flipBit_flipBit]
    have hdiffs := diffs_flipBit w (hj.trans hi)
    rw [hflip, diffs_flipBit w hi, singleton_inj, Fin.mk.injEq] at hdiffs
    omega

/-- The order in which two bits are flipped back does not matter. -/
theorem fixes_two {w : W128} {i j : ℕ} (hi : i < 128) (hj : j < 128) (hij : i ≠ j) : Fixes w (flipBit (flipBit w i) j) := by
  obtain h | h := hij.lt_or_gt
  · exact .inr ⟨j, hj, i, h, flipBit_comm w i j⟩
  · exact .inr ⟨i, hi, j, h, rfl⟩

/-- What the check of a word answers: the word is valid; or a valid word that fixes it is the answer; or none fixes it. -/
theorem checkWord_cases (w : W128) :
    (checkWord w = .clean ∧ checkOk w = true)
    ∨ (∃ v, checkWord w = .corrected v ∧ checkOk v = true ∧ Fixes w v)
    ∨ (checkWord w = .uncorrectable ∧ ∀ v, Fixes w v → checkOk v = false) := by
  unfold checkWord
  split
  case isTrue hok => exact .inl ⟨rfl, hok⟩
  case isFalse =>
    right
    split
    next i hi =>
      exact .inl ⟨_, rfl, List.find?_some (p := fun i => checkOk (flipBit w i)) hi,
        .inl ⟨i, List.mem_range.1 (List.mem_of_find?_eq_some hi), rfl⟩⟩
    next hone =>
      split
      next i j hij =>
        obtain ⟨a, ha, hfind⟩ := List.exists_of_findSome?_eq_some hij
        obtain ⟨b, hb, hab⟩ := Option.map_eq_some_iff.1 hfind
        cases hab
        exact .inl ⟨_, rfl, List.find?_some (p := fun j => checkOk (flipBit (flipBit w i) j)) hb,
          .inr ⟨i, List.mem_range.1 ha, j, List.mem_range.1 (List.mem_of_find?_eq_some hb), rfl⟩⟩
      next htwo =>
        refine .inr ⟨rfl, ?_⟩
        rintro v (⟨i, hi, rfl⟩ | ⟨i, hi, j, hj, rfl⟩)
        · simpa using List.find?_eq_none.1 hone i (List.mem_range.2 hi)
        · have := List.findSome?_eq_none_iff.1 htwo i (List.mem_range.2 hi)
          simpa using List.find?_eq_none.1 (Option.map_eq_none_iff.1 this) j (List.mem_range.2 hj)

theorem checkWord_eq_clean {w : W128} (hw : checkOk w = true) : checkWord w = .clean := by
  rw [checkWord, if_pos hw]

/-- A word that a valid word fixes is corrected to that one. -/
theorem checkWord_eq_corrected {w c : W128} (hc : checkOk c = true) (hfix : Fixes w c) :
    checkWord w = .corrected c := by
  have hwc := hfix.card_diffs_le
  obtain ⟨-, hw⟩ | ⟨v, hres, hv, hfixv⟩ | ⟨-, hnone⟩ := checkWord_cases w
  · exact absurd (eq_of_card_diffs_le hw hc (by omega)) hfix.ne
  · have hvc : (diffs v c).card ≤ 5 := by
      have := card_diffs_triangle v w c
      have := hfixv.card_diffs_le
      rw [diffs_comm] at this
      omega
    rw [hres, eq_of_card_diffs_le hv hc hvc]
  · rw [hnone c hfix] at hc
    contradiction

/-- A word that differs from a valid one in three bits is uncorrectable. -/
theorem checkWord_eq_uncorrectable {w c : W128} (hc : checkOk c = true) (hwc : (diffs w c).card = 3) :
    checkWord w = .uncorrectable := by
  have hfar : ∀ v, checkOk v = true → (diffs v w).card ≤ 2 → False := fun v hv hvw => by
    have := card_diffs_triangle v w c
    obtain rfl := eq_of_card_diffs_le hv hc (by omega)
    rw [diffs_comm] at hvw
    omega
  obtain ⟨-, hw⟩ | ⟨v, -, hv, hfix⟩ | ⟨hres, -⟩ := checkWord_cases w
  · exact (hfar w hw (by simp [diffs_eq_empty.2])).elim
  · exact (hfar v hv (by rw [diffs_comm]; exact hfix.card_diffs_le)).elim
  · exact hres

theorem card_diffs_three_flips (w : W128) {i j k : ℕ} (hi : i < 128) (hj : j < 128) (hk : k < 128) (hij : i ≠ j)
    (hik : i ≠ k) (hjk : j ≠ k) : (diffs (flipBit (flipBit (flipBit w i) j) k) w).card = 3 := by
  rw [card_eq_three]
  refine ⟨⟨i, hi⟩, ⟨j, hj⟩, ⟨k, hk⟩, by simpa using hij, by simpa using hik, by simpa using hjk, ?_⟩
  ext p
  simp only [diffs, mem_filter, mem_univ, true_and, getLsbD_flipBit _ p.isLt, mem_insert, mem_singleton, Fin.ext_iff]
  rcases eq_or_ne i p with rfl | hip
  · simp [hij.symm, hik.symm]
  rcases eq_or_ne j p with rfl | hjp
  · simp [hip, hjk.symm]
  rcases eq_or_ne k p with rfl | hkp
  · simp [hip, hjp]
  · simp [hip, hjp, hkp, hip.symm, hjp.symm, hkp.symm]

end Sys2Proof.Machine
end

section
/-! PROOF. The statements of tokens and contexts: the check and the fields of a token. -/

namespace Sys2Proof.Machine

/-- Settles O7: the check code is a BCH code with a parity bit, whose words differ in six bits or more; so a word that one or two
flips lead back to is the only one near, and three flips lead near no other. -/
theorem tokenCheckCorrects : Obligations.TokenCheckCorrects := by
  unfold Obligations.TokenCheckCorrects
  refine ⟨by decide +kernel, fun m hm => ⟨withCheck_message hm, ?quotient, withCheck_getLsbD_zero hm, ?even,
    checkWord_eq_clean (checkOk_withCheck hm), ?one, ?two, ?three⟩⟩
  case quotient =>
    obtain ⟨q, hq, hmul⟩ := polyMod_quotient 0x4377 14 128 112 (m <<< 14) (by decide)
    refine ⟨q, hq, ?_⟩
    rw [withCheck_remainder hm, bch, ← hmul]
    exact foldl_range_eq_clMul 0x4377 q 128
  case even =>
    have hlength := length_filter_testBit_mod_two (withCheck m).toNat 128
    rwa [withCheck_parity hm] at hlength
  case one =>
    exact fun i hi => checkWord_eq_corrected (checkOk_withCheck hm) (.inl ⟨i, hi, (flipBit_flipBit _ i).symm⟩)
  case two =>
    intro i j hi hj hij
    have hfix := fixes_two (w := flipBit (flipBit (withCheck m) i) j) hj hi hij.symm
    rw [flipBit_flipBit, flipBit_flipBit] at hfix
    exact checkWord_eq_corrected (checkOk_withCheck hm) hfix
  case three =>
    exact fun i j k hi hj hk hij hik hjk =>
      checkWord_eq_uncorrectable (checkOk_withCheck hm) (card_diffs_three_flips _ hi hj hk hij hik hjk)

/-- A tag whose parts lie within their widths is their sum, each at its place (R27). -/
theorem mkTag_eq {ctx gen iter node port : Nat} (hctx : ctx < 2 ^ 24) (hgen : gen < 64) (hiter : iter < 1024)
    (hnode : node < 2 ^ 20) (hport : port < 4) :
    mkTag ctx gen iter node port = ctx * 2 ^ 40 + gen * 2 ^ 34 + iter * 2 ^ 24 + node * 16 + port * 4 := by
  rw [mkTag, Nat.mod_eq_of_lt hctx, Nat.mod_eq_of_lt hgen, Nat.mod_eq_of_lt hiter, Nat.mod_eq_of_lt hnode,
    Nat.mod_eq_of_lt hport]

/-- A token above its check bits is tag, value, kind and status, each at its place (R26). -/
theorem mkTok_message {tag value kind st : Nat} (htag : tag < 2 ^ 64) (hvalue : value < 2 ^ 40) (hkind : kind < 8)
    (hst : st < 32) : (mkTok tag value kind st).toNat / 65536 = tag * 2 ^ 48 + value * 256 + kind * 32 + st := by
  rw [mkTok, Nat.mod_eq_of_lt hvalue, Nat.mod_eq_of_lt hkind, Nat.mod_eq_of_lt hst, withCheck_message (by omega)]

/-- Settles O8: the fields are the digits of the number that the token is above its check bits. -/
theorem tokenFields : Obligations.TokenFields := by
  unfold Obligations.TokenFields
  intro ctx gen iter node port value kind st hctx hgen hiter hnode hport hvalue hkind hst
  have htag := mkTag_eq hctx hgen hiter hnode hport
  have hmessage := mkTok_message (tag := mkTag ctx gen iter node port) (by omega) hvalue hkind hst
  rw [htag] at hmessage ⊢
  refine ⟨?_, ?_, ?_, ?_, ?_, ?_, ?_, ?_, ?_⟩ <;> omega

end Sys2Proof.Machine
end

section
/-! PROOF. The statements of tokens and contexts: the rows of the node encoding for dataflow, flags and split-phase requests. -/

namespace Sys2Proof.Machine

@[simp] theorem fireCtx_node (d : Dev) (pos c : Nat) (f : Firing) (t : W128) (n : Node) : (d.fireCtx pos c f t n).n = n := rfl

/-- A row of the node encoding whose cell has a firing of one of its nodes at its head executes that node. -/
theorem gives_execute {c : Instr} {s : State} {pos cell : Nat} {want : Node → Bool} {f : Firing} {t : W128} {n : Node}
    (hrow : nodeRow c = some (.cell pos cell, want)) (hwant : want n = true) (hready : s.dev.headReady pos cell f t n)
    {e : Dev} (he : s.dev.execute (s.dev.fireCtx pos cell f t n) = e) : Gives c s e :=
  gives_act (exec_cell_row hrow s) (by rw [fireCell_ready hready, if_pos hwant, he])

/-- Settles O13: the head firing executes its node, and for these two classes that is the effect stated. The cases end with `rfl`
because the statement and `Dev.execute` may each have a matcher of their own for the slot that is written. -/
theorem dataflowRows : Obligations.DataflowRows := by
  unfold Obligations.DataflowRows
  intro c s pos cell want f t n hrow hwant hready
  constructor
  case left =>
    intro (hcls : n.cls = .D)
    refine gives_execute hrow hwant hready ?_
    simp only [Dev.execute, fireCtx_node, hcls, beq_iff_eq] <;> rfl
  case right =>
    intro (hcls : n.cls = .Q)
    refine gives_execute hrow hwant hready ?_
    simp only [Dev.execute, fireCtx_node, hcls] <;> rfl

/-- Settles O14: the head firing executes its node, and the five classes share one way to do so. -/
theorem splitPhaseRows : Obligations.SplitPhaseRows := by
  unfold Obligations.SplitPhaseRows
  intro c s pos cell want f t n hrow hwant hready hcls
  refine gives_execute hrow hwant hready ?_
  simp only [List.mem_cons, List.not_mem_nil, or_false] at hcls
  rcases hcls with hcls | hcls | hcls | hcls | hcls <;> simp only [Dev.execute, fireCtx_node, hcls]

end Sys2Proof.Machine
end

section
/-! PROOF. The statements of the matching store: its four commands. -/

namespace Sys2Proof.Machine

/-- Settles O35: each of the four commands runs its effect, which is the one that R59, R61, R65 and R66 give. The last is split
into its outcomes, so that no matcher is compared with another: none waits; it is stale; it is lost; its chain is full; no
index is free; it is linked in front of an empty chain or of the newest entry. -/
theorem matchStore : Obligations.MatchStore := by
  unfold Obligations.MatchStore
  refine ⟨?arrival, ?sweep, ?probe, ?writeback⟩
  case arrival => exact fun pos vc s => gives_act (exec_matchArrival pos vc s) rfl
  case sweep => exact fun pos key s => gives_act (exec_matchSweepTick pos key s) rfl
  case probe => exact fun pos key s => gives_act (exec_overflowProbeDone pos key s) rfl
  case writeback =>
    intro pos s
    refine gives_act (exec_writebackLink pos s) ?_
    rcases hwb : (s.dev.pos pos).wb with _ | ⟨⟨e, swept⟩, rest⟩
    · simp only [Dev.wbLink, hwb]
    generalize hpop : s.dev.modPos pos (fun p => { p with wb := p.wb.drop 1 }) = popped
    by_cases hstale : popped.entStale e
    · simp only [Dev.wbLink, hwb, hpop, hstale, if_true]
    rcases hread : popped.readOnDie pos e with ⟨_ | v, afterRead⟩
    · simp only [Dev.wbLink, hwb, hpop, hstale, hread]
    generalize hhead : afterRead.readHead (pos / 34) (e.key / 2 ^ 36) = d
    generalize hchain : d.chain (pos / 34) (e.key / 2 ^ 36) = l
    by_cases hfull : 64 ≤ l.length
    · simp only [Dev.wbLink, hwb, hpop, hstale, hread, hhead, hchain, hfull, if_true]
    rcases hidx : d.anyIdx (pos / 34) with _ | ⟨i, taken⟩
    · simp only [Dev.wbLink, hwb, hpop, hstale, hread, hhead, hchain, hfull, hidx, if_false]
    · cases l <;> simp only [Dev.wbLink, hwb, hpop, hstale, hread, hhead, hchain, hfull, hidx, if_false]

end Sys2Proof.Machine
end

section
/-! SUPPORT. Spill queues (R90–R97) as sequences of cells: what each operation does to the cells that a queue holds, the held
writes among them, and to the positions `RD` and `REL`. -/

namespace Sys2Proof.Machine

variable {α : Type}

/-- Every cell that a queue holds, oldest first: the retained and unread ones of its head window, its middle, its tail window
and the held writes. -/
def sqContents (q : SQ α) : List α := q.head ++ q.mid ++ q.tail ++ q.held

theorem sqContents_length (q : SQ α) : (sqContents q).length = sqFill q + q.held.length := by
  simp only [sqContents, sqFill, List.length_append]

/-- Nothing is retained: `RD` and `REL` coincide, as they do between the operations of a queue in auto-release mode (R97). -/
def SQ.Released (q : SQ α) : Prop := q.rd = q.rel

theorem sqRetained_of_released {q : SQ α} (h : q.Released) : sqRetained q = 0 := by
  simp only [sqRetained, show q.rd = q.rel from h, Nat.add_sub_cancel_left, Nat.mod_self]

theorem sqUnread_of_released {q : SQ α} (h : q.Released) : sqUnread q = q.head := by
  rw [sqUnread, sqRetained_of_released h, List.drop_zero]

theorem sqCells_append_held {q : SQ α} (h : q.Released) : sqCells q ++ q.held = sqContents q := by
  rw [sqCells, sqUnread_of_released h, sqContents]

/-- `p` holds the cells of `q` in their order, with `RD` and `REL` where they were: a move of cells within the queue. -/
structure SQ.MovesTo (q p : SQ α) : Prop where
  contents : sqContents p = sqContents q
  rd       : p.rd = q.rd
  rel      : p.rel = q.rel

theorem SQ.MovesTo.refl (q : SQ α) : q.MovesTo q := ⟨rfl, rfl, rfl⟩

theorem SQ.MovesTo.trans {q p s : SQ α} (h : q.MovesTo p) (g : p.MovesTo s) : q.MovesTo s :=
  ⟨g.contents.trans h.contents, g.rd.trans h.rd, g.rel.trans h.rel⟩

theorem SQ.MovesTo.released {q p : SQ α} (h : q.MovesTo p) (hq : q.Released) : p.Released :=
  h.rd.trans (Eq.trans hq h.rel.symm)

theorem sqWater_movesTo (c : SqCfg) (q : SQ α) : q.MovesTo (sqWater c q) := ⟨rfl, rfl, rfl⟩

/-- R91: only past an empty middle do tail cells move to the head window, so the order stands. -/
theorem sqSettle_movesTo (q : SQ α) : q.MovesTo (sqSettle q) := by
  unfold sqSettle
  split
  next hmid => exact ⟨by simp [sqContents, List.isEmpty_iff.mp hmid], rfl, rfl⟩
  next => exact .refl q

theorem sqRefill_movesTo (q : SQ α) : q.MovesTo (sqRefill q) := by
  unfold sqRefill
  refine .trans ?_ (sqSettle_movesTo _)
  exact ⟨by simp [sqContents], rfl, rfl⟩

theorem sqPull_movesTo (q : SQ α) : q.MovesTo (sqPull q) := by
  unfold sqPull
  split
  · exact (sqSettle_movesTo q).trans (sqRefill_movesTo _)
  · exact .refl q

/-- A stored cell is the newest of those behind which no write is held. -/
theorem sqStore_cells (c : SqCfg) (q : SQ α) (x : α) :
    (sqStore c q x).head ++ (sqStore c q x).mid ++ (sqStore c q x).tail = q.head ++ q.mid ++ q.tail ++ [x] := by
  simp only [sqStore, sqWater]
  split
  next hempty =>
    simp only [Bool.and_eq_true, List.isEmpty_iff] at hempty
    obtain ⟨⟨hmid, htail⟩, -⟩ := hempty
    simp [hmid, htail]
  next => simp

theorem sqStore_fields (c : SqCfg) (q : SQ α) (x : α) :
    (sqStore c q x).held = q.held ∧ (sqStore c q x).rd = q.rd ∧ (sqStore c q x).rel = q.rel := by
  simp only [sqStore, sqWater]
  split <;> exact ⟨rfl, rfl, rfl⟩

/-- Held writes `l` are stored in order, or go on being held (R91). -/
theorem sqFlushGo_movesTo (c : SqCfg) (l : List α) (q : SQ α) : { q with held := l }.MovesTo (sqFlushGo c l q) := by
  induction l generalizing q with
  | nil => exact .refl _
  | cons x r ih =>
    unfold sqFlushGo
    split
    · exact .refl _
    · obtain ⟨-, hrd, hrel⟩ := sqStore_fields c q x
      refine .trans ?_ (ih (sqStore c q x))
      refine ⟨?_, hrd, hrel⟩
      simp only [sqContents]
      rw [sqStore_cells, List.append_assoc, List.singleton_append]

theorem sqFlush_movesTo (c : SqCfg) (q : SQ α) : q.MovesTo (sqFlush c q) := sqFlushGo_movesTo c q.held q

theorem sqBurst_movesTo (c : SqCfg) (q : SQ α) : q.MovesTo (sqBurst c q) := by
  simp only [sqBurst]
  split
  · exact .refl q
  split
  · exact ⟨rfl, rfl, rfl⟩
  · refine .trans ?_ (sqFlush_movesTo c _)
    exact ⟨by simp [sqContents], rfl, rfl⟩

theorem sqDoRefill_movesTo (c : SqCfg) (q : SQ α) : q.MovesTo (sqDoRefill c q) := by
  unfold sqDoRefill
  split
  · exact .refl q
  · exact (sqRefill_movesTo q).trans (sqFlush_movesTo c _)

/-- Freeing cells takes the oldest from the head window and moves `REL` on by their number (R97). -/
theorem sqFree_movesTo (c : SqCfg) (q : SQ α) {n : Nat} (hn : n ≠ 0) :
    { q with head := q.head.drop n, rel := (q.rel + n) % 2 ^ 32 }.MovesTo (sqFree c q n) := by
  rw [sqFree, if_neg hn]
  refine .trans ?_ (((sqSettle_movesTo _).trans (sqWater_movesTo c _)).trans (sqFlush_movesTo c _))
  exact ⟨rfl, rfl, rfl⟩

/-- A write that is not ignored makes its cell the newest, stored or held; one that is ignored moves nothing (R91–R93). -/
theorem sqWrite_contents (c : SqCfg) (q : SQ α) (x : α) :
    sqContents (sqWrite c q x) = if sqTakes c q then sqContents q ++ [x] else sqContents q := by
  by_cases htakes : sqTakes c q
  case neg => unfold sqWrite; split <;> simp [htakes, sqContents]
  have hon : q.on := by simp only [sqTakes, Bool.and_eq_true] at htakes; exact htakes.1.1
  simp only [sqWrite, hon, htakes, Bool.not_true, Bool.false_eq_true, if_false, if_true]
  split
  next => simp [sqContents]
  next hstored =>
    simp only [Bool.or_eq_true, Bool.not_eq_true', not_or, Bool.not_eq_false, List.isEmpty_iff] at hstored
    obtain ⟨hheld, -⟩ := hstored
    rw [sqContents, sqStore_cells, (sqStore_fields c q x).1, sqContents, hheld, List.append_nil, List.append_nil]

theorem sqWrite_released (c : SqCfg) {q : SQ α} (h : q.Released) (x : α) : (sqWrite c q x).Released := by
  obtain ⟨-, hrd, hrel⟩ := sqStore_fields c q x
  unfold sqWrite
  split
  · exact h
  split
  · exact h
  split
  · exact h
  · exact hrd.trans (Eq.trans h hrel.symm)

/-- Where nothing is retained, freeing the cell that `RD` has just passed takes the oldest cell and retains nothing. -/
theorem sqFree_takes (c : SqCfg) {q : SQ α} (h : q.Released) {x : α} {r : List α} (hhead : q.head = x :: r) :
    sqContents q = x :: sqContents (sqFree c { q with rd := inc32 q.rd } 1)
      ∧ (sqFree c { q with rd := inc32 q.rd } 1).Released := by
  have hfree := sqFree_movesTo c { q with rd := inc32 q.rd } one_ne_zero
  refine ⟨?contents, hfree.released ?released⟩
  case contents => rw [hfree.contents]; simp [sqContents, hhead]
  case released =>
    rw [SQ.Released] at h ⊢
    rw [inc32, h]

/-- A read in auto-release mode: the queue is pulled, its first unread cell taken and freed with the retained ones (R94, R97).
`delta` acts on the function alone: comparing a read with its unfolded match, the kernel would evaluate the match first and
count the 2^32 of `sqRetained` in unary. -/
theorem sqReadAuto_inversion {c : SqCfg} {q p : SQ α} {x : α} (h : sqReadAuto c q = some (x, p)) :
    ∃ r, sqUnread (sqPull q) = x :: r
      ∧ p = sqFree c { sqPull q with rd := inc32 (sqPull q).rd } (sqRetained (sqPull q) + 1) := by
  conv at h =>
    lhs; fun; fun; delta sqReadAuto
  generalize sqPull q = pulled at h ⊢
  dsimp only at h
  generalize sqUnread pulled = unread at h ⊢
  cases unread with
  | nil => cases h
  | cons y r =>
    obtain ⟨-, hsome⟩ := Option.ite_none_right_eq_some.mp h
    obtain ⟨rfl, rfl⟩ := Prod.mk.inj (Option.some.inj hsome)
    exact ⟨r, rfl, rfl⟩

/-- A read in auto-release mode takes the oldest cell, and leaves nothing retained (R97). -/
theorem sqReadAuto_takes {c : SqCfg} {q p : SQ α} {x : α} (h : q.Released) (hread : sqReadAuto c q = some (x, p)) :
    sqContents q = x :: sqContents p ∧ p.Released := by
  have hpulled := sqPull_movesTo q
  have hreleased := hpulled.released h
  obtain ⟨r, hunread, rfl⟩ := sqReadAuto_inversion hread
  rw [sqUnread_of_released hreleased] at hunread
  rw [sqRetained_of_released hreleased, Nat.zero_add, ← hpulled.contents]
  exact sqFree_takes c hreleased hunread

/-- What holds of every trace of a queue with the middle limit `m`: nothing is retained; the cells that were taken in are
those read, then those the queue holds; and these are no more than its capacity (R91, R92). -/
structure QTrace.Wf (m : Nat) (t : QTrace α) : Prop where
  released : t.q.Released
  order    : t.accepted = t.taken ++ sqContents t.q
  capacity : (sqContents t.q).length ≤ 128 + m

/-- A move of cells within the queue keeps what holds of a trace. -/
theorem QTrace.Wf.of_movesTo {m : Nat} {t : QTrace α} (h : t.Wf m) {p : SQ α} (hp : t.q.MovesTo p) :
    { t with q := p }.Wf m :=
  ⟨hp.released h.released, by rw [hp.contents]; exact h.order, by rw [hp.contents]; exact h.capacity⟩

theorem sqTakes_capacity {c : SqCfg} {q : SQ α} (h : sqTakes c q) : (sqContents q).length < 128 + c.limit := by
  simp only [sqTakes, Bool.and_eq_true, decide_eq_true_eq] at h
  rw [sqContents_length]
  omega

theorem QTrace.act_write (c : SqCfg) (t : QTrace α) (x : α) : t.act c (.write x) =
    { t with q := sqWrite c t.q x, accepted := if sqTakes c t.q then t.accepted ++ [x] else t.accepted } := rfl

/-- A read that finds a cell is noted. For `delta` see `sqReadAuto_inversion`. -/
theorem QTrace.act_read_some {c : SqCfg} {t : QTrace α} {x : α} {p : SQ α} (h : sqReadAuto c t.q = some (x, p)) :
    t.act c .read = { t with q := p, taken := t.taken ++ [x] } := by
  conv =>
    lhs; fun; fun; fun; delta QTrace.act
  generalize sqReadAuto c t.q = found at h ⊢
  subst h
  rfl

theorem QTrace.act_read_none {c : SqCfg} {t : QTrace α} (h : sqReadAuto c t.q = none) : t.act c .read = t := by
  conv =>
    lhs; fun; fun; fun; delta QTrace.act
  generalize sqReadAuto c t.q = found at h ⊢
  subst h
  rfl

/-- Each operation keeps what holds of a trace, from every trace of which it holds. -/
theorem QTrace.Wf.act {c : SqCfg} {t : QTrace α} (h : t.Wf c.limit) (o : QStep α) : (t.act c o).Wf c.limit := by
  cases o with
  | write x =>
    rw [QTrace.act_write]
    refine ⟨sqWrite_released c h.released x, ?order, ?capacity⟩
    case order =>
      simp only [sqWrite_contents, h.order]
      split
      · rw [List.append_assoc]
      · rfl
    case capacity =>
      simp only [sqWrite_contents]
      split
      next htakes =>
        have hroom := sqTakes_capacity htakes
        simp only [List.length_append, List.length_singleton]
        omega
      next => exact h.capacity
  | burst => exact h.of_movesTo (sqBurst_movesTo c t.q)
  | refill => exact h.of_movesTo (sqDoRefill_movesTo c t.q)
  | read =>
    rcases hread : sqReadAuto c t.q with _ | ⟨x, p⟩
    case none => rw [QTrace.act_read_none hread]; exact h
    case some =>
      obtain ⟨hcontents, hreleased⟩ := sqReadAuto_takes h.released hread
      rw [QTrace.act_read_some hread]
      refine ⟨hreleased, ?order, ?capacity⟩
      case order => rw [h.order, hcontents, List.append_assoc, List.singleton_append]
      case capacity =>
        have hcap := h.capacity
        rw [hcontents, List.length_cons] at hcap
        exact Nat.le_of_succ_le hcap

/-- An enabled queue that nothing was written to meets what holds of a trace. -/
theorem QTrace.wf_enabled (m : Nat) : QTrace.Wf m (⟨sqEnable sqOff, [], []⟩ : QTrace α) :=
  ⟨rfl, rfl, Nat.zero_le _⟩

/-- Along every list of operations, whatever the configurations hold but the middle limit, a trace keeps what holds of it. -/
theorem QTrace.Wf.foldl {m : Nat} {l : List (SqCfg × QStep α)} (hl : ∀ x ∈ l, x.1.limit = m) {t : QTrace α} (h : t.Wf m) :
    (l.foldl (fun (t : QTrace α) x => t.act x.1 x.2) t).Wf m :=
  List.foldlRecOn l _ h fun _ hs x hx => by
    obtain rfl := hl x hx
    exact hs.act x.2

end Sys2Proof.Machine
end

section
/-! PROOF. The statements of cells and token queues: the order and the capacity of a spill queue. -/

namespace Sys2Proof.Machine

/-- Settles O9: each operation keeps the order and the capacity of a trace, so every list of operations does, from the enabled
queue on. -/
theorem spillQueueOrder : Obligations.SpillQueueOrder := by
  unfold Obligations.SpillQueueOrder
  intro α m l hl
  have h := (QTrace.wf_enabled m).foldl hl
  refine ⟨?order, ?capacity⟩
  case order => rw [List.append_assoc, sqCells_append_held h.released]; exact h.order
  case capacity => rw [← sqContents_length]; exact h.capacity

end Sys2Proof.Machine
end

section
/-! SUPPORT. Message rings (R91–R95): what enabling and disabling does to a spill queue, and what each row that sets up a ring
comes to. -/

namespace Sys2Proof.Machine

theorem sqEnable_of_off {α : Type} {q : SQ α} (h : q.on = false) :
    (sqEnable q).on = true ∧ sqFill (sqEnable q) = 0 ∧ (sqEnable q).overrun = q.overrun := by
  simp [sqEnable, h, sqFill]

@[simp] theorem setIng_obj (d : Dev) (r : Nat) (x : InRing) (a b : Nat) : (d.setIng r x).obj a b = d.obj a b :=
  obj_congr (setIng_objs d r x) (setIng_part d r x) a b

@[simp] theorem setEgr_obj (d : Dev) (r : Nat) (x : EgRing) (a b : Nat) : (d.setEgr r x).obj a b = d.obj a b := rfl

theorem ringEnable_ingress {d : Dev} {idx : Nat} (hfree : d.namers (idx % 256) = []) (hpage : inPage idx 0x41 = true)
    (hoff : (d.ing (idx % 256)).q.on = false) :
    d.ringEnable idx = d.setIng (idx % 256) { q := sqEnable (d.ing (idx % 256)).q, descs := [], whole := [], wait := none } := by
  simp [Dev.ringEnable, ringOf, hfree, hpage, hoff]

theorem ringEnable_egress {d : Dev} {idx : Nat} (hfree : d.namers (idx % 256) = []) (hpage : inPage idx 0x41 = false)
    (hoff : (d.egr (idx % 256)).q.on = false) :
    d.ringEnable idx = d.setEgr (idx % 256) { q := sqEnable (d.egr (idx % 256)).q, descs := [] } := by
  simp [Dev.ringEnable, ringOf, hfree, hpage, hoff]

/-- R92: a ring that a session names, or that is not Off, stays as it is. -/
theorem ringEnable_otherwise {d : Dev} {idx : Nat}
    (hing : ¬ (d.namers (idx % 256) = [] ∧ inPage idx 0x41 = true ∧ (d.ing (idx % 256)).q.on = false))
    (hegr : ¬ (d.namers (idx % 256) = [] ∧ inPage idx 0x41 = false ∧ (d.egr (idx % 256)).q.on = false)) :
    d.ringEnable idx = d := by
  by_cases hfree : d.namers (idx % 256) = []
  · cases hpage : inPage idx 0x41 <;> simp_all [Dev.ringEnable, ringOf]
  · simp [Dev.ringEnable, ringOf, hfree]

theorem ringDisable_named {d : Dev} {idx : Nat} (hnamed : d.namers (idx % 256) ≠ []) : d.ringDisable idx = d := by
  simp [Dev.ringDisable, ringOf, hnamed]

theorem ringDisable_ingress {d : Dev} {idx : Nat} (hfree : d.namers (idx % 256) = []) (hpage : inPage idx 0x41 = true) :
    (d.ringDisable idx).ing (idx % 256) = { q := sqDisable (d.ing (idx % 256)).q, descs := [], whole := [], wait := none }
      ∧ (d.ringDisable idx).key = { d.key with signals := d.key.signals.filter (fun s => s.ring != idx % 256) }
      ∧ (d.ringDisable idx).fab = d.fab := by
  simp only [Dev.ringDisable, ringOf, hfree, hpage, List.isEmpty_nil, Bool.not_true, Bool.false_eq_true, if_false, if_true,
    setIng_key, setIng_fab, and_self, and_true]
  exact setIng_ing _ _ _

theorem ringDisable_egress {d : Dev} {idx : Nat} (hfree : d.namers (idx % 256) = []) (hpage : inPage idx 0x41 = false) :
    d.ringDisable idx = d.setEgr (idx % 256) { q := sqDisable (d.egr (idx % 256)).q, descs := [] } := by
  simp [Dev.ringDisable, ringOf, hfree, hpage]

/-- R93: the overruns of the rings lie in pages of their own, away from those of the ready queues. -/
theorem overrunClear_ingress {d : Dev} {idx : Nat} (hpage : inPage idx 0x41 = true) (sub v : Nat) :
    d.overrunClear idx sub v =
      d.setIng (idx % 256) { d.ing (idx % 256) with q := { (d.ing (idx % 256)).q with overrun := false } } := by
  have hidx : idx ≠ 0x2318 := by rintro rfl; exact absurd hpage (by decide)
  simp [Dev.overrunClear, ringOf, hidx, hpage]

theorem overrunClear_egress {d : Dev} {idx : Nat} (hpage : inPage idx 0x42 = true) (sub v : Nat) :
    d.overrunClear idx sub v =
      d.setEgr (idx % 256) { d.egr (idx % 256) with q := { (d.egr (idx % 256)).q with overrun := false } } := by
  have hidx : idx ≠ 0x2318 := by rintro rfl; exact absurd hpage (by decide)
  have hegress : inPage idx 0x41 = false := by
    simp only [inPage, beq_iff_eq, beq_eq_false_iff_ne] at hpage ⊢
    omega
  simp [Dev.overrunClear, ringOf, hidx, hegress]

/-- The high watermark of a ring as a write of `v` to the sub-index `sub` would leave it, and the low one (R95). -/
def Dev.highAfter (d : Dev) (idx sub v : Nat) : Nat := if sub = 3 then v else d.obj idx 3
def Dev.lowAfter (d : Dev) (idx sub v : Nat) : Nat := if sub = 4 then v else d.obj idx 4

theorem watermark_ignored {d : Dev} {idx sub v : Nat} (hidx : idx ≠ 0x2301) (h : d.highAfter idx sub v ≤ d.lowAfter idx sub v) :
    d.watermark idx sub v = d := by
  simp only [Dev.watermark, if_neg hidx]
  exact if_pos h

theorem watermark_obj {d : Dev} {idx sub v : Nat} (hidx : idx ≠ 0x2301) (h : d.lowAfter idx sub v < d.highAfter idx sub v) :
    (d.watermark idx sub v).obj idx sub = v := by
  simp only [Dev.highAfter, Dev.lowAfter] at h
  simp only [Dev.watermark, if_neg hidx, if_neg (Nat.not_le.mpr h)]
  split
  · rw [setIng_obj, setObj_obj]
  · rw [setEgr_obj, setObj_obj]

end Sys2Proof.Machine
end

section
/-! PROOF. The statements of cells and token queues: the rows that set up message rings. -/

namespace Sys2Proof.Machine

/-- Settles O28: each row runs its effect on the ring or the object that its request names, as R91 to R95, R249 and R253 give it. -/
theorem ringWrites : Obligations.RingWrites := by
  unfold Obligations.RingWrites
  refine ⟨?ingress, ?enable, ?disable, ?overrun, ?watermark⟩
  case ingress => exact writes_of (fun _ _ v d => d.setObj 0x4020 1 v) exec_ingressEnableWrite fun _ _ _ => rfl
  case enable =>
    refine writes_of (fun r _ _ d => d.ringEnable r.idx) exec_ringEnable fun _ r d => ?_
    split
    next hing =>
      obtain ⟨hfree, hpage, hoff⟩ := hing
      simp [ringEnable_ingress hfree hpage hoff, sqEnable_of_off hoff]
    split
    next hegr =>
      obtain ⟨hfree, hpage, hoff⟩ := hegr
      simp [ringEnable_egress hfree hpage hoff, sqEnable_of_off hoff]
    next hing hegr => exact ringEnable_otherwise hing hegr
  case disable =>
    refine writes_of (fun r _ _ d => d.ringDisable r.idx) exec_ringDisable fun _ r d => ?_
    split
    next hfree =>
      split
      next hpage =>
        obtain ⟨hing, hkey, hfab⟩ := ringDisable_ingress hfree hpage
        rw [hing]
        exact ⟨rfl, rfl, rfl, rfl, hkey, hfab⟩
      next hpage => exact ringDisable_egress hfree (Bool.eq_false_iff.mpr hpage)
    next hnamed => exact ringDisable_named hnamed
  case overrun =>
    refine writes_of (fun r _ v d => d.overrunClear r.idx r.sub v) exec_overrunClear fun _ r d => ⟨?_, ?_, rfl⟩
    · intro hpage; rw [overrunClear_ingress hpage, setIng_ing]
    · intro hpage; rw [overrunClear_egress hpage, setEgr_egr]
  case watermark =>
    refine writes_of (fun r _ v d => d.watermark r.idx r.sub v) exec_watermarkWrite fun _ r d => ⟨?_, ?_, ?_, ?_, rfl⟩
    · intro hidx hsub h; exact watermark_ignored hidx (by simpa [Dev.highAfter, Dev.lowAfter, hsub] using h)
    · intro hidx hsub h; exact watermark_ignored hidx (by simpa [Dev.highAfter, Dev.lowAfter, hsub] using h)
    · intro hidx hsub h; rw [← hsub]; exact watermark_obj hidx (by simpa [Dev.highAfter, Dev.lowAfter, hsub] using h)
    · intro hidx hsub h; rw [← hsub]; exact watermark_obj hidx (by simpa [Dev.highAfter, Dev.lowAfter, hsub] using h)

end Sys2Proof.Machine
end

section
/-! PROOF. The statements of cells and token queues: charges, pace and reclamation; ready queues, slots and spill queues. -/

namespace Sys2Proof.Machine

/-- Settles O34: each command runs its effect, which is the one that R102, R123, R133 and R137 give. -/
theorem chargesAndReclaim : Obligations.ChargesAndReclaim := by
  unfold Obligations.ChargesAndReclaim
  refine ⟨?drain, ?pace, ?reclaim⟩
  case drain => exact fun s => gives_act (exec_drainTick s) rfl
  case pace => exact fun l s => gives_act (exec_paceWindowEnd l s) rfl
  case reclaim => exact fun ctx s => gives_act (exec_reclaimDone ctx s) rfl

/-- Settles O36: each command runs its effect, which is the one that R44, R82, R86, R87, R89 and R413 give. The frame fetch is
split into its outcomes, so that no matcher is compared with another: no firing of its set waits; another context's waits first
or its line finds no room; the line is installed. -/
theorem queueCommands : Obligations.QueueCommands := by
  unfold Obligations.QueueCommands
  refine ⟨?dispatch, ?frameFetch, ?piSignal, ?codeReload, ?slotTick⟩
  case dispatch => exact fun pos s => gives_act (exec_dispatch pos s) rfl
  case frameFetch =>
    intro pos ctx s
    refine gives_act (exec_frameFetchDone pos ctx s) ?_
    rcases hwaits : (s.dev.pos pos).fwait.find? (fun w => w.ctx % 64 == ctx % 64) with _ | w
    · simp only [Dev.frameFetch, hwaits]
    by_cases hstays : (decide (w.ctx ≠ ctx) || !s.dev.frameRoom (s.dev.pos pos) ctx) = true
    · simp only [Dev.frameFetch, hwaits, hstays, if_true]
    rcases hread : s.dev.readCws spHbm 8 (s.dev.frameAt ctx) with ⟨octets, flips, d⟩
    simp only [Dev.frameFetch, hwaits, hstays, hread]
  case piSignal => exact fun s => gives_act (exec_piSignal s) rfl
  case codeReload => exact fun pos s => gives_act (exec_codeReloadDone pos s) rfl
  case slotTick => exact fun pos s => gives_act (exec_slotTick pos s) rfl

/-- Settles O37: a burst or a refill is that of the queue named (R91, R94), the sweeper visits one entry (R228), and the write of
ORPHAN_BREAK runs its effect (R239) under the ward's grant. -/
theorem spillCommands : Obligations.SpillCommands := by
  unfold Obligations.SpillCommands
  refine ⟨?burst, ?refill, ?orphanBreak, ?sweep⟩
  case burst => exact fun q s => gives_act (exec_spillBurstDone q s) (by cases q <;> rfl)
  case refill => exact fun q s => gives_act (exec_spillRefillDone q s) (by cases q <;> rfl)
  case orphanBreak =>
    exact writes_of (fun r ro v d => d.orphanBreak (v % 2 ^ 40) r.sess ro) exec_orphanBreak fun _ _ _ => rfl
  case sweep => exact fun s => gives_act (exec_deferralSweepTick s) rfl

end Sys2Proof.Machine
end

section
/-! PROOF. The statements of deadlock: packets on the network and at the parking agent. -/

namespace Sys2Proof.Machine

/-- Settles O38: each command runs its effect on the block. A packet moves by `Dev.hop` (R326) or along the escape tree by
`Dev.escape` (R112), a stall is reported by `Dev.stallDetect` (R122), and the parking agent takes a packet in by
`Dev.parkReceive` (R337) and replays a queue by `Dev.parkReplay` (R338); the block that each clause writes out is the one that
this effect gives, branch for branch. -/
theorem routerCommands : Obligations.RouterCommands := by
  unfold Obligations.RouterCommands
  refine ⟨?hop, ?escape, ?stall, ?receive, ?replay⟩
  case hop => exact fun rt inp vc s => gives_act (exec_routerHop rt inp vc s) rfl
  case escape => exact fun rt inp vc s => gives_act (exec_vc2Escape rt inp vc s) rfl
  case stall => exact fun die s => gives_act (exec_fabricStallDetect die s) rfl
  case receive => exact fun s => gives_act (exec_parkReceive s) rfl
  case replay => exact fun k s => gives_act (exec_parkReplayDone k s) rfl

end Sys2Proof.Machine
end

section
/-! SUPPORT. The keyway's decision (R131) while admission is closed to all (R134): the block as the decision finds it, and what
turning the message away leaves. -/

namespace Sys2Proof.Machine

/-- The block as the decision finds it (R131 step 1): the oldest signal `g` used up, `rest` left, charges drained (R137), the
first cell of the record read. -/
def Dev.atDecision (d : Dev) (g : Signal) (rest : List Signal) : Dev :=
  (Dev.drainTick { d with key := { d.key with signals := rest } }).readFirst g.ring

theorem atDecision_eq (d : Dev) (g : Signal) (rest : List Signal) : d.atDecision g rest =
    { d with key := { d.drainTick.key with signals := rest }, ses := (d.atDecision g rest).ses } := by
  unfold Dev.atDecision
  rw [readFirst_eq]
  rfl

@[simp] theorem atDecision_key (d : Dev) (g : Signal) (rest : List Signal) :
    (d.atDecision g rest).key = { d.drainTick.key with signals := rest } := by rw [atDecision_eq]

@[simp] theorem atDecision_part (d : Dev) (g : Signal) (rest : List Signal) : (d.atDecision g rest).part = d.part := by
  rw [atDecision_eq]

@[simp] theorem atDecision_obj (d : Dev) (g : Signal) (rest : List Signal) (a b : Nat) :
    (d.atDecision g rest).obj a b = d.obj a b := by rw [atDecision_eq]; rfl

@[simp] theorem atDecision_keyClosed (d : Dev) (g : Signal) (rest : List Signal) :
    (d.atDecision g rest).keyClosed = d.keyClosed := by rw [atDecision_eq]; rfl

@[simp] theorem atDecision_wait (d : Dev) (g : Signal) (rest : List Signal) (r : Nat) :
    ((d.atDecision g rest).ing r).wait = (d.ing r).wait := readFirst_wait _ _ _

/-- The oldest signal, of a message that is no reply, brings that message to the decision (R131). -/
theorem takeSignal_request {d : Dev} {g : Signal} {rest : List Signal} {c : Desc} {t : List Desc}
    (hsignals : d.key.signals = g :: rest) (hnext : d.signalNext = true) (hpace : d.paceDue = false)
    (hdescs : (d.ing g.ring).descs = c :: t) (hreply : d.isReply c = false) :
    d.takeSignal = (d.atDecision g rest).decide_ c g.ring := by
  simp [Dev.takeSignal, Dev.atDecision, hsignals, hnext, hpace, hdescs, hreply]

@[simp] theorem noteLate_key (d : Dev) (c : Desc) : (d.noteLate c).key = d.key := by rw [noteLate_objs]

@[simp] theorem noteLate_part (d : Dev) (c : Desc) : (d.noteLate c).part = d.part := by rw [noteLate_objs]

@[simp] theorem noteLate_ing (d : Dev) (c : Desc) (r : Nat) : (d.noteLate c).ing r = d.ing r := by rw [noteLate_objs]; rfl

/-- Objects of different sub-indices have different keys, whatever their indices. -/
theorem okey_ne_of_sub {a b i k : Nat} (h : b % 256 ≠ k % 256) : okey a b ≠ okey i k := by
  simp only [okey]
  omega

/-- The counters of the messages turned away and of those turned away with code 0x01 (R146) go up by one each. -/
theorem countReject_closed (d : Dev) (t : Option Nat) :
    (d.countReject 1 t).obj 0x3000 3 = (d.obj 0x3000 3 + 1) % 2 ^ 64
    ∧ (d.countReject 1 t).obj 0x3010 1 = (d.obj 0x3010 1 + 1) % 2 ^ 64 := by
  constructor
  · rw [countReject_obj d 1 t (by decide) (by decide) fun _ => okey_ne_of_sub (by decide), bump_obj_ne _ (by decide), bump_obj]
  · rw [countReject_obj d 1 t (by decide) (by decide) fun _ => okey_ne_of_sub (by decide), bump_obj, bump_obj_ne _ (by decide)]

/-- A decision while admission is closed to all, where no writer waits, hands the message to the reject lane with code 0x01 and
changes no other part of the keyway but the signals. -/
theorem decide_closed_key {d : Dev} (c : Desc) (r : Nat) (hclosed : d.keyClosed = true) (hw : ∀ n, (d.ing n).wait = none) :
    ∃ (j : Reject) (l : List Signal), (d.decide_ c r).key =
        { d.key with rejects := d.key.rejects ++ [j], signals := d.key.signals ++ l }
      ∧ j.code = 1 ∧ j.ring = r ∧ j.session = c.session := by
  obtain ⟨rt, t, hd⟩ := decide_closed d c r ((noteLate_keyClosed d c).trans hclosed)
  obtain ⟨l, hkey⟩ := rejectMsg_key (d.noteLate c) c r 1 rt t (by simpa using hw)
  rw [noteLate_key] at hkey
  exact ⟨_, l, hd ▸ hkey, rfl, rfl, rfl⟩

/-- It counts the message as turned away, and as turned away with code 0x01. -/
theorem decide_closed_counts {d : Dev} (c : Desc) (r : Nat) (hclosed : d.keyClosed = true) (hw : ∀ n, (d.ing n).wait = none) :
    (d.decide_ c r).obj 0x3000 3 = (d.obj 0x3000 3 + 1) % 2 ^ 64
    ∧ (d.decide_ c r).obj 0x3010 1 = (d.obj 0x3010 1 + 1) % 2 ^ 64 := by
  obtain ⟨rt, t, hd⟩ := decide_closed d c r ((noteLate_keyClosed d c).trans hclosed)
  have hw' : ∀ n, ((d.noteLate c).ing n).wait = none := by simpa using hw
  obtain ⟨hall, hcode⟩ := countReject_closed (d.noteLate c) t
  rw [noteLate_obj d c (by decide) (by decide)] at hall hcode
  rw [hd, rejectMsg_obj _ _ _ _ _ _ hw' fun _ => okey_ne_of_sub (by decide),
    rejectMsg_obj _ _ _ _ _ _ hw' fun _ => okey_ne_of_sub (by decide)]
  exact ⟨hall, hcode⟩

theorem decide_closed_part {d : Dev} (c : Desc) (r : Nat) (hclosed : d.keyClosed = true) (hw : ∀ n, (d.ing n).wait = none) :
    (d.decide_ c r).part = d.part := by
  obtain ⟨rt, t, hd⟩ := decide_closed d c r ((noteLate_keyClosed d c).trans hclosed)
  rw [hd, rejectMsg_part _ _ _ _ _ _ (by simpa using hw), noteLate_part]

/-- What an object reads as rests on the objects and the configuration alone, and `Dev.fused` replaces only the configuration. -/
theorem fused_obj_of_part {d w : Dev} (h : d.part = w.part) (a b : Nat) : (d.fused w).obj a b = d.obj a b :=
  obj_congr (fused_objs d w) ((fused_part d w).trans h.symm) a b

end Sys2Proof.Machine
end

section
/-! PROOF. The statements of keyway admission: a message turned away, records taken and lexed, what leaves for a partner. -/

namespace Sys2Proof.Machine

/-- Settles O31: the signal brings the message to the decision, which while admission is closed counts it and hands it to the
reject lane, and leaves the lives as the drain left them and the free queue as it was. -/
theorem closedKeywayRejects : Obligations.ClosedKeywayRejects := by
  unfold Obligations.ClosedKeywayRejects
  intro s g rest c t hsignals hnext hpace hdescs hreply hclosed hwait
  refine does_act (exec_keywayTakeSignal s) ?_
  rw [takeSignal_request hsignals hnext hpace hdescs hreply]
  have hclosed' : (s.dev.atDecision g rest).keyClosed = true := by simpa using hclosed
  have hwait' : ∀ r, ((s.dev.atDecision g rest).ing r).wait = none := by simpa using hwait
  obtain ⟨hall, hcode⟩ := decide_closed_counts c g.ring hclosed' hwait'
  obtain ⟨j, l, hkey, hj⟩ := decide_closed_key c g.ring hclosed' hwait'
  have hpart := (decide_closed_part c g.ring hclosed' hwait').trans (atDecision_part s.dev g rest)
  rw [atDecision_obj] at hall hcode
  rw [atDecision_key] at hkey
  rw [fused_obj_of_part hpart, fused_obj_of_part hpart, fused_key, hkey]
  exact ⟨hall, hcode, rfl, rfl, rfl, j, rfl, hj⟩

/-- Settles O30: each of the two commands runs its effect, which is the one that R131, R133 and R262 give. -/
theorem keywayRecords : Obligations.KeywayRecords := by
  unfold Obligations.KeywayRecords
  refine ⟨?take, ?lex⟩
  case take => exact fun s => gives_act (exec_keywayTakeSignal s) rfl
  case lex => exact fun r s => gives_act (exec_lexRecord r s) rfl

/-- Settles O32: each of the three commands runs its effect, which is the one that R135, R252 and R254 give. -/
theorem egressRecords : Obligations.EgressRecords := by
  unfold Obligations.EgressRecords
  refine ⟨?send, ?renew, ?reject⟩
  case send => exact fun r s => gives_act (exec_egressRecordSend r s) rfl
  case renew => exact fun port s => gives_act (exec_pfcRenew port s) rfl
  case reject => exact fun s => gives_act (exec_rejectLaneWrite s) rfl

end Sys2Proof.Machine
end

section
/-! SUPPORT. The Glolet core takes its next instruction on (R358, R359): what it runs, what it traps, what a branch leaves. -/

namespace Sys2Proof.Machine

/-- The core runs the instruction at `PC` where the row names it. -/
theorem coreStep_ready {d : Dev} {n : Node} (h : d.coreReady n) (want : Node → Bool) (bad : Bool) :
    d.coreStep want bad = if want n then d.coreRun n else d := by
  obtain ⟨hruns, hexec, hdecode⟩ := h
  simp only [Dev.coreStep, hruns, hexec, hdecode, Bool.not_true, Bool.false_eq_true, if_false]

/-- An address that cannot be executed traps with cause 3. -/
theorem coreStep_outside {d : Dev} (hruns : d.coreRuns = true) (hexec : coreExec d.wrd.core.pc = false) (want : Node → Bool) :
    d.coreStep want true = d.modCore (fun c => c.trap 3 trapEntry) := by
  simp only [Dev.coreStep, hruns, hexec, Bool.not_true, Bool.not_false, Bool.false_eq_true, if_false, if_true]

/-- Octets that are no instruction trap with cause 2, or with cause 3 where they run past the end of their memory. -/
theorem coreStep_illegal {d : Dev} {e : Nat} (hruns : d.coreRuns = true) (hexec : coreExec d.wrd.core.pc = true)
    (hdecode : decodeGlolet d.coreFetch = .error e) (want : Node → Bool) :
    d.coreStep want true = d.modCore (fun c => c.trap (if e = 0x00F then 3 else 2) trapEntry) := by
  simp only [Dev.coreStep, hruns, hexec, hdecode, Bool.not_true, Bool.false_eq_true, if_false, if_true]

/-- A row that names the instruction at `PC` is the core running it. -/
theorem gives_coreRun {c : Instr} {s : State} {n : Node}
    (hrow : coreRow c = some n.op ∨ ∃ want, nodeRow c = some (.glolet, want) ∧ want n = true) (hready : s.dev.coreReady n)
    {e : Dev} (he : s.dev.coreRun n = e) : Gives c s e := by
  obtain ⟨want, bad, hwant, hexec⟩ := exec_core_row hrow
  exact gives_act (hexec s) (by rw [coreStep_ready hready, if_pos hwant, he])

/-- PASS is the row that takes on what cannot be executed at `PC`. -/
theorem gives_pass_core {s : State} {e : Dev} (he : ∀ want, s.dev.coreStep want true = e) : Gives (.pass .glolet) s e :=
  gives_act (exec_pass .glolet s) (he _)

/-- A choice between two changes of the core is one change of it. -/
theorem ite_modCore (p : Prop) [Decidable p] (d : Dev) (f g : Glolet → Glolet) :
    (if p then d.modCore f else d.modCore g) = d.modCore (fun k => if p then f k else g k) := by
  split <;> rfl

@[simp] theorem coreCtx_node (d : Dev) (n : Node) : (d.coreCtx n).n = n := rfl

/-- A row of class G that names the instruction at `PC` counts its repetitions as cycles, and does what its opcode says. -/
theorem gives_coreG {c : Instr} {s : State} {n : Node} {o : Op} (hready : s.dev.coreReady n) (hcls : n.cls = .G) (hop : n.op = o)
    (hrow : coreRow c = some o) (hemulated : emulated o = false) {e : Dev}
    (he : (s.dev.modCore (fun k => { k with cycles := (k.cycles + (s.dev.coreCtx n).count) % 2 ^ 40 })).coreG (s.dev.coreCtx n)
      ((s.dev.wrd.core.pc + n.len) % 2 ^ 24) = e) : Gives c s e := by
  subst hop
  have hcycles : s.dev.coreCycles (s.dev.coreCtx n) = ((s.dev.coreCtx n).count, s.dev) := by
    simp [Dev.coreCycles, hemulated, hcls]
  refine gives_coreRun (.inl hrow) hready ?_
  simp only [Dev.coreRun, hcycles, hcls, he]

/-- A branch target is a sum of 24 bits (R175). -/
theorem coreTarget_eq (next : Nat) (o : Opd) : coreTarget next o = (BitVec.ofInt 24 ((next : Int) + o.s)).toNat := by
  rw [BitVec.toNat_ofInt]; rfl

/-- The lowest cause that is pending and enabled interrupts a core that is neither halted nor masked. -/
theorem coreIrq_pending {d : Dev} {i : Nat} (hup : d.wrd.up = true) (hhalted : d.wrd.core.halted = false)
    (hmasked : d.wrd.core.masked = false) (hi : i < 5) (hpending : bit (d.wrd.core.irqEn &&& d.wrd.core.irqPend) i = true)
    (hlowest : ∀ j < i, bit (d.wrd.core.irqEn &&& d.wrd.core.irqPend) j = false) :
    d.coreIrq = d.modCore (fun c => c.trap (0x10 + i) irqEntry) := by
  have hfind : (List.range 5).find? (fun j => bit (d.wrd.core.irqEn &&& d.wrd.core.irqPend) j) = some i :=
    List.find?_range_eq_some.2 ⟨hpending, List.mem_range.2 hi, fun j hj => by rw [hlowest j hj]; rfl⟩
  simp only [Dev.coreIrq, hup, hhalted, hmasked, hfind, Bool.not_true, Bool.or_self, Bool.false_eq_true, if_false]

end Sys2Proof.Machine
end

section
/-! PROOF. The statements of the instruction encoding: the rows of the node encoding at a cell and at the Glolet core. -/

namespace Sys2Proof.Machine

/-- Settles O15: the head firing executes its node, and the classes of computation share one way to do so; a row without a head
firing of its own has no effect. -/
theorem computeRows : Obligations.ComputeRows := by
  unfold Obligations.ComputeRows
  refine ⟨?compute, ?empty, ?other⟩
  case compute =>
    intro c s pos cell want f t n hrow hwant hready hcls
    refine gives_execute hrow hwant hready ?_
    cases h : n.cls
    case D | Q | M | Y | K | B | T => simp [h] at hcls
    all_goals simp only [Dev.execute, fireCtx_node, h] <;> rfl
  case empty =>
    intro c s pos cell want hrow hpipe
    exact gives_act (exec_cell_row hrow s) (by simp only [Dev.fireCell, hpipe])
  case other =>
    intro c s pos cell want f t n hrow hwant hready
    exact gives_act (exec_cell_row hrow s) (by simp [fireCell_ready hready, hwant])

/-- Settles O16: the firing leaves its queue for the idle cell, whose decoder refuses the node (R171). -/
theorem illegalNode_exception : Obligations.IllegalNode := by
  unfold Obligations.IllegalNode
  intro s pos pri c e f t d hst hpick htok hpop hidle hcode hbad hinj hclean hgen hdecode
  refine gives_act (exec_dispatch pos s) ?_
  rw [dispatch_give hst hpick, hpop, toCell_idle _ hidle]
  exact enterCell_illegal htok hcode hbad hinj hclean hgen hdecode

/-- Settles O17: the row is the core running the instruction at `PC`, class by class. The last step of the classes of computation
is one change of the core, whether the operation is emulated or not. Both they and the rows of O15 end with `rfl` because the
statement and the model may each have a matcher of their own for the result of the repetitions. -/
theorem gloletRows : Obligations.GloletRows := by
  unfold Obligations.GloletRows
  intro c s n hrow hready
  refine gives_coreRun hrow hready ?_
  cases hcls : n.cls
  case G => simp only [Dev.coreRun, hcls]
  case M => simp only [Dev.coreRun, hcls]
  case D => simp only [Dev.coreRun, hcls, beq_iff_eq]
  all_goals simp only [Dev.coreRun, hcls, beq_iff_eq, Bool.or_eq_true, ite_modCore] <;> rfl

/-- Settles O18: a branch form is class G with its cycles counted; what cannot be executed traps; an interrupt is the lowest
cause. -/
theorem gloletControl : Obligations.GloletControl := by
  unfold Obligations.GloletControl
  refine ⟨?control, ?traps, ?interrupt⟩
  case control =>
    intro s n hready hcls
    refine ⟨?jmp, ?bz, ?bnz, ?jal, ?jr, ?ret, ?trapret, ?halt, ?wfi, ?nop⟩
    case jal =>
      intro m hop hsw
      refine gives_coreG hready hcls hop rfl rfl ?_
      simp only [Dev.coreG, coreCtx_node, hop, hsw, coreTarget_eq]; rfl
    case ret =>
      intro hop
      refine gives_coreG hready hcls hop rfl rfl ?_
      simp only [Dev.coreG, coreCtx_node, hop, coreCtx_slot_one]; rfl
    all_goals
      intro hop
      refine gives_coreG hready hcls hop rfl rfl ?_
      simp only [Dev.coreG, coreCtx_node, hop, coreTarget_eq]; rfl
  case traps =>
    intro s hruns
    constructor
    · intro hexec
      exact gives_pass_core (coreStep_outside hruns hexec)
    · intro e hexec hdecode
      exact gives_pass_core (coreStep_illegal hruns hexec hdecode)
  case interrupt =>
    intro s i hi hup hhalted hmasked hpending hfirst
    refine gives_act (exec_gloletInterrupt s) ?_
    rw [coreIrq_pending hup hhalted hmasked hi hpending hfirst]
    rfl

end Sys2Proof.Machine
end

section
/-! SUPPORT. Operands and exact results as bit vectors (R164, R177, R182): the signed and unsigned views of an operand, and an
exact value reduced to the width. -/

namespace Sys2Proof.Machine

/-! ### The views of an operand -/

theorem sgn_toNat {w : Nat} (a : BitVec w) : sgn w a.toNat = a.toInt := by
  rw [sgn, Nat.mod_eq_of_lt a.isLt, BitVec.testBit_toNat, ← BitVec.msb_eq_getLsbD_last, BitVec.toInt_eq_msb_cond]
  push_cast
  rfl

theorem wrap_eq_toNat_ofInt (w : Nat) (i : Int) : wrap w i = (BitVec.ofInt w i).toNat := by
  rw [wrap, BitVec.toNat_ofInt]
  push_cast
  rfl

section
variable {w : Nat} (hw : w = 40 ∨ w = 80) (a : BitVec w) (k s : Nat)
include hw

/-- The signed view of a word, or of a pair (R164). -/
theorem opd_s_eq_toInt : (⟨a.toNat, decide (w = 80), k, s⟩ : Opd).s = a.toInt := by
  obtain rfl | rfl := hw
  · exact sgn_toNat a
  · exact sgn_toNat a

/-- The unsigned view of a word, or of a pair (R164). -/
theorem opd_u_eq_toNat : (⟨a.toNat, decide (w = 80), k, s⟩ : Opd).u = a.toNat := by
  obtain rfl | rfl := hw
  · exact Nat.mod_eq_of_lt a.isLt
  · exact Nat.mod_eq_of_lt a.isLt

/-- An operand of the width is itself when it is extended to the width. -/
theorem opd_x_eq_toNat : (⟨a.toNat, decide (w = 80), k, s⟩ : Opd).x w = a.toNat := by
  rw [Opd.x, opd_s_eq_toInt hw, wrap_eq_toNat_ofInt, BitVec.ofInt_toInt]

end

/-! ### Exact results -/

/-- The exact value is out of the signed range of the width, as `V` says (R182). -/
def exceeds (w : Nat) (i : Int) : Bool := decide (i < -2 ^ (w - 1)) || decide (2 ^ (w - 1) ≤ i)

theorem not_inRange (w : Nat) (i : Int) : (!inRange w i) = exceeds w i := by
  rw [inRange, exceeds, Bool.not_and, ← decide_not, ← decide_not]
  congr 2 <;> exact propext (by omega)

theorem exceeds_eq_true {w : Nat} {i : Int} : exceeds w i = true ↔ i < -2 ^ (w - 1) ∨ 2 ^ (w - 1) ≤ i := by
  simp [exceeds]

/-- Nothing that a bit vector of the width stands for is out of range. -/
theorem exceeds_toInt {w : Nat} (a : BitVec w) : exceeds w a.toInt = false := by
  have := a.le_toInt
  have := a.toInt_lt
  simp only [exceeds, Bool.or_eq_false_iff, decide_eq_false_iff_not]
  omega

theorem narrow_unsaturated (w : Nat) (i : Int) : narrow w false i = ((BitVec.ofInt w i).toNat, exceeds w i) := by
  simp [narrow, wrap_eq_toNat_ofInt, not_inRange]

/-- Without SAT the result is the exact value modulo 2^w, and `V` says that it is out of range. -/
theorem intRes_unsaturated {w : Nat} {e : AluEnv} (he : e.w = w) (hsat : e.sat = false) {i : Int} {r : BitVec w} {v : Bool}
    (hr : BitVec.ofInt w i = r) (hv : exceeds w i = v) (c : Bool) :
    intRes e i c = .ok r.toNat none (mkStatus v c false false false) false := by
  rw [intRes, he, hsat, narrow_unsaturated, hr, hv]
  rfl

theorem ofInt_sub (w : Nat) (i j : Int) : BitVec.ofInt w (i - j) = BitVec.ofInt w i - BitVec.ofInt w j := by
  rw [Int.sub_eq_add_neg, BitVec.ofInt_add, BitVec.ofInt_neg, BitVec.sub_eq_add_neg]

/-- The opposite of a bit vector is out of range for the least one alone. -/
theorem exceeds_neg {w : Nat} (hw : 0 < w) (a : BitVec w) : exceeds w (-a.toInt) = (a == BitVec.intMin w) := by
  have := a.le_toInt
  have := a.toInt_lt
  rw [Bool.eq_iff_iff, exceeds_eq_true, beq_iff_eq, ← BitVec.toInt_inj, BitVec.toInt_intMin_of_pos hw]
  omega

theorem exceeds_add_one {w : Nat} (a : BitVec w) : exceeds w (a.toInt + 1) = (a == BitVec.intMax w) := by
  have := a.le_toInt
  have := a.toInt_lt
  rw [Bool.eq_iff_iff, exceeds_eq_true, beq_iff_eq, ← BitVec.toInt_inj, BitVec.toInt_intMax]
  omega

theorem exceeds_sub_one {w : Nat} (hw : 0 < w) (a : BitVec w) : exceeds w (a.toInt - 1) = (a == BitVec.intMin w) := by
  have := a.le_toInt
  have := a.toInt_lt
  rw [Bool.eq_iff_iff, exceeds_eq_true, beq_iff_eq, ← BitVec.toInt_inj, BitVec.toInt_intMin_of_pos hw]
  omega

theorem toInt_eq_zero {w : Nat} {a : BitVec w} : a.toInt = 0 ↔ a = 0 := by
  rw [← BitVec.toInt_inj]
  simp

theorem toInt_eq_neg_one {w : Nat} (hw : 0 < w) {a : BitVec w} : a.toInt = -1 ↔ a = -1 := by
  have hone : (-1 : BitVec w) = BitVec.allOnes w := BitVec.neg_one_eq_allOnes
  rw [← BitVec.toInt_inj, hone, BitVec.toInt_allOnes, if_pos hw]

/-! ### Products and quotients -/

/-- The high part of a product is the arithmetic shift of the exact product. -/
theorem ofInt_div_eq_extract {v w n : Nat} (h : n + w ≤ v) (x : BitVec v) :
    BitVec.ofInt w (x.toInt / 2 ^ n) = x.extractLsb' n w := by
  have hshift : x.toInt / 2 ^ n = (x.sshiftRight n).toInt := by
    rw [BitVec.toInt_sshiftRight, Int.shiftRight_eq_div_pow]
    push_cast
    rfl
  rw [hshift]
  change (x.sshiftRight n).signExtend w = _
  refine BitVec.eq_of_getLsbD_eq fun i hi => ?_
  rw [BitVec.getLsbD_signExtend, BitVec.getLsbD_sshiftRight, BitVec.getLsbD_extractLsb']
  simp [hi, show i < v by omega, show n + i < v by omega]

/-- The product of two vectors is exact at twice the width. -/
theorem toInt_mul_signExtend {w : Nat} (hw : 1 < w) (a b : BitVec w) :
    (a.signExtend (2 * w) * b.signExtend (2 * w)).toInt = a.toInt * b.toInt := by
  have hlo := BitVec.le_toInt_mul_toInt (x := a) (y := b)
  have hhi := BitVec.toInt_mul_toInt_le (x := a) (y := b)
  have hpow : (2 : Int) ^ (2 * w - 1) = 2 * 2 ^ (w * 2 - 2) := by
    rw [← pow_succ']
    congr 1
    omega
  have hpos : (0 : Int) < 2 ^ (w * 2 - 2) := by positivity
  change (BitVec.ofInt (2 * w) a.toInt * BitVec.ofInt (2 * w) b.toInt).toInt = _
  rw [← BitVec.ofInt_mul, BitVec.toInt_ofInt_eq_self (by omega) (by omega) (by omega)]

theorem ofInt_mul_div_eq_extract {w : Nat} (hw : 1 < w) (a b : BitVec w) :
    BitVec.ofInt w (a.toInt * b.toInt / 2 ^ w) = (a.signExtend (2 * w) * b.signExtend (2 * w)).extractLsb' w w := by
  rw [← toInt_mul_signExtend hw, ofInt_div_eq_extract (by omega)]

theorem mul_div_eq_extract {w : Nat} (a b : BitVec w) :
    a.toNat * b.toNat / 2 ^ w = ((a.zeroExtend (2 * w) * b.zeroExtend (2 * w)).extractLsb' w w).toNat := by
  have hlt : a.toNat * b.toNat < 2 ^ w * 2 ^ w := Nat.mul_lt_mul'' a.isLt b.isLt
  have hle : w ≤ 2 * w := by omega
  rw [BitVec.extractLsb'_toNat, BitVec.toNat_mul, BitVec.zeroExtend_eq_setWidth, BitVec.zeroExtend_eq_setWidth,
    BitVec.toNat_setWidth_of_le hle, BitVec.toNat_setWidth_of_le hle, Nat.two_mul, pow_add, Nat.mod_eq_of_lt hlt,
    Nat.shiftRight_eq_div_pow, Nat.mod_eq_of_lt (Nat.div_lt_of_lt_mul hlt)]

theorem ofInt_tdiv {w : Nat} (a b : BitVec w) : BitVec.ofInt w (a.toInt.tdiv b.toInt) = a.sdiv b := by
  rw [← BitVec.toInt_inj, BitVec.toInt_sdiv, BitVec.toInt_ofInt]

theorem ofInt_tmod {w : Nat} (a b : BitVec w) : BitVec.ofInt w (a.toInt.tmod b.toInt) = a.srem b := by
  rw [← BitVec.toInt_srem, BitVec.ofInt_toInt]

/-- A quotient is out of range for the least number divided by −1 alone (R183). -/
theorem exceeds_tdiv {w : Nat} (hw : 0 < w) (a b : BitVec w) :
    exceeds w (a.toInt.tdiv b.toInt) = (a == BitVec.intMin w && b == -1) := by
  by_cases h : a = BitVec.intMin w ∧ b = -1
  · obtain ⟨rfl, rfl⟩ := h
    have hneg := exceeds_neg hw (BitVec.intMin w)
    rw [(toInt_eq_neg_one hw).2 rfl, Int.tdiv_neg, Int.tdiv_one, hneg]
    simp
  · rw [← BitVec.toInt_sdiv_of_ne_or_ne a b (not_and_or.1 h), exceeds_toInt]
    simpa using h

/-! ### Extremes -/

theorem ofInt_min {w : Nat} (a b : BitVec w) :
    BitVec.ofInt w (min a.toInt b.toInt) = if a.slt b then a else b := by
  simp only [BitVec.slt_iff_toInt_lt]
  split
  · rw [min_eq_left (by omega), BitVec.ofInt_toInt]
  · rw [min_eq_right (by omega), BitVec.ofInt_toInt]

theorem ofInt_max {w : Nat} (a b : BitVec w) :
    BitVec.ofInt w (max a.toInt b.toInt) = if a.slt b then b else a := by
  simp only [BitVec.slt_iff_toInt_lt]
  split
  · rw [max_eq_right (by omega), BitVec.ofInt_toInt]
  · rw [max_eq_left (by omega), BitVec.ofInt_toInt]

theorem min_toNat {w : Nat} (a b : BitVec w) : min a.toNat b.toNat = (if a.ult b then a else b).toNat := by
  simp only [BitVec.ult_iff_toNat_lt]
  split <;> omega

theorem max_toNat {w : Nat} (a b : BitVec w) : max a.toNat b.toNat = (if a.ult b then b else a).toNat := by
  simp only [BitVec.ult_iff_toNat_lt]
  split <;> omega

theorem abs_toInt {w : Nat} (a : BitVec w) : |a.toInt| = if a.slt 0 then -a.toInt else a.toInt := by
  have hslt : a.slt 0 = true ↔ a.toInt < 0 := by simp [BitVec.slt_iff_toInt_lt]
  rw [if_congr hslt rfl rfl]
  split
  · exact abs_of_neg ‹_›
  · exact abs_of_nonneg (by omega)

theorem exceeds_abs {w : Nat} (hw : 0 < w) (a : BitVec w) : exceeds w |a.toInt| = (a == BitVec.intMin w) := by
  rw [← exceeds_neg hw]
  have := a.le_toInt
  have := a.toInt_lt
  rw [Bool.eq_iff_iff, exceeds_eq_true, exceeds_eq_true]
  obtain h | h := abs_cases a.toInt <;> omega

theorem ofInt_abs {w : Nat} (a : BitVec w) : BitVec.ofInt w |a.toInt| = if a.slt 0 then -a else a := by
  rw [abs_toInt]
  split
  · rw [BitVec.ofInt_neg, BitVec.ofInt_toInt]
  · exact BitVec.ofInt_toInt

/-- Class A without FIX is the exact arithmetic. -/
theorem aluExec_A (o : Op) {e : AluEnv} (hfix : e.fix = false) (ops : List Opd) :
    aluExec o .A e ops = intOp o e (ops.getD 0 noOpd) (ops.getD 1 noOpd) (ops.getD 2 noOpd) := by
  simp [aluExec, hfix]

end Sys2Proof.Machine
end

section
/-! PROOF. The statements of integer arithmetic: sums and differences; products, quotients and extremes. -/

namespace Sys2Proof.Machine

/-- Settles O19: each operation narrows its exact value; for `NEG`, `INC` and `DEC` one operand alone leaves the range. -/
theorem sumResults : Obligations.SumResults := by
  unfold Obligations.SumResults
  intro w a b c e k1 k2 s1 s2 hw he hsat hfix wd A B z out st
  have hpos : 0 < w := by omega
  have hA : A.s = a.toInt := opd_s_eq_toInt hw a k1 s1
  have hB : B.s = b.toInt := opd_s_eq_toInt hw b k2 s2
  have hxA : A.x w = a.toNat := opd_x_eq_toNat hw a k1 s1
  have hxB : B.x w = b.toNat := opd_x_eq_toNat hw b k2 s2
  simp only [aluExec_A _ hfix, intOp, List.getD_cons_zero, List.getD_cons_succ, hA, hB, hxA, hxB, he, ge_iff_le]
  refine ⟨?add, ?adc, ?sub, ?sbb, ?neg, ?inc, ?decr⟩
  case add => exact intRes_unsaturated he hsat (by simp only [BitVec.ofInt_add, BitVec.ofInt_toInt]) rfl _
  case adc => exact intRes_unsaturated he hsat (by simp only [BitVec.ofInt_add, BitVec.ofInt_toInt, BitVec.ofInt_natCast, z]) rfl _
  case sub => exact intRes_unsaturated he hsat (by simp only [ofInt_sub, BitVec.ofInt_toInt]) rfl _
  case sbb => exact intRes_unsaturated he hsat (by simp only [ofInt_sub, BitVec.ofInt_toInt, BitVec.ofInt_natCast, z]) rfl _
  case neg =>
    rw [intRes_unsaturated he hsat (by rw [BitVec.ofInt_neg, BitVec.ofInt_toInt]) (exceeds_neg hpos a)]
    simp only [st, toInt_eq_zero, decide_not, bne, beq_eq_decide, ne_eq]
  case inc =>
    rw [intRes_unsaturated he hsat (r := a + 1) (by simp [BitVec.ofInt_add, BitVec.ofInt_toInt]) (exceeds_add_one a)]
    simp only [st, toInt_eq_neg_one hpos, beq_eq_decide]
  case decr =>
    rw [intRes_unsaturated he hsat (r := a - 1) (by simp [ofInt_sub, BitVec.ofInt_toInt]) (exceeds_sub_one hpos a)]
    simp only [st, toInt_eq_zero, beq_eq_decide]

/-- Settles O20: a product is exact before it is narrowed, so its high part is the exact one; a quotient truncates toward zero and
leaves the range in one case. -/
theorem productResults : Obligations.ProductResults := by
  unfold Obligations.ProductResults
  intro w a b c e k1 k2 k3 s1 s2 s3 hw he hsat hfix wd A B C out st
  have hpos : 0 < w := by omega
  have hA : A.s = a.toInt := opd_s_eq_toInt hw a k1 s1
  have hB : B.s = b.toInt := opd_s_eq_toInt hw b k2 s2
  have hC : C.s = c.toInt := opd_s_eq_toInt hw c k3 s3
  have huA : A.u = a.toNat := opd_u_eq_toNat hw a k1 s1
  have huB : B.u = b.toNat := opd_u_eq_toNat hw b k2 s2
  have hxA : A.x w = a.toNat := opd_x_eq_toNat hw a k1 s1
  simp only [aluExec_A _ hfix, intOp, List.getD_cons_zero, List.getD_cons_succ, hA, hB, hC, huA, huB, hxA, he, word,
    wrap_eq_toNat_ofInt]
  refine ⟨?mul, ?mulh, ?mulhu, ?mac, ?msub, ?div, ?divu, ?min, ?max, ?minu, ?maxu, ?abs⟩
  case mul => exact intRes_unsaturated he hsat (by simp only [BitVec.ofInt_mul, BitVec.ofInt_toInt]) rfl _
  case mulh => rw [ofInt_mul_div_eq_extract (by omega)]
  case mulhu => rw [mul_div_eq_extract]
  case mac => exact intRes_unsaturated he hsat (by simp only [BitVec.ofInt_add, BitVec.ofInt_mul, BitVec.ofInt_toInt]) rfl _
  case msub => exact intRes_unsaturated he hsat (by simp only [ofInt_sub, BitVec.ofInt_mul, BitVec.ofInt_toInt]) rfl _
  case div =>
    simp only [toInt_eq_zero, narrow_unsaturated, ofInt_tdiv, ofInt_tmod, exceeds_tdiv hpos, st]
  case divu =>
    simp only [BitVec.toNat_eq (y := (0 : BitVec w)), BitVec.toNat_udiv, BitVec.toNat_umod, st]
    rfl
  case min => rw [ofInt_min]
  case max => rw [ofInt_max]
  case minu => rw [min_toNat]
  case maxu => rw [max_toNat]
  case abs => exact intRes_unsaturated he hsat (ofInt_abs a) (exceeds_abs hpos a) _

end Sys2Proof.Machine
end

section
/-! SUPPORT. Shifts, rotates, the hash and logic on bit vectors (R184, R185, R187). -/

namespace Sys2Proof.Machine

theorem bit_toNat {w : Nat} (a : BitVec w) (i : Nat) : bit a.toNat i = a.getLsbD i := BitVec.testBit_toNat a

/-! ### Shifts -/

theorem ofInt_mul_eq_shiftLeft {w : Nat} (a : BitVec w) (n : Nat) : BitVec.ofInt w (a.toInt * 2 ^ n) = a <<< n := by
  have hpow : BitVec.ofInt w (2 ^ n) = BitVec.twoPow w n := by
    have h := BitVec.ofInt_natCast w (2 ^ n)
    push_cast at h
    rw [h, BitVec.toNat_eq, BitVec.toNat_ofNat, BitVec.toNat_twoPow]
  rw [BitVec.ofInt_mul, BitVec.ofInt_toInt, hpow, ← BitVec.shiftLeft_eq_mul_twoPow]

theorem ofInt_div_eq_sshiftRight {w : Nat} (a : BitVec w) (n : Nat) : BitVec.ofInt w (a.toInt / 2 ^ n) = a.sshiftRight n := by
  rw [BitVec.sshiftRight_eq, Int.shiftRight_eq_div_pow]
  push_cast
  rfl

theorem ofInt_greatest (w : Nat) : BitVec.ofInt w (2 ^ (w - 1) - 1) = BitVec.intMax w := by
  rw [← BitVec.toInt_intMax, BitVec.ofInt_toInt]

/-- The symmetric smallest value of R162 is one above the least. -/
theorem ofInt_symmetric_least {w : Nat} (hw : 0 < w) : BitVec.ofInt w (-(2 ^ (w - 1) - 1)) = BitVec.intMin w + 1 := by
  have h : -((2 : Int) ^ (w - 1) - 1) = (BitVec.intMin w).toInt + 1 := by
    rw [BitVec.toInt_intMin_of_pos hw]
    omega
  rw [h, BitVec.ofInt_add, BitVec.ofInt_toInt]
  simp

/-- What the model calls `V` of a shift to the left. -/
theorem shl_lost {w : Nat} (a : BitVec w) (n : Nat) :
    (decide (n ≠ 0) && !inRange w (a.toInt * ((2 ^ n : Nat) : Int))) = (decide (0 < n) && exceeds w (a.toInt * 2 ^ n)) := by
  rw [not_inRange, decide_eq_decide.2 Nat.pos_iff_ne_zero.symm]
  push_cast
  rfl

/-! ### Rotates -/

/-- The high part of a number moved up, with a rest below it: the two parts share no bit. -/
theorem mul_two_pow_add_mod {x r k w : Nat} (hr : r < 2 ^ k) (hkw : k ≤ w) :
    (x * 2 ^ k + r) % 2 ^ w = (x <<< k) % 2 ^ w ||| r := by
  rw [← Nat.shiftLeft_eq, Nat.shiftLeft_add_eq_or_of_lt hr, Nat.or_mod_two_pow,
    Nat.mod_eq_of_lt (hr.trans_le (Nat.pow_le_pow_right two_pos hkw))]

theorem toNat_div_lt {w k : Nat} (a : BitVec w) (hk : k ≤ w) : a.toNat / 2 ^ (w - k) < 2 ^ k := by
  refine Nat.div_lt_of_lt_mul ?_
  rw [← pow_add, Nat.sub_add_cancel hk]
  exact a.isLt

theorem rotateLeft_eq_sum_mod {w k : Nat} (a : BitVec w) (hk : k < w) :
    (a.toNat * 2 ^ k + a.toNat / 2 ^ (w - k)) % 2 ^ w = (a.rotateLeft k).toNat := by
  rw [mul_two_pow_add_mod (toNat_div_lt a hk.le) hk.le, BitVec.toNat_rotateLeft, Nat.mod_eq_of_lt hk,
    Nat.shiftRight_eq_div_pow]

theorem rotateRight_eq_sum_mod {w k : Nat} (a : BitVec w) (hk : k < w) :
    (a.toNat / 2 ^ k + a.toNat * 2 ^ (w - k)) % 2 ^ w = (a.rotateRight k).toNat := by
  have hlt : a.toNat / 2 ^ k < 2 ^ (w - k) := by
    have h := toNat_div_lt a (Nat.sub_le w k)
    rwa [Nat.sub_sub_self hk.le] at h
  rw [Nat.add_comm, mul_two_pow_add_mod hlt (Nat.sub_le w k), BitVec.toNat_rotateRight, Nat.mod_eq_of_lt hk,
    Nat.shiftRight_eq_div_pow, Nat.lor_comm]

/-! ### The hash -/

theorem toNat_mul_ofNat {w m : Nat} (hm : m < 2 ^ w) (x : BitVec w) : (x * BitVec.ofNat w m).toNat = x.toNat * m % 2 ^ w := by
  rw [BitVec.toNat_mul, BitVec.toNat_ofNat, Nat.mod_eq_of_lt hm]

/-- The steps of `HASH` (R187) after the first, on words. -/
def hashMix (x : BitVec 40) : BitVec 40 :=
  let x1 := x ^^^ (x >>> 19)
  let x2 := x1 * 0xB529E374C1#40
  let x3 := x2 ^^^ (x2 >>> 21)
  let x4 := x3 * 0x9F6B2D1E57#40
  x4 ^^^ (x4 >>> 17)

theorem hash40_toNat (a b : BitVec 40) : hash40 a.toNat b.toNat = (hashMix (a ^^^ b)).toNat := by
  simp only [hashMix, hash40, BitVec.toNat_xor, BitVec.toNat_ushiftRight, Nat.shiftRight_eq_div_pow,
    toNat_mul_ofNat (w := 40) (m := 0xB529E374C1) (by norm_num),
    toNat_mul_ofNat (w := 40) (m := 0x9F6B2D1E57) (by norm_num)]

/-! ### Logic -/

theorem ones_xor_toNat {w : Nat} (a : BitVec w) : (2 ^ w - 1) ^^^ a.toNat = (~~~a).toNat := by
  rw [← BitVec.toNat_allOnes, ← BitVec.toNat_xor, BitVec.allOnes_xor]

end Sys2Proof.Machine
end

section
/-! PROOF. The statements of logic, shifts and `HASH`. -/

namespace Sys2Proof.Machine

/-- Settles O21: on operands of the width the model's numbers are the bit vectors; a bit operation reads bit 0. -/
theorem logicResults : Obligations.LogicResults := by
  unfold Obligations.LogicResults
  refine ⟨?words, ?bits⟩
  case words =>
    intro w a b e k1 k2 s1 s2 hw he A B
    have hA : A.u = a.toNat := opd_u_eq_toNat hw a k1 s1
    have hB : B.u = b.toNat := opd_u_eq_toNat hw b k2 s2
    simp only [aluExec, logicOp, List.getD_cons_zero, List.getD_cons_succ, he, hA, hB, word]
    refine ⟨?and, ?or, ?xor, ?not, ?andn, ?orn, ?xnor⟩
    case and => rw [BitVec.toNat_and]
    case or => rw [BitVec.toNat_or]
    case xor => rw [BitVec.toNat_xor]
    case not => rw [ones_xor_toNat]
    case andn => rw [ones_xor_toNat, BitVec.toNat_and]
    case orn => rw [ones_xor_toNat, BitVec.toNat_or]
    case xnor => rw [← BitVec.toNat_xor, ones_xor_toNat]
  case bits =>
    intro a b e
    exact ⟨rfl, rfl, rfl, rfl⟩

/-- Settles O22: a shift multiplies or divides the exact value by 2^n; a rotate splits it into two parts that share no bit. -/
theorem shiftResults : Obligations.ShiftResults := by
  unfold Obligations.ShiftResults
  intro w a b e k1 s1 hw he A n lost st
  have hpos : 0 < w := by omega
  have hmod : n % w < w := Nat.mod_lt _ hpos
  have hs : A.s = a.toInt := opd_s_eq_toInt hw a k1 s1
  have hx : A.x w = a.toNat := opd_x_eq_toNat hw a k1 s1
  have hlost : (decide (n ≠ 0) && !inRange w (a.toInt * ((2 ^ n : Nat) : Int))) = (decide (0 < n) && lost) := shl_lost a n
  have hb : b.v % 256 = n := rfl
  simp only [aluExec, shiftOp, List.getD_cons_zero, List.getD_cons_succ, he, hs, hx, hb, word, wrap_eq_toNat_ofInt, bit_toNat]
  refine ⟨?shl, ?shlSat, ?shr, ?sar, ?rol, ?ror⟩
  case shl =>
    intro hsat
    simp only [hsat, hlost, Bool.and_false, Bool.false_and, Bool.false_eq_true, if_false]
    push_cast
    rw [ofInt_mul_eq_shiftLeft]
    rfl
  case shlSat =>
    rintro hsat ⟨hn, hl⟩
    simp only [hsat, hlost, hl, hn, decide_true, Bool.and_self, if_true, apply_ite (BitVec.ofInt w), ofInt_greatest,
      ofInt_symmetric_least hpos]
    simp [st, Nat.one_le_iff_ne_zero, hn.ne']
  case shr =>
    rw [BitVec.toNat_ushiftRight, Nat.shiftRight_eq_div_pow]
    rfl
  case sar =>
    rw [ofInt_div_eq_sshiftRight, ← BitVec.msb_eq_getLsbD_last]
    obtain hn | hn := n.eq_zero_or_pos
    · simp [st, hn]
    · simp [st, hn, hn.ne']
  case rol => rw [rotateLeft_eq_sum_mod a hmod]
  case ror => rw [rotateRight_eq_sum_mod a hmod]

/-- Settles O23: the model's arithmetic on numbers is that of words, step by step. -/
theorem hashResult : Obligations.HashResult := by
  unfold Obligations.HashResult
  intro a b e k1 k2 s1 s2 x0 x1 x2 x3 x4
  have h : aluExec .hash .S e [⟨a.toNat, false, k1, s1⟩, ⟨b.toNat, false, k2, s2⟩]
      = word (hash40 (a.toNat % 2 ^ 40) (b.toNat % 2 ^ 40)) 0 := rfl
  rw [h, Nat.mod_eq_of_lt a.isLt, Nat.mod_eq_of_lt b.isLt, hash40_toNat]
  rfl

end Sys2Proof.Machine
end

section
/-! SUPPORT. Compares (R190), bit fields and counts (R186), digits and reversals (R189) on words. -/

namespace Sys2Proof.Machine

/-! ### Compares -/

theorem toInt_beq {w : Nat} (a b : BitVec w) : (a.toInt == b.toInt) = (a == b) := by
  rw [Bool.eq_iff_iff, beq_iff_eq, beq_iff_eq, BitVec.toInt_inj]

/-- A compare answers its condition as a word at 0x40–0x47 and as a bit at 0x50–0x57. -/
theorem cmpRes_word_and_bit {p q : Bool} (h : p = q) :
    cmpRes false p 0 = .ok (b2n q) none 0 false ∧ cmpRes true p 0 = .ok (b2n q) none 0 true := by
  rw [h]
  exact ⟨rfl, rfl⟩

theorem toNat_and_bne_zero {w : Nat} (a b : BitVec w) : (a.toNat &&& b.toNat != 0) = (a &&& b != 0) := by
  rw [← BitVec.toNat_and, Bool.eq_iff_iff, bne_iff_ne, bne_iff_ne, ne_eq, ne_eq, BitVec.toNat_eq (y := (0 : BitVec w))]
  simp

/-! ### Counts -/

theorem clz_toNat {w : Nat} (hw : 0 < w) (a : BitVec w) :
    (if a.toNat = 0 then w else w - 1 - Nat.log2 a.toNat) = a.clz.toNat := by
  have hcast : ((w : Nat) : BitVec w).toNat = w := by
    rw [BitVec.natCast_eq_ofNat, BitVec.toNat_ofNat, Nat.mod_eq_of_lt Nat.lt_two_pow_self]
  split
  case isTrue h =>
    have ha : a = 0#w := BitVec.eq_of_toNat_eq (by simpa using h)
    rw [BitVec.clz_eq_iff_eq_zero.2 ha, hcast]
  case isFalse h =>
    have ha : a ≠ 0#w := fun h0 => h (by simp [h0])
    have hlt := BitVec.lt_def.1 (BitVec.clz_lt_iff_ne_zero.2 ha)
    rw [hcast] at hlt
    have hhi : a.toNat < 2 ^ (w - 1 - a.clz.toNat + 1) := by
      rw [show w - 1 - a.clz.toNat + 1 = w - a.clz.toNat by omega]
      exact BitVec.toNat_lt_two_pow_sub_clz
    rw [(Nat.log2_eq_iff h).2 ⟨BitVec.two_pow_sub_clz_le_toNat_of_ne_zero hw ha, hhi⟩]
    omega

/-- The lowest one of a number, when it is among the places looked at. -/
theorem ctzNat_eq {k : Nat} : ∀ {n v : Nat}, k < n → v.testBit k = true → (∀ i < k, v.testBit i = false) →
    ctzNat n v = k := by
  induction k with
  | zero =>
    intro n v hn hk hlow
    obtain ⟨n, rfl⟩ := Nat.exists_eq_succ_of_ne_zero hn.ne'
    rw [ctzNat, if_pos (by simpa using hk)]
  | succ k ih =>
    intro n v hn hk hlow
    obtain ⟨n, rfl⟩ := Nat.exists_eq_succ_of_ne_zero (Nat.ne_zero_of_lt hn)
    have hodd : ¬ v % 2 = 1 := by simpa using hlow 0 (by omega)
    rw [Nat.testBit_add_one] at hk
    rw [ctzNat, if_neg hodd, ih (by omega) hk fun i hi => by rw [← Nat.testBit_add_one]; exact hlow _ (by omega)]
    omega

theorem ctzNat_toNat {w : Nat} {a : BitVec w} (ha : a ≠ 0#w) : ctzNat w a.toNat = a.reverse.clz.toNat := by
  rw [← BitVec.ctz_eq_reverse_clz]
  have hone : a.getLsbD a.ctz.toNat = true := BitVec.getLsbD_true_ctz_of_ne_zero ha
  exact ctzNat_eq (BitVec.lt_of_getLsbD hone) hone fun i hi => BitVec.getLsbD_false_of_lt_ctz hi

theorem popcount_eq_length (v : Nat) : ∀ n : Nat, popcount n v = ((List.range n).filter fun i => v.testBit i).length
  | 0 => rfl
  | n + 1 => by
    rw [List.range_succ, List.filter_append, List.length_append, popcount, popcount_eq_length v n]
    cases h : v.testBit n <;> simp [b2n, h]

/-! ### Fields -/

theorem bits_5_0 (f : Nat) : bits f 5 0 = f % 64 := by simp [bits]

theorem bits_13_8 (f : Nat) : bits f 13 8 = f / 256 % 64 := by simp [bits]

theorem div_mod_eq_extract {w : Nat} (a : BitVec w) (lo n : Nat) : a.toNat / 2 ^ lo % 2 ^ n = (a.extractLsb' lo n).toNat := by
  rw [BitVec.extractLsb'_toNat, Nat.shiftRight_eq_div_pow]

theorem mod_eq_extract {w : Nat} (a : BitVec w) (n : Nat) : a.toNat % 2 ^ n = (a.extractLsb' 0 n).toNat := by
  rw [← div_mod_eq_extract, pow_zero, Nat.div_one]

/-- The sign extension of the model is that of the low bits as a bit vector. -/
theorem sext40_eq_signExtend {n x : Nat} {v : BitVec n} (hn : n ≤ 40) (h : x % 2 ^ n = v.toNat) :
    sext40 n x = (v.signExtend 40).toNat := by
  rw [sext40, h, BitVec.toNat_signExtend, BitVec.toNat_setWidth_of_le hn, BitVec.testBit_toNat, ← BitVec.msb_eq_getLsbD_last]
  split <;> omega

/-- A field replaced: the bits above it, the new field and the bits below it. -/
theorem insert_field {w lo n : Nat} (h : lo + n ≤ w) (a b : BitVec w) :
    a.toNat / 2 ^ (lo + n) * 2 ^ (lo + n) + (b.toNat % 2 ^ n) * 2 ^ lo + a.toNat % 2 ^ lo
      = ((a &&& ~~~((BitVec.allOnes n).zeroExtend w <<< lo)) ||| ((b.extractLsb' 0 n).zeroExtend w <<< lo)).toNat := by
  have hparts : a.toNat / 2 ^ (lo + n) * 2 ^ (lo + n) + (b.toNat % 2 ^ n) * 2 ^ lo + a.toNat % 2 ^ lo
      = 2 ^ lo * (2 ^ n * (a.toNat / 2 ^ (lo + n)) + b.toNat % 2 ^ n) + a.toNat % 2 ^ lo := by ring
  refine Nat.eq_of_testBit_eq fun i => ?_
  rw [hparts, Nat.testBit_two_pow_mul_add _ (Nat.mod_lt _ (Nat.two_pow_pos lo)),
    Nat.testBit_two_pow_mul_add _ (Nat.mod_lt _ (Nat.two_pow_pos n)), BitVec.testBit_toNat]
  simp only [Nat.testBit_mod_two_pow, Nat.testBit_div_two_pow, BitVec.testBit_toNat, BitVec.getLsbD_or, BitVec.getLsbD_and,
    BitVec.getLsbD_not, BitVec.getLsbD_shiftLeft, BitVec.zeroExtend_eq_setWidth, BitVec.getLsbD_setWidth,
    BitVec.getLsbD_allOnes, BitVec.getLsbD_extractLsb', Nat.zero_add]
  obtain hw | hw := Nat.lt_or_ge i w
  case inr =>
    have hlo : ¬ i < lo := by omega
    have hn : ¬ i - lo < n := by omega
    simp [hlo, hn, hw.not_gt, a.getLsbD_of_ge _ (show w ≤ i - lo - n + (lo + n) by omega), a.getLsbD_of_ge i hw]
  by_cases hlo : i < lo
  · simp [hw, hlo]
  by_cases hn : i - lo < n
  · simp [hw, hlo, hn, show i - lo < w by omega]
  · simp [hw, hlo, hn, show i - lo - n + (lo + n) = i by omega]

/-! ### Reversals -/

theorem testBit_bitRev : ∀ v n i : Nat, (bitRev n v).testBit i = (decide (i < n) && v.testBit (n - 1 - i))
  | _, 0, i => by simp [bitRev]
  | v, n + 1, i => by
    have hlt : bitRev n (v / 2) < 2 ^ n := Nat.lt_pow_two_of_testBit _ fun i hi => by
      rw [testBit_bitRev (v / 2) n i, decide_eq_false (by omega), Bool.false_and]
    rw [bitRev, Nat.mul_comm, Nat.testBit_two_pow_mul_add _ hlt, testBit_bitRev (v / 2) n i]
    split
    · rw [← Nat.testBit_add_one, decide_eq_true ‹i < n›, decide_eq_true (by omega : i < n + 1)]
      congr 2
      omega
    · obtain rfl | h := Nat.eq_or_lt_of_not_lt ‹¬ i < n›
      · simp
      · rw [decide_eq_false (by omega : ¬ i < n + 1), Bool.false_and]
        exact Nat.testBit_lt_two_pow ((Nat.mod_lt v two_pos).trans_le (Nat.le_self_pow (by omega) 2))

theorem bitRev_toNat {w : Nat} (a : BitVec w) : bitRev w a.toNat = a.reverse.toNat := by
  refine Nat.eq_of_testBit_eq fun i => ?_
  rw [testBit_bitRev, BitVec.testBit_toNat, BitVec.testBit_toNat, BitVec.getLsbD_reverse, BitVec.getMsbD_eq_getLsbD]

theorem octet_toNat {w : Nat} (a : BitVec w) (i : Nat) : octet a.toNat i = (a.extractLsb' (8 * i) 8).toNat :=
  div_mod_eq_extract a (8 * i) 8

/-! ### Decimal digits -/

theorem digits10_length : ∀ v n : Nat, (digits10 n v).length = n
  | _, 0 => rfl
  | v, n + 1 => by rw [digits10, List.length_cons, digits10_length (v / 10) n]

theorem digits10_lt {d : Nat} : ∀ {n v : Nat}, d ∈ digits10 n v → d < 10
  | n + 1, v, h => by
    obtain rfl | h := List.mem_cons.1 h
    · exact Nat.mod_lt _ (by omega)
    · exact digits10_lt h

theorem ofDigits_digits10 : ∀ {n v : Nat}, v < 10 ^ n → Nat.ofDigits 10 (digits10 n v) = v
  | 0, v, h => by simp_all [digits10]
  | n + 1, v, h => by
    rw [digits10, Nat.ofDigits_cons, ofDigits_digits10 (n := n) (by omega)]
    exact Nat.mod_add_div v 10

theorem foldr_eq_ofDigits (b : Nat) (l : List Nat) : l.foldr (fun d r => d + b * r) 0 = Nat.ofDigits b l := by
  rw [Nat.ofDigits_eq_foldr]
  rfl

theorem bits_nibble (y i : Nat) : bits y (4 * i + 3) (4 * i) = y / 16 ^ i % 16 := by
  rw [bits, show 4 * i + 3 + 1 - 4 * i = 4 by omega, pow_mul]
  rfl

/-- The nibbles of packed digits are the digits. -/
theorem nibbles_ofDigits : ∀ ds : List Nat, (∀ d ∈ ds, d < 16) →
    (List.range ds.length).map (fun i => bits (Nat.ofDigits 16 ds) (4 * i + 3) (4 * i)) = ds
  | [], _ => rfl
  | d :: ds, h => by
    have hd : d < 16 := h d List.mem_cons_self
    have ih := nibbles_ofDigits ds fun d hd => h d (List.mem_cons_of_mem _ hd)
    rw [List.length_cons, List.range_succ_eq_map, List.map_cons, List.map_map, Nat.ofDigits_cons]
    congr 1
    · rw [bits_nibble, pow_zero]
      omega
    · refine Eq.trans (List.map_congr_left fun i _ => ?_) ih
      rw [Function.comp_apply, bits_nibble, bits_nibble, pow_succ', ← Nat.div_div_eq_div_mul,
        show (d + 16 * Nat.ofDigits 16 ds) / 16 = Nat.ofDigits 16 ds by omega]

theorem aluExec_i2bcd {x : Nat} (hx : x ≤ 9999999999) (e : AluEnv) (k s : Nat) :
    aluExec .i2bcd .V e [⟨x, false, k, s⟩] = word (Nat.ofDigits 16 (digits10 10 x)) 0 := by
  have hmod : x % 2 ^ 40 = x := Nat.mod_eq_of_lt (by omega)
  simp only [aluExec, convOp, List.getD_cons_zero, hmod, hx, if_true, foldr_eq_ofDigits]

theorem aluExec_bcd2i {ds : List Nat} (hlen : ds.length = 10) (hdigit : ∀ d ∈ ds, d < 10) (e : AluEnv) (k s : Nat) :
    aluExec .bcd2i .V e [⟨Nat.ofDigits 16 ds, false, k, s⟩] = word (Nat.ofDigits 10 ds) 0 := by
  have hnibble : ∀ d ∈ ds, d < 16 := fun d hd => (hdigit d hd).trans (by omega)
  have hmod : Nat.ofDigits 16 ds % 2 ^ 40 = Nat.ofDigits 16 ds := by
    have hlt := Nat.ofDigits_lt_base_pow_length (by omega) hnibble
    rw [hlen] at hlt
    exact Nat.mod_eq_of_lt (by omega)
  have hds := nibbles_ofDigits ds hnibble
  rw [hlen] at hds
  have hall : ds.all (fun d => decide (d ≤ 9)) = true := by
    simpa [Nat.lt_succ_iff] using hdigit
  simp only [aluExec, convOp, List.getD_cons_zero, hmod, hds, hall, if_true, foldr_eq_ofDigits]

end Sys2Proof.Machine
end

section
/-! PROOF. The statements of compares, bit fields, counts and conversions. -/

namespace Sys2Proof.Machine

/-- Settles O24: on operands of the width the views of the model order and compare as the bit vectors do, and `CBIT` looks at
the value first and at the `STATUS` beyond it. -/
theorem compareResults : Obligations.CompareResults := by
  unfold Obligations.CompareResults
  refine ⟨?ops, ?status⟩
  case ops =>
    intro w a b e k1 k2 s1 s2 hw he A B p wordOps bitOps
    have hsA : A.s = a.toInt := opd_s_eq_toInt hw a k1 s1
    have hsB : B.s = b.toInt := opd_s_eq_toInt hw b k2 s2
    have huA : A.u = a.toNat := opd_u_eq_toNat hw a k1 s1
    have huB : B.u = b.toNat := opd_u_eq_toNat hw b k2 s2
    have hxA : A.x w = a.toNat := opd_x_eq_toNat hw a k1 s1
    have hxB : B.x w = b.toNat := opd_x_eq_toNat hw b k2 s2
    refine ⟨?compares, ?cbit⟩
    case compares =>
      have heq : (A.s == B.s) = (a == b) := by rw [hsA, hsB, toInt_beq]
      have hslt : decide (A.s < B.s) = a.slt b := by rw [hsA, hsB, BitVec.slt_eq_decide]
      have hsle : decide (A.s ≤ B.s) = a.sle b := by rw [hsA, hsB, BitVec.sle_eq_decide]
      have hult : decide (A.u < B.u) = a.ult b := by rw [huA, huB, BitVec.ult_eq_decide]
      have hule : decide (A.u ≤ B.u) = a.ule b := by rw [huA, huB, BitVec.ule_eq_decide]
      have htst : (A.x e.w &&& B.x e.w != 0) = (a &&& b != 0) := by rw [he, hxA, hxB, toNat_and_bne_zero]
      intro i
      match i with
      | 0 => exact cmpRes_word_and_bit heq
      | 1 => exact cmpRes_word_and_bit (congrArg Bool.not heq)
      | 2 => exact cmpRes_word_and_bit hslt
      | 3 => exact cmpRes_word_and_bit hsle
      | 4 => exact cmpRes_word_and_bit hult
      | 5 => exact cmpRes_word_and_bit hule
      | 6 => exact cmpRes_word_and_bit htst
    case cbit =>
      intro n i r
      simp only [aluExec, compareOp, cmpRes, List.getD_cons_zero, List.getD_cons_succ, he, hxA, bit_toNat]
      exact ⟨rfl, rfl⟩
  case status =>
    intro x fr r o
    unfold FireCtx.sourceOp
    split
    · split <;> rfl
    all_goals rfl

/-- Settles O25: what lies between two places of a number is an extract of its bit vector; the digits of a number are its nibbles
when packed. -/
theorem fieldResults : Obligations.FieldResults := by
  unfold Obligations.FieldResults
  refine ⟨?words, ?bcd⟩
  case words =>
    intro a b f e k1 k2 k3 s1 s2 s3 A B F lo wd
    simp only [aluExec, fieldOp, convOp, List.getD_cons_zero, List.getD_cons_succ, A, B, F, Nat.mod_eq_of_lt a.isLt, bits_5_0,
      bits_13_8, Bool.and_eq_true, decide_eq_true_eq, word]
    refine ⟨?clz, ?ctz, ?popc, ?bext, ?bextu, ?bins, ?sext, ?zext, ?brev, ?bswap⟩
    case clz => rw [← clz_toNat (w := 40) (by omega)]
    case ctz =>
      by_cases ha : a = 0#40
      · simp [ha]
      · rw [if_neg (by simpa [BitVec.toNat_eq] using ha), ctzNat_toNat ha]
        exact congrArg (AluOut.ok · none 0 false) (if_neg ha).symm
    case popc =>
      rw [popcount_eq_length]
      rfl
    case bext =>
      split
      · rw [sext40_eq_signExtend (by omega) (div_mod_eq_extract a lo wd)]
      · rfl
    case bextu => rw [div_mod_eq_extract]; rfl
    case bins =>
      split
      · rw [insert_field (by omega)]
      · rfl
    case sext =>
      split
      · rw [sext40_eq_signExtend (by omega) (mod_eq_extract a lo)]
      · rfl
    case zext => rw [mod_eq_extract]; rfl
    case brev => rw [bitRev_toNat]
    case bswap => simp only [octet_toNat]
  case bcd =>
    intro x e k s hx
    refine ⟨Nat.ofDigits 16 (digits10 10 x), aluExec_i2bcd hx e k s, ?_⟩
    rw [aluExec_bcd2i (digits10_length x 10) (fun d => digits10_lt) e k s, ofDigits_digits10 (by omega)]
    rfl

end Sys2Proof.Machine
end

section
/-! SUPPORT. The timers of a session (R246): when its keepalive timer leaves it alone, and what the expiry of its retransmission
timer does to it and leaves of the block. -/

namespace Sys2Proof.Machine

/-! ### Segments that leave -/

@[simp] theorem fused_sess (d w : Dev) (n : Nat) : (d.fused w).sess n = d.sess n := rfl

@[simp] theorem emitOf_sess (d : Dev) (x : Ses) (l : List Seg) (n : Nat) : (d.emitOf x l).sess n = d.sess n := by
  rw [Dev.emitOf, emit_eq]
  rfl

/-- Where a command sets a session and sends for it, it changes the session table and the segments that have left. -/
theorem setSes_emitOf_fused (d : Dev) (n : Nat) (x y : Ses) (l : List Seg) :
    let e := ((d.setSes n x).emitOf y l).fused d
    e = { d with ses := { d.ses with ses := e.ses.ses, segs := e.ses.segs } } := by
  rw [Dev.emitOf, emit_eq]
  rfl

/-! ### The keepalive timer -/

/-- The keepalive timer does nothing exactly where it is off, the connection is not synchronised or the interval `k` s since the
last segment has not passed. -/
theorem keepalive_idle_iff (k up : Nat) (t : Tcb) :
    (k = 0 || !t.conn || t.synSent || up < t.lastRx + k * 1000000000)
      ↔ ¬ (0 < k ∧ t.conn = true ∧ t.synSent = false ∧ t.lastRx + k * 1000000000 ≤ up) := by
  simp only [Bool.or_eq_true, decide_eq_true_eq, Bool.not_eq_true', not_and_or, Nat.pos_iff_ne_zero, not_not,
    Bool.not_eq_true, Bool.not_eq_false, not_le, or_assoc]

/-! ### The retransmission timer -/

/-- A session has nothing to retransmit: its SYN is acknowledged, nothing is in flight and nothing waits. -/
def Ses.quiet (x : Ses) : Prop := x.tcb.synSent = false ∧ x.tcb.flight = 0 ∧ x.sndbuf = []

/-- The timer of a session that has nothing to retransmit ends. -/
theorem onRto_quiet {x : Ses} (h : x.quiet) (now mss : Nat) :
    x.onRto now mss = ({ x with tcb := { x.tcb with timer := none } }, []) := by
  obtain ⟨hsyn, hflight, hbuf⟩ := h
  simp [Ses.onRto, hsyn, hflight, hbuf]

/-- The timer of any other session starts anew with the timeout doubled within its limits, whichever of the SYN, a probe and the
first unacknowledged segment is sent; nothing but the connection's record changes. -/
theorem onRto_backs_off {x : Ses} (h : ¬ x.quiet) (now mss : Nat) :
    ∃ (t : Tcb) (l : List Seg), x.onRto now mss = ({ x with tcb := t }, l)
      ∧ t.rto = rtoClamp (2 * x.tcb.rto) ∧ t.timer = some (now + t.rto) := by
  unfold Ses.onRto
  by_cases hsyn : x.tcb.synSent = true
  · rw [if_pos hsyn]
    exact ⟨_, _, rfl, rfl, rfl⟩
  have hbusy : ¬ (decide (x.tcb.flight = 0) && x.sndbuf.isEmpty) = true := by
    intro hq
    rw [Bool.and_eq_true, decide_eq_true_eq, List.isEmpty_iff] at hq
    exact h ⟨Bool.eq_false_iff.mpr hsyn, hq⟩
  rw [if_neg hsyn, if_neg hbusy]
  split
  · exact ⟨_, _, rfl, rfl, rfl⟩
  · exact ⟨_, _, rfl, rfl, rfl⟩

theorem rtoExpired_none {d : Dev} {n : Nat} (h : (d.sess n).tcb.timer = none) : d.rtoExpired n = d := by
  simp only [Dev.rtoExpired, h]

theorem rtoExpired_early {d : Dev} {n t : Nat} (h : (d.sess n).tcb.timer = some t) (ht : ¬ t ≤ d.up) :
    d.rtoExpired n = d := by
  simp only [Dev.rtoExpired, h, if_pos (not_le.mp ht)]

/-- The expiry sets the session as `Ses.onRto` has it, and sends what that sends. -/
theorem rtoExpired_due {d : Dev} {n t : Nat} (h : (d.sess n).tcb.timer = some t) (ht : t ≤ d.up) :
    d.rtoExpired n = (d.setSes n ((d.sess n).onRto d.up (d.sesMss (d.sess n))).1).emitOf (d.sess n)
      ((d.sess n).onRto d.up (d.sesMss (d.sess n))).2 := by
  simp only [Dev.rtoExpired, h, if_neg (not_lt.mpr ht)]

end Sys2Proof.Machine
end

section
/-! PROOF. The statements of message ingress: the timers of a session, how it opens and closes, what it receives. -/

namespace Sys2Proof.Machine

/-- Settles O26: each timer acts in its state and from its time on, as R245 and R246 give it. At the expiry of the retransmission
timer a session that has nothing to retransmit is told from one that backs off. -/
theorem sessionTimers : Obligations.SessionTimers := by
  unfold Obligations.SessionTimers
  refine ⟨?connect, ?closing, ?handshake, ?backoff, ?keepalive, ?retransmit⟩
  case connect => exact fun n s => gives_act (exec_connectTimeout n s) (if_congr (by simp) rfl rfl)
  case closing => exact fun n s => gives_act (exec_closingTimeout n s) (if_congr (by simp) rfl rfl)
  case handshake => exact fun n s => gives_act (exec_handshakeTimeout n s) (if_congr (by simp) rfl rfl)
  case backoff => exact fun n s => gives_act (exec_backoffExpiry n s) (if_congr (by simp) rfl rfl)
  case keepalive =>
    exact fun n s => gives_act (exec_keepaliveTimer n s)
      ((if_congr (keepalive_idle_iff _ _ _) rfl rfl).trans (ite_not _ _ _))
  case retransmit =>
    intro n s
    refine does_act (exec_tcpRetransmitTimeout n s) ?_
    rcases htimer : (s.dev.sess n).tcb.timer with _ | t
    · rw [rtoExpired_none htimer]
      rfl
    by_cases hdue : t ≤ s.dev.up
    · rw [rtoExpired_due htimer hdue]
      simp only [if_pos hdue, fused_sess, emitOf_sess, setSes_sess]
      split
      next hquiet =>
        rw [onRto_quiet hquiet]
        exact ⟨⟨rfl, rfl⟩, rfl, rfl, fun m hm => setSes_sess_ne _ _ _ _ hm, setSes_emitOf_fused _ _ _ _ _⟩
      next hbusy =>
        obtain ⟨y, l, hback, hrto, hstart⟩ := onRto_backs_off hbusy s.dev.up (s.dev.sesMss (s.dev.sess n))
        rw [hback]
        exact ⟨⟨hrto, hstart⟩, rfl, rfl, fun m hm => setSes_sess_ne _ _ _ _ hm, setSes_emitOf_fused _ _ _ _ _⟩
    · rw [rtoExpired_early htimer hdue]
      simp only [if_neg hdue, fused_self]

/-- Settles O27: the two steps of a handshake and the three writes run their effects, which are the ones that R245, R247, R248 and
R252 give; a write runs its effect on `SES_SELECT`'s session under the ward's grant. -/
theorem sessionOpening : Obligations.SessionOpening := by
  unfold Obligations.SessionOpening
  refine ⟨?start, ?complete, ?enable, ?close, ?disable⟩
  case start => exact fun n s => gives_act (exec_handshakeStart n s) rfl
  case complete => exact fun n h s => gives_act (exec_handshakeComplete n h s) rfl
  case enable => exact writes_of (fun _ _ _ d => d.sesEnable d.selSes) exec_sesEnable fun _ _ _ => rfl
  case close => exact writes_of (fun _ _ _ d => (d.sesClose d.selSes).settle) exec_sesOperatorClose fun _ _ _ => rfl
  case disable =>
    exact writes_of (fun _ _ _ d => (d.sesDisable d.selSes).settle.splitSettle) exec_sesDisable fun _ _ _ => rfl

/-- Settles O29: a TLS record is taken by `Dev.tlsRecord` (R249, R302), a message of a shared ring is written by `Dev.sharedWrite`
(R249), a segment is taken by `Dev.segment` (R246); what each clause writes out before `Dev.settle` (R91, R131) is the block that
this effect gives, branch for branch. -/
theorem ingressOctets : Obligations.IngressOctets := by
  unfold Obligations.IngressOctets
  refine ⟨?record, ?message, ?segment⟩
  case record => exact fun n wire rec s => gives_act (exec_tlsRecordReceive n wire rec s) rfl
  case message => exact fun r s => gives_act (exec_sharedRingMessageWrite r s) rfl
  case segment => exact fun port g s => gives_act (exec_tcpSegmentReceive port g s) rfl

end Sys2Proof.Machine
end

section
/-! PROOF. The statements of cryptography: the crypto units, their random number instances, mesh and zeroization; the keyring. -/

namespace Sys2Proof.Machine

/-- Settles O40: each command runs its effect on the block. A slot takes its call by `Dev.slotStart` and ends it by
`Dev.callComplete` (R272, R273), the instances of R290 reseed, stop and restart, the mesh is compared by `Dev.meshCompare` (R291),
a trigger is `Dev.zeroize` and its end `Dev.zeroDone` (R292, R293); what each clause writes out is the block that this effect
gives, branch for branch. The writes of DRBG_RESTART and ZEROIZE run theirs under the ward's grant. -/
theorem cryptoUnitCommands : Obligations.CryptoUnitCommands := by
  unfold Obligations.CryptoUnitCommands
  refine ⟨?slotStart, ?callComplete, ?reseed, ?restart, ?entropyFail, ?zeroize, ?mesh, ?glitch, ?sealDone⟩
  case slotStart => exact fun k s => gives_act (exec_cryptoSlotStart k s) rfl
  case callComplete => exact fun k s => gives_act (exec_cryptoCallComplete k s) rfl
  case reseed => exact fun i s => gives_act (exec_drbgReseed i s) rfl
  case restart => exact writes_of (fun _ _ v d => d.drbgRestart v) exec_drbgRestart fun _ _ _ => rfl
  case entropyFail => exact fun s => gives_act (exec_entropyTestFail s) rfl
  case zeroize => exact writes_of (fun _ _ v d => if v = 1 then d.zeroize 3 else d) exec_zeroize fun _ _ _ => rfl
  case mesh => exact fun ret s => gives_act (exec_meshCompare ret s) rfl
  case glitch => exact fun s => gives_act (exec_glitchDetect s) rfl
  case sealDone => exact fun s => gives_act (exec_zeroizeSealDone s) rfl

/-- Settles O41: each write of the keyring runs its effect, which is the one that R281, R284 and R285 give, under the ward's grant
and on the block as the write finds it. The effect of COMPONENT is left to its dispatch lemma: it reads from that block which
session's key names the component (log 52). -/
theorem keyringCommands : Obligations.KeyringCommands := by
  unfold Obligations.KeyringCommands
  refine ⟨?masterKey, ?keyDelete, ?importKey, ?exportKey, ?component, ?genKey⟩
  case masterKey => exact writes_of (fun _ _ v d => d.masterKey v) exec_masterKeyCmd fun _ _ _ => rfl
  case keyDelete => exact writes_of (fun r ro v d => d.keyDelete v r.sess ro) exec_keyDelete fun _ _ _ => rfl
  case importKey => exact writes_of (fun r ro v d => d.importKey v r.sess ro) exec_importCmd fun _ _ _ => rfl
  case exportKey => exact writes_of (fun r ro v d => d.exportKey v r.sess ro) exec_exportCmd fun _ _ _ => rfl
  case component => exact writes_of _ exec_component fun _ _ _ => rfl
  case genKey => exact writes_of (fun r ro v d => d.genKey v r.sess ro) exec_genCmd fun _ _ _ => rfl

end Sys2Proof.Machine
end

section
/-! SUPPORT. Steps of the block: what a waiting command becomes, and what a run of steps keeps. -/

namespace Sys2Proof.Machine

/-- A step on a waiting command is that command on the queue's rest. -/
theorem step_of_head {c : Instr} {s : State} (h : s.pending.head? = some c) :
    step s = exec c { s with pending := s.pending.tail } := by
  obtain ⟨d, _ | ⟨c', r⟩⟩ := s
  · cases h
  · obtain rfl : c' = c := by simpa using h
    exact step_cons c' r d

/-- A step on a waiting command takes no time and leaves the queue's rest. -/
theorem step_of_pending {c : Instr} {r : List Instr} {s : State} (h : s.pending = c :: r) :
    ∃ t : State, step s = .next t ∧ t.pending = r ∧ t.dev.up = s.dev.up := by
  obtain ⟨d, hd⟩ := exec_next c { s with pending := r }
  have hstep : step s = exec c { s with pending := r } := by
    rw [step_of_head (c := c) (by rw [h]; rfl), h]; rfl
  exact ⟨{ dev := d.fused s.dev, pending := r }, hstep.trans hd, rfl, fused_up d s.dev⟩

end Sys2Proof.Machine
end

section
/-! PROOF. The statements of the whole block: a step, the queue, the state after reset. -/

namespace Sys2Proof.Machine

/-- Settles O1: a step is the command at the front, or a nanosecond. -/
theorem stepRunsFront : Obligations.StepRunsFront := by
  unfold Obligations.StepRunsFront
  refine ⟨fun c s h => step_of_head h, fun s h => ?_⟩
  obtain ⟨d, q⟩ := s
  obtain rfl : q = [] := h
  exact ⟨idle ⟨d, []⟩, step_nil d, rfl, rfl, rfl, rfl⟩

/-- Settles O2: every command gives a next state whose hard-wired fields are those of the state it ran on. -/
theorem everyCommandCompletes : Obligations.EveryCommandCompletes := by
  unfold Obligations.EveryCommandCompletes
  intro c s
  obtain ⟨d, hd⟩ := exec_next c s
  exact ⟨_, hd, rfl, fused_part d s.dev, fused_ident d s.dev, fused_up d s.dev⟩

/-- Settles O3, by induction on the number of steps: the first one takes the front of the queue, and the others drain its rest. -/
theorem queueDrains : Obligations.QueueDrains := by
  unfold Obligations.QueueDrains
  intro s k hk
  induction k generalizing s with
  | zero => exact ⟨s, rfl, rfl, rfl, fun c hc => step_of_head (by rw [List.head?_eq_getElem?, hc])⟩
  | succ k ih =>
    obtain ⟨c, r, hq⟩ := List.exists_cons_of_length_pos (Nat.zero_lt_of_lt hk)
    obtain ⟨u, hstep, hrest, hup⟩ := step_of_pending hq
    have hrun : ∀ n, runN (n + 1) (.next s) = runN n (.next u) := fun n => congrArg (runN n) hstep
    obtain ⟨t, ht, hdrop, htime, hfront⟩ := ih u (by rw [hrest]; simpa [hq] using hk)
    refine ⟨t, (hrun k).trans ht, by rw [hdrop, hrest, hq, List.drop_succ_cons], htime.trans hup, fun a ha => ?_⟩
    rw [hq, List.getElem?_cons_succ, ← hrest] at ha
    exact (hrun (k + 1)).trans (hfront a ha)

/-- Settles O5: the configuration and the identity are the ones that reset gives, and nothing waits. -/
theorem resetHasInv : Obligations.ResetHasInv := by
  unfold Obligations.ResetHasInv
  exact { part := rfl, ident := rfl, legal := by decide, pending := fun _ h => absurd h List.not_mem_nil }

/-- Settles O6: at reset each table of the block is empty, so that it reads as its default everywhere, except that of the fault
sources, which lists source 0x01 alone (R392). -/
theorem resetValues : Obligations.ResetValues := by
  unfold Obligations.ResetValues
  refine ⟨rfl, fun _ _ => rfl, fun _ _ => ⟨rfl, rfl⟩, fun _ => ⟨rfl, rfl⟩, fun _ => ⟨rfl, rfl⟩, fun _ => ⟨rfl, rfl⟩,
    rfl, rfl, rfl, rfl, rfl, ?sources, fun _ => rfl, rfl, rfl, rfl, rfl, rfl, rfl⟩
  case sources => exact fun k hk => congrArg FSrc.st (tget_tset_ne srcInit [] _ hk)

/-- Settles O12: the addresses lie in the ward's memory, where a store is a write of octets (R358). -/
theorem wardMemoryStores : Obligations.WardMemoryStores := by
  unfold Obligations.WardMemoryStores
  intro d a l hlo hhi
  exact ⟨memWrite d.wrd.sram a l, coreStore_sram l 0 a d hlo (by simpa using hhi),
    fun i h => memByte_memWrite_in l _ a i h, fun b hb => memByte_memWrite_out l _ a b hb,
    fun h => memWf_memWrite l _ a h⟩

end Sys2Proof.Machine
end

section
/-! PROOF. The statements of the journal and of time: records and checkpoints, the timebase, its PTP port. -/

namespace Sys2Proof.Machine

/-- Settles O42: each command runs its effect, which is the one that R298 to R303 give; the write of CKPT_REQUEST runs its own
under the ward's grant. -/
theorem journalCommands : Obligations.JournalCommands := by
  unfold Obligations.JournalCommands
  refine ⟨?append, ?interval, ?request, ?signDone, ?exportAck, ?doorbell⟩
  case append => exact fun l s => gives_act (exec_journalAppend l s) rfl
  case interval => exact fun s => gives_act (exec_ckptIntervalExpiry s) rfl
  case request => exact writes_of (fun _ _ v d => if v = 1 then d.cut 2 else d) exec_ckptRequest fun _ _ _ => rfl
  case signDone => exact fun s => gives_act (exec_ckptSignDone s) rfl
  case exportAck => exact fun n s => gives_act (exec_jnlExportAck n s) rfl
  case doorbell => exact fun n s => gives_act (exec_journalAckDoorbell n s) rfl

/-- Settles O43: an edge is `Dev.ppsEdge` (R310, R315), a step `Dev.taiStep` (R312), a loss or a return a transition of R311, a
pulse `Dev.ppsPulse` until `Dev.ppsFall` (R314); the three writes run their effects under the ward's grant. -/
theorem timebaseCommands : Obligations.TimebaseCommands := by
  unfold Obligations.TimebaseCommands
  refine ⟨?edge, ?set, ?step, ?slew, ?source, ?loss, ?refLost, ?refRegained, ?pulse, ?widthEnd⟩
  case edge => exact fun frac s => gives_act (exec_ppsInEdge frac s) rfl
  case set => exact writes_of (fun _ _ v d => d.taiSet v) exec_taiSet fun _ _ _ => rfl
  case step => exact fun s => gives_act (exec_taiStepApply s) rfl
  case slew => exact writes_of (fun _ _ v d => d.taiSlew v) exec_taiSlewNs fun _ _ _ => rfl
  case source => exact writes_of (fun _ _ v d => d.tbSource v) exec_tbSourceWrite fun _ _ _ => rfl
  case loss => exact fun s => gives_act (exec_sourceLossTimeout s) rfl
  case refLost => exact fun s => gives_act (exec_refclkLockLost s) rfl
  case refRegained => exact fun s => gives_act (exec_refclkLockRegained s) rfl
  case pulse => exact fun s => gives_act (exec_ppsOutPulse s) rfl
  case widthEnd => exact fun p s => gives_act (exec_ppsOutWidthEnd p s) rfl

/-- Settles O44: a message is taken by `Dev.ptpReceive`, type by type, and the three sends are `Dev.ptpSync`, `Dev.ptpAnnounce` and
`Dev.ptpDelayReq` (R316). -/
theorem ptpCommands : Obligations.PtpCommands := by
  unfold Obligations.PtpCommands
  refine ⟨?receive, ?sync, ?announce, ?delayRequest⟩
  case receive => exact fun p m s => gives_act (exec_ptpMessageReceive p m s) rfl
  case sync => exact fun p s => gives_act (exec_ptpSyncSend p s) rfl
  case announce => exact fun p s => gives_act (exec_ptpAnnounceSend p s) rfl
  case delayRequest => exact fun p s => gives_act (exec_ptpDelayRequestSend p s) rfl

end Sys2Proof.Machine
end

section
/-! PROOF. The statements of the on-chip network: route swaps and power domains. -/

namespace Sys2Proof.Machine

/-- Settles O39: each command runs its effect, which is the one that R334 to R338 give; the three writes run theirs under the
ward's grant. -/
theorem swapAndDomainCommands : Obligations.SwapAndDomainCommands := by
  unfold Obligations.SwapAndDomainCommands
  refine ⟨?swap, ?drained, ?down, ?drainEnd, ?up, ?railsUp⟩
  case swap => exact writes_of (fun _ _ v d => d.routeSwap v) exec_routeSwap fun _ _ _ => rfl
  case drained => exact fun vc s => gives_act (exec_swapVcDrained vc s) rfl
  case down => exact writes_of (fun _ _ v d => d.domainDown v) exec_domainPowerDown fun _ _ _ => rfl
  case drainEnd => exact fun s => gives_act (exec_domainDrainEnd s) rfl
  case up => exact writes_of (fun _ _ v d => d.domainUp v) exec_domainPowerUp fun _ _ _ => rfl
  case railsUp => exact fun s => gives_act (exec_domainRailsUp s) rfl

end Sys2Proof.Machine
end

section
/-! PROOF. The statements of links and host: the states of the links, what travels on them and at the Ethernet ports. -/

namespace Sys2Proof.Machine

/-- Settles O51: a link changes its state from the one that its command needs, as R341 to R344 give it; the writes of LINK_ENABLE
act on the link that the request's object belongs to, and the device's number stands while a link is not Disabled (R345). -/
theorem linkStateCommands : Obligations.LinkStateCommands := by
  unfold Obligations.LinkStateCommands
  refine ⟨?enable, ?disable, ?trained, ?realigned, ?lost, ?retrainTimeout, ?downExpiry, ?deviceId⟩
  case enable => exact writes_of (fun r _ _ d => d.reqLink r Dev.linkEnable) exec_linkEnableSet fun _ _ _ => rfl
  case disable => exact writes_of (fun r _ _ d => d.reqLink r Dev.linkDisable) exec_linkEnableClear fun _ _ _ => rfl
  case trained => exact fun l neighbour flight s => gives_act (exec_linkTrained l neighbour flight s) rfl
  case realigned => exact fun l s => gives_act (exec_linkRealigned l s) rfl
  case lost => exact fun l s => gives_act (exec_linkAlignmentLost l s) rfl
  case retrainTimeout => exact fun l s => gives_act (exec_linkRetrainTimeout l s) rfl
  case downExpiry => exact fun l s => gives_act (exec_linkDownExpiry l s) rfl
  case deviceId => exact writes_of (fun _ _ v d => d.deviceIdWrite v) exec_deviceIdWrite fun _ _ _ => rfl

/-- Settles O52: a frame is sorted by `Dev.ethReceive` (R351 to R353), a word is checked and routed by `Dev.wordReceive` (R343 to
R346), credits and retries are `Dev.creditWord` and `Dev.retryRequest`, and the oldest token at an entry node is decided by
`Dev.proxyAdmission` (R350). -/
theorem linkWordCommands : Obligations.LinkWordCommands := by
  unfold Obligations.LinkWordCommands
  refine ⟨?frame, ?split, ?word, ?credit, ?retry, ?send, ?admission⟩
  case frame => exact fun e f s => gives_act (exec_ethFrameReceive e f s) rfl
  case split => exact writes_of (fun r _ v d => d.ethSplit (r.idx % 256) v) exec_ethSplit fun _ _ _ => rfl
  case word => exact fun l i s => gives_act (exec_linkWordReceive l i s) rfl
  case credit => exact fun l returns q s => gives_act (exec_linkCreditWord l returns q s) rfl
  case retry => exact fun l q s => gives_act (exec_linkRetryRequest l q s) rfl
  case send => exact fun l s => gives_act (exec_linkTokenSend l s) rfl
  case admission => exact fun s => gives_act (exec_proxyAdmission s) rfl

end Sys2Proof.Machine
end

section
/-! PROOF. The statements of the station ring: its frames, its master and hinges. -/

namespace Sys2Proof.Machine

/-- Settles O45: the master's frame is `Dev.timeSend`, a frame that arrives is forwarded by `Dev.ringForward` and taken by its type:
time, fault or claim (R317, R367 to R371, R398). -/
theorem ringFrameCommands : Obligations.RingFrameCommands := by
  unfold Obligations.RingFrameCommands
  refine ⟨?timeSend, ?forward, ?time, ?fault, ?claim⟩
  case timeSend => exact fun s => gives_act (exec_ringTimeSend s) rfl
  case forward => exact fun p f t s => gives_act (exec_ringFrameForward p f t s) rfl
  case time => exact fun p f ps s => gives_act (exec_ringTimeFrameReceive p f ps s) rfl
  case fault => exact fun f s => gives_act (exec_ringFaultFrameReceive f s) rfl
  case claim => exact fun f s => gives_act (exec_ringClaimReceive f s) rfl

/-- Settles O46: claiming goes from its timer to mastership (R371), a port's break and its synchronisation are noted (R369), and
both hinges stay closed until the reset has ended (R372). -/
theorem ringStateCommands : Obligations.RingStateCommands := by
  unfold Obligations.RingStateCommands
  refine ⟨?claimTimer, ?absence, ?master, ?portBreak, ?hingeClose, ?hingeOpen, ?sync⟩
  case claimTimer => exact fun s => gives_act (exec_claimTimer s) rfl
  case absence => exact fun s => gives_act (exec_timeFrameAbsence s) rfl
  case master => exact fun s => gives_act (exec_becomeMaster s) rfl
  case portBreak => exact fun p s => gives_act (exec_ringBreakDetect p s) rfl
  case hingeClose => exact fun p s => gives_act (exec_hingeClose p s) rfl
  case hingeOpen => exact fun p s => gives_act (exec_hingeOpen p s) rfl
  case sync => exact fun p s => gives_act (exec_ringSyncAcquired p s) rfl

end Sys2Proof.Machine
end

section
/-! PROOF. The statements of the dictionary and the ward: requests, sessions, firmware. -/

namespace Sys2Proof.Machine

/-- Settles O47: each row takes the requests of its own `OP` to `Dev.request` and leaves every other request alone; a write of an
object without a row of its own is `Dev.command` of the plain row (R374 to R377, R418). -/
theorem dictionaryCommands : Obligations.DictionaryCommands := by
  unfold Obligations.DictionaryCommands
  refine ⟨?read, ?write, ?transferBegin, ?segmentWrite, ?segmentRead, ?transferEnd, ?counter⟩
  case read => exact fun r s => gives_act (exec_dictRead r s) rfl
  case write => exact fun r s => gives_act (exec_objectWrite r s) rfl
  case transferBegin => exact fun r s => gives_act (exec_transferBegin r s) rfl
  case segmentWrite => exact fun r s => gives_act (exec_segmentWrite r s) rfl
  case segmentRead => exact fun r s => gives_act (exec_segmentRead r s) rfl
  case transferEnd => exact fun r s => gives_act (exec_transferEnd r s) rfl
  case counter => exact fun r s => gives_act (exec_cntValueRead r s) rfl

/-- Settles O48: a session goes from its challenge to its proof and to its end (R375, R376), and the PCIe port carries what its
doorbell names until its link is reset (R355, R442). -/
theorem sessionCommands : Obligations.SessionCommands := by
  unfold Obligations.SessionCommands
  refine ⟨?challenge, ?proof, ?idle, ?lockout, ?doorbell, ?linkReset, ?linkUp⟩
  case challenge => exact fun chan station role nonce s => gives_act (exec_sessionOpen chan station role nonce s) rfl
  case proof => exact fun n proof s => gives_act (exec_sessionProof n proof s) rfl
  case idle => exact fun n s => gives_act (exec_sessionIdleTimeout n s) rfl
  case lockout => exact fun st s => gives_act (exec_lockoutExpiry st s) rfl
  case doorbell =>
    exact fun q x index octets aligned f s => gives_act (exec_pcieDoorbell q x index octets aligned f s) rfl
  case linkReset => exact fun s => gives_act (exec_pcieLinkReset s) rfl
  case linkUp => exact fun width rate s => gives_act (exec_pcieLinkUp width rate s) rfl

/-- Settles O49: each command runs its effect, which is the one that R358 to R365 give; the writes of WARD_RESTART and FW_COMMAND
run theirs under the ward's grant. -/
theorem wardCommands : Obligations.WardCommands := by
  unfold Obligations.WardCommands
  refine ⟨?watchdog, ?restart, ?sample, ?verify, ?command, ?confirm, ?timeout⟩
  case watchdog => exact fun s => gives_act (exec_watchdogExpiry s) rfl
  case restart => exact writes_of (fun _ _ v d => if v = 1 then d.wardReset 1 else d) exec_wardRestart fun _ _ _ => rfl
  case sample => exact fun tj tjHbm rails s => gives_act (exec_sensorSample tj tjHbm rails s) rfl
  case verify => exact fun s => gives_act (exec_fwVerifyDone s) rfl
  case command => exact writes_of (fun _ _ v d => d.fwCommand v) exec_fwCommand fun _ _ _ => rfl
  case confirm => exact fun s => gives_act (exec_fwTrialConfirm s) rfl
  case timeout => exact fun s => gives_act (exec_fwTrialTimeout s) rfl

end Sys2Proof.Machine
end

section
/-! PROOF. The statements of faults: the fault unit, spares, self-test and the test access port. -/

namespace Sys2Proof.Machine

/-- Settles O54: an event is counted, recorded and contained by `Dev.faultEvent` (R388 to R393), each timer of a source acts from its
time on, and the two writes move a source or an entry of the history on under the ward's grant (R394, R395). -/
theorem faultCommands : Obligations.FaultCommands := by
  unfold Obligations.FaultCommands
  refine ⟨?event, ?grace, ?relatch, ?ack, ?clear, ?subwindow, ?history, ?coreReset⟩
  case event => exact fun s => gives_act (exec_faultEvent s) rfl
  case grace => exact fun n s => gives_act (exec_graceExpiry n s) rfl
  case relatch => exact fun n s => gives_act (exec_relatchExpiry n s) rfl
  case ack => exact writes_of (fun _ _ v d => d.faultAck v) exec_faultAck fun _ _ _ => rfl
  case clear => exact writes_of (fun _ _ v d => d.faultClear v) exec_faultClear fun _ _ _ => rfl
  case subwindow => exact fun n s => gives_act (exec_faultSubwindowTick n s) rfl
  case history => exact fun i s => gives_act (exec_historyCloseExpiry i s) rfl
  case coreReset => exact fun s => gives_act (exec_deadboltCoreReset s) rfl

/-- Settles O55: a failed cluster gives its work to a spare in the steps of `Dev.takeCode` and `Dev.takeDone` (R399 to R402), and a
position under test does so in those of `Dev.rollStart` and `Dev.rollDone` (R403). -/
theorem spareCommands : Obligations.SpareCommands := by
  unfold Obligations.SpareCommands
  refine ⟨?failure, ?codeLoaded, ?complete, ?rollStart, ?rollDone⟩
  case failure => exact fun p router s => gives_act (exec_clusterFailure p router s) rfl
  case codeLoaded => exact fun s => gives_act (exec_takeoverCodeLoaded s) rfl
  case complete => exact fun s => gives_act (exec_takeoverComplete s) rfl
  case rollStart => exact fun s => gives_act (exec_rollTestStart s) rfl
  case rollDone => exact fun pass s => gives_act (exec_rollTestDone pass s) rfl

/-- Settles O56: a test of a die begins with a write and ends with the positions that failed (R404), a write arms the injection
(R405, R406), and the TAP moves at the edges of its clock (R443). -/
theorem testCommands : Obligations.TestCommands := by
  unfold Obligations.TestCommands
  refine ⟨?bist, ?bistDone, ?inject, ?tapEdge, ?tapReset⟩
  case bist => exact writes_of (fun _ _ v d => d.bistStart v) exec_bistCmd fun _ _ _ => rfl
  case bistDone => exact fun failed s => gives_act (exec_bistDone failed s) rfl
  case inject => exact writes_of (fun _ _ v d => d.injArm v) exec_injArm fun _ _ _ => rfl
  case tapEdge => exact fun rising tms tdi pins s => gives_act (exec_tapTckEdge rising tms tdi pins s) rfl
  case tapReset => exact fun s => gives_act (exec_trstNAssert s) rfl

end Sys2Proof.Machine
end

section
/-! PROOF. The statements of the performance counters. -/

namespace Sys2Proof.Machine

/-- Settles O53: the dump runs at a whole multiple of its period (R415), and the writes of a counter and of the overflow queue run
their effects under the ward's grant (R410, R419, R421). -/
theorem counterCommands : Obligations.CounterCommands := by
  unfold Obligations.CounterCommands
  refine ⟨?dump, ?config, ?value, ?pop⟩
  case dump => exact fun s => gives_act (exec_dumpTick s) rfl
  case config => exact writes_of (fun r _ v d => d.ctrConfig (r.idx % 256) (r.sub - 0x0A) v) exec_cntConfig fun _ _ _ => rfl
  case value => exact writes_of (fun r _ v d => d.ctrWrite (r.idx % 256) (r.sub - 2) v) exec_cntValueWrite fun _ _ _ => rfl
  case pop => exact writes_of (fun _ _ v d => d.ovfPop v) exec_ovfPop fun _ _ _ => rfl

end Sys2Proof.Machine
end

section
/-! PROOF. The statements of resets and power: rails and clocks, resets, SOFT_RESET, the governor. -/

namespace Sys2Proof.Machine

/-- Settles O57: each command runs its effect, which is the one that R422, R423, R429, R430, R438 and R439 give. -/
theorem powerCommands : Obligations.PowerCommands := by
  unfold Obligations.PowerCommands
  refine ⟨?auxLoss, ?auxGood, ?mainLoss, ?mainGood, ?rail, ?lock, ?lockLost, ?trip⟩
  case auxLoss => exact fun s => gives_act (exec_auxPowerLoss s) rfl
  case auxGood => exact fun s => gives_act (exec_auxPowerGood s) rfl
  case mainLoss => exact fun r s => gives_act (exec_mainPowerLoss r s) rfl
  case mainGood => exact fun s => gives_act (exec_mainPowerGood s) rfl
  case rail => exact fun r s => gives_act (exec_railOutOfRange r s) rfl
  case lock => exact fun b s => gives_act (exec_pllLock b s) rfl
  case lockLost => exact fun b s => gives_act (exec_pllLockLost b s) rfl
  case trip => exact fun s => gives_act (exec_thermalTrip s) rfl

/-- Settles O58: `RESET_N` and the initialisation act by `Dev.resetLow`, `Dev.resetHigh` and `Dev.initDone` (R424, R430, R449), a core
reset goes through its walk and its initialisation (R425), and the two writes ask for a reset under the ward's grant (R426). -/
theorem resetCommands : Obligations.ResetCommands := by
  unfold Obligations.ResetCommands
  refine ⟨?low, ?release, ?initDone, ?system, ?core, ?walkDone, ?reinitDone⟩
  case low => exact fun lowNs s => gives_act (exec_resetNAssert lowNs s) rfl
  case release => exact fun s => gives_act (exec_resetNRelease s) rfl
  case initDone => exact fun s => gives_act (exec_poweronInitDone s) rfl
  case system => exact writes_of (fun _ _ v d => if v = 1 then d.askReset else d) exec_sysResetCmd fun _ _ _ => rfl
  case core => exact writes_of (fun _ _ v d => d.coreCmd v) exec_coreResetCmd fun _ _ _ => rfl
  case walkDone => exact fun s => gives_act (exec_coreResetWalkDone s) rfl
  case reinitDone => exact fun s => gives_act (exec_coreResetReinitDone s) rfl

/-- A row of SOFT_RESET writes the register as a whole (R427). -/
theorem writes_softWrite {c : DReq → Instr} {row : WRow}
    (hx : ∀ r s, exec (c r) s = s.act (fun d => d.command r row (fun _ v d => d.softWrite v))) :
    Writes c row (fun _ r d e => e = d.softWrite (reqValue r)) :=
  writes_of (fun _ _ v d => d.softWrite v) hx fun _ _ _ => rfl

/-- Settles O59: the eight rows share one effect, `Dev.softWrite`, in which every bit that changes acts, highest first (R427); a write
of all ones asks for a system reset (R428). -/
theorem softResetCommands : Obligations.SoftResetCommands := by
  unfold Obligations.SoftResetCommands
  refine ⟨?fabric, ?keyway, ?hasp, ?eth, ?links, ?pcie, ?crypto, ?ring, ?full⟩
  case fabric => exact writes_softWrite exec_srFabric
  case keyway => exact writes_softWrite exec_srKeyway
  case hasp => exact writes_softWrite exec_srHasp
  case eth => exact writes_softWrite exec_srEth
  case links => exact writes_softWrite exec_srLinks
  case pcie => exact writes_softWrite exec_srPcie
  case crypto => exact writes_softWrite exec_srCrypto
  case ring => exact writes_softWrite exec_srRing
  case full => exact writes_of (fun _ _ _ d => d.askReset) exec_fullSoftReset fun _ _ _ => rfl

/-- Settles O60: each tick acts from its time on (R433 to R435), the poll of the AVSBus reports a rail that fails or is silent, and the
write of BOOST_ENABLE runs its effect under the ward's grant. -/
theorem governorCommands : Obligations.GovernorCommands := by
  unfold Obligations.GovernorCommands
  refine ⟨?governor, ?poll, ?boost, ?charge, ?calibration⟩
  case governor => exact fun s => gives_act (exec_governorTick s) rfl
  case poll => exact fun answered fault s => gives_act (exec_avsStatusPoll answered fault s) rfl
  case boost => exact writes_of (fun _ _ v d => d.boostWrite v) exec_boostEnable fun _ _ _ => rfl
  case charge => exact fun s => gives_act (exec_boostChargeTick s) rfl
  case calibration => exact fun stack s => gives_act (exec_hbmPeriodicCalibration stack s) rfl

end Sys2Proof.Machine
end
